-- ==== Sys2Proof/Word.lean ====
section
/-!
DEFINITION. The word types of the KA-6410 and the closed sets of names that its encodings hold
(load and store widths, conditions, orderings, scopes, predicates, collective modes).
-/
namespace Sys2Proof

/-- A 64-bit register value or address (01 R13, 02 R65). -/
abbrev Word := BitVec 64

/-- One 32-bit instruction or packet word (03 R69, 13 R298). -/
abbrev Word32 := BitVec 32

/-- One byte. -/
abbrev Byte := BitVec 8

/-- The contents of a vector register (02 R46). -/
abbrev Vec := BitVec 1024

/-- A 6-bit register-field code, scalar (01 R13) or vector (03 R77). -/
abbrev Code := BitVec 6

/-- Load widths in the order of 03 R94; the extension to 64 bits is 01 R18. -/
inductive LoadWidth where
  | w64 | s32 | s16 | s8 | z32 | z16 | z8
  deriving DecidableEq, Repr, Inhabited

/-- Bytes that a load of this width reads. -/
def LoadWidth.bytes : LoadWidth → Nat
  | .w64 => 8
  | .s32 | .z32 => 4
  | .s16 | .z16 => 2
  | .s8 | .z8 => 1

/-- Store widths in the order of 03 R94. -/
inductive StoreWidth where
  | w64 | w32 | w16 | w8
  deriving DecidableEq, Repr, Inhabited

/-- Bytes that a store of this width writes. -/
def StoreWidth.bytes : StoreWidth → Nat
  | .w64 => 8
  | .w32 => 4
  | .w16 => 2
  | .w8 => 1

/-- The conditions of 03 R79, codes 0 to 11. -/
inductive Cond where
  | eq | ne | lt | ge | ltu | geu | gt | le | gtu | leu | any | none
  deriving DecidableEq, Repr, Inhabited

/-- The ORD field of 03 R82. -/
inductive Ord where
  | plain | acquire | release | acqrel
  deriving DecidableEq, Repr, Inhabited

/-- The scopes of 03 R88. -/
inductive Scope where
  | thread | core | group | quire | device | system
  deriving DecidableEq, Repr, Inhabited

/-- FCMP predicates (06 R175). -/
inductive FPred where
  | eq | lt | le | un
  deriving DecidableEq, Repr, Inhabited

/-- VCMP predicates (06 R183). -/
inductive VPred where
  | eq | ne | lt | le | un
  deriving DecidableEq, Repr, Inhabited

/-- Collective modes (03 R86). -/
inductive CollMode where
  | wrap | sat | comp | maxi | mini | max | min
  deriving DecidableEq, Repr, Inhabited

/-- The fields of a floating-point or vector extended word that govern format and mask (03 R83). -/
structure VX where
  fmto : BitVec 5
  me   : Bool
  msk  : BitVec 3
  deriving DecidableEq, Repr, Inhabited

/-- The extended fields of a base word under LEN 0b00: no override, no mask (06 R168, R170). -/
def VX.none : VX := ⟨0, false, 0⟩

/-- The ordering qualifier of a global access (03 R82). -/
structure OX where
  ord   : Ord
  scope : Scope
  deriving DecidableEq, Repr, Inhabited

/-- A plain access (03 R82). -/
def OX.plain : OX := ⟨.plain, .thread⟩

/-- The dependence-counter classes of 02 R63, in the order of their numbers in TINFO.CLASS (17 R360). -/
inductive Cls where
  | ld | st | cp | pr | cr
  deriving DecidableEq, Repr, Inhabited

/-- The atomic operations, in the order of 11 R270. -/
inductive AtomicOp where
  | add | swp | cas | min | max | minu | maxu | and | or | xor
  deriving DecidableEq, Repr, Inhabited

/-- The fabric primitives, in the order of 03 R99. -/
inductive FabricOp where
  | puts | get | radd | apnd
  deriving DecidableEq, Repr, Inhabited

/-- The collectives, in the order of 03 R99. -/
inductive CollOp where
  | ared | rsct | agth | atoa | bcst | ored
  deriving DecidableEq, Repr, Inhabited

/-- The low n bits of x, sign-extended to 64 bits (01 R31). -/
def sextFrom (n : Nat) (x : Word) : Word := (x.setWidth n).signExtend 64

/-- The low n bits of x, zero-extended to 64 bits (01 R31). -/
def zextFrom (n : Nat) (x : Word) : Word := (x.setWidth n).setWidth 64

end Sys2Proof
end

