-- ==== Sys2Proof/Machine/Num.lean ====
section
/-!
DEFINITION. The arithmetic of 04_arith_formats.md: number formats, exact values, rounding, the
stochastic generator, conversions, KS24 scales and XI residues.
An exact real is held as a signed magnitude in units of 2^-gridBits; every format, product and sum of
the spec lies on that grid, and a quotient, root, power or logarithm that does not is cut down to it with
a sticky mark, which says that the true magnitude lies strictly above.
-/
namespace Sys2Proof.Machine

/-! ## Rounding modes and the generator -/

/-- The rounding calls of 01 R32; the first five codes of RND.MODE in the order of 02 R67. -/
inductive RMode where
  | rn | rz | rp | rm | rs
  deriving DecidableEq, Repr, Inhabited

/-- RND.MODE as a mode (02 R67); the field never holds another code (R33). -/
def RMode.ofCode (n : Nat) : RMode :=
  if n = 1 then .rz else if n = 2 then .rp else if n = 3 then .rm else if n = 4 then .rs else .rn

/-- One step of the stochastic generator, 04 R117. -/
def stepSeed (g : BitVec 32) : BitVec 32 :=
  let fb := g[31] ^^ g[21] ^^ g[1] ^^ g[0]
  (g <<< 1) ||| (if fb then 1#32 else 0#32)

/-! ## Exact extended reals -/

/-- Fraction bits of the grid on which exact values are held. -/
def gridBits : Nat := 1024

/-- An exact operand or result: NaN, an infinity, or a signed magnitude in grid units. With `sticky` the true
magnitude lies strictly between `mag` and `mag + 1` units. -/
inductive Ext where
  | nan
  | inf (neg : Bool)
  | fin (neg : Bool) (mag : Nat) (sticky : Bool)
  deriving DecidableEq, Repr, Inhabited

/-- The exact integer i. -/
def Ext.ofInt (i : Int) : Ext := .fin (decide (i < 0)) (i.natAbs <<< gridBits) false

/-- A signed number of grid units. -/
def signedMag (neg : Bool) (mag : Nat) : Int := if neg then -(mag : Int) else mag

/-- The value with its sign inverted. -/
def Ext.negate : Ext → Ext
  | .nan => .nan
  | .inf n => .inf (!n)
  | .fin n m k => .fin (!n) m k

/-- The exact sum; zero signs by 04 R114, ∞ − ∞ by 06 R173. -/
def Ext.add (m : RMode) : Ext → Ext → Ext
  | .nan, _ => .nan
  | _, .nan => .nan
  | .inf a, .inf b => if a = b then .inf a else .nan
  | .inf a, _ => .inf a
  | _, .inf b => .inf b
  | .fin a x kx, .fin b y ky =>
    let t := signedMag a x + signedMag b y
    if t = 0 then .fin (if a = b then a else decide (m = .rm)) 0 (kx || ky)
    else .fin (decide (t < 0)) t.natAbs (kx || ky)

/-- The exact product, 06 R173, 04 R114. -/
def Ext.mul : Ext → Ext → Ext
  | .nan, _ => .nan
  | _, .nan => .nan
  | .inf a, .inf b => .inf (a ^^ b)
  | .inf a, .fin b y _ => if y = 0 then .nan else .inf (a ^^ b)
  | .fin a x _, .inf b => if x = 0 then .nan else .inf (a ^^ b)
  | .fin a x kx, .fin b y ky =>
    let p := x * y
    .fin (a ^^ b) (p >>> gridBits) (kx || ky || p % 2 ^ gridBits != 0)

/-- The exact quotient, 06 R173. -/
def Ext.div : Ext → Ext → Ext
  | .nan, _ => .nan
  | _, .nan => .nan
  | .inf _, .inf _ => .nan
  | .inf a, .fin b _ _ => .inf (a ^^ b)
  | .fin a _ _, .inf b => .fin (a ^^ b) 0 false
  | .fin a x kx, .fin b y ky =>
    if y = 0 then (if x = 0 then .nan else .inf (a ^^ b))
    else .fin (a ^^ b) ((x <<< gridBits) / y) (kx || ky || (x <<< gridBits) % y != 0)

/-- The bits of an integer square root from bit i − 1 down. -/
def isqrtFrom (n : Nat) : Nat → Nat → Nat
  | 0, r => r
  | i + 1, r => isqrtFrom n i (if (r + 2 ^ i) * (r + 2 ^ i) ≤ n then r + 2 ^ i else r)

/-- The largest r with r * r ≤ n. -/
def isqrt (n : Nat) : Nat := isqrtFrom n (n.log2 / 2 + 1) 0

/-- The exact square root, 06 R173. -/
def Ext.sqrt : Ext → Ext
  | .nan => .nan
  | .inf n => if n then .nan else .inf false
  | .fin n x _ =>
    if x = 0 then .fin n 0 false
    else if n then .nan
    else
      let y := x <<< gridBits
      let r := isqrt y
      .fin false r (r * r != y)

/-- 1/a with the special operands of 06 R181. -/
def Ext.recip : Ext → Ext
  | .nan => .nan
  | .inf n => .fin n 0 false
  | .fin n x k => Ext.div (.fin false (1 <<< gridBits) false) (.fin n x k)

/-- 1/√a with the special operands of 06 R181. -/
def Ext.rsqrt : Ext → Ext
  | .nan => .nan
  | .inf n => if n then .nan else .fin false 0 false
  | .fin n x _ =>
    if x = 0 then .inf n
    else if n then .nan
    else
      let top := 2 ^ (3 * gridBits)
      let r := isqrt (top / x)
      .fin false r (r * r * x != top)

/-! ### Powers and logarithms of two

2^f and log₂ m are irrational except at the exact cases, so a value computed to `logBits` bits with its
sticky mark rounds as the exact value does: no boundary of a format lies closer to an inexact
result than that (DEDUCED, log 17). -/

/-- Working precision of the two series. -/
def logBits : Nat := 400

/-- Σ 1/(n 2^n) for n = k, k + 1, …: ln 2 from k = 1. -/
def ln2From : Nat → Nat → Nat
  | 0, _ => 0
  | i + 1, k => 2 ^ logBits / (k * 2 ^ k) + ln2From i (k + 1)

/-- ln 2 in units of 2^-logBits. -/
def ln2Fixed : Nat := ln2From logBits 1

/-- The tail of the exponential series from the term t = y^k / k!. -/
def expFrom (y : Nat) : Nat → Nat → Nat → Nat
  | 0, _, _ => 0
  | i + 1, k, t => t + expFrom y i (k + 1) (t * y / ((k + 1) * 2 ^ logBits))

/-- The tail of the series of artanh from the term p = r^(2k+1). -/
def artanhFrom (r2 : Nat) : Nat → Nat → Nat → Nat
  | 0, _, _ => 0
  | i + 1, k, p => p / (2 * k + 1) + artanhFrom r2 i (k + 1) ((p * r2) >>> logBits)

/-- A value in units of 2^-logBits times 2^k, on the grid, cut down. -/
def scaleFixed (y : Nat) (k : Int) : Nat :=
  let sh : Int := gridBits + k - logBits
  if sh < 0 then y >>> sh.natAbs else y <<< sh.natAbs

/-- 2^a with the special operands of 06 R181. -/
def Ext.exp2 : Ext → Ext
  | .nan => .nan
  | .inf n => if n then .fin false 0 false else .inf false
  | .fin n x _ =>
    let v := signedMag n x
    let k := v / (2 ^ gridBits : Int)
    let f := (v % (2 ^ gridBits : Int)).toNat
    if k > 4096 then .fin false (2 ^ (gridBits + 4096)) true
    else if k < -4096 then .fin false 0 true
    else if f = 0 then
      (if k < -(gridBits : Int) then .fin false 0 true
       else .fin false (2 ^ (gridBits + k).toNat) false)
    else
      let y := ((f >>> (gridBits - logBits)) * ln2Fixed) >>> logBits
      .fin false (scaleFixed (expFrom y 100 0 (2 ^ logBits)) k) true

/-- log₂ a with the special operands of 06 R181. The exact zero of log₂ 1 is +0: 04 R114 and R181 name no sign for it (DESIGN CHOICE, log 79). -/
def Ext.log2 : Ext → Ext
  | .nan => .nan
  | .inf n => if n then .nan else .inf false
  | .fin n x _ =>
    if x = 0 then .inf true
    else if n then .nan
    else
      let l := x.log2
      let e : Int := (l : Int) - gridBits
      if x = 2 ^ l then Ext.ofInt e
      else
        let t := (x <<< logBits) >>> l
        let r := ((t - 2 ^ logBits) <<< logBits) / (t + 2 ^ logBits)
        let ln := 2 * artanhFrom ((r * r) >>> logBits) 140 0 r
        let g := (ln <<< logBits) / ln2Fixed
        let v := e * (2 ^ logBits : Int) + g
        .fin (decide (v < 0)) (v.natAbs <<< (gridBits - logBits)) true

/-! ## Formats -/

/-- A floating-point format of 04 R110 to R112. `maxEnc` is the encoding of the largest finite magnitude;
`nanEnc` the NaN the device produces. -/
structure FloatFmt where
  expBits  : Nat
  fracBits : Nat
  bias     : Nat
  hasInf   : Bool
  maxEnc   : Nat
  nanEnc   : Nat
  deriving DecidableEq, Repr

def fp32 : FloatFmt := ⟨8, 23, 127, true, 0x7F7FFFFF, 0x7FC00000⟩
def fp16 : FloatFmt := ⟨5, 10, 15, true, 0x7BFF, 0x7E00⟩
def bf16 : FloatFmt := ⟨8, 7, 127, true, 0x7F7F, 0x7FC0⟩
def e4m3 : FloatFmt := ⟨4, 3, 7, false, 0x7E, 0x7F⟩
def e5m2 : FloatFmt := ⟨5, 2, 15, true, 0x7B, 0x7E⟩
/-- E2M1 has no NaN; a NaN becomes +0 (04 R116). -/
def e2m1 : FloatFmt := ⟨2, 1, 1, false, 0x7, 0x0⟩

/-- The set G of 06 R181: FP32 encodings whose fraction bits 1:0 are zero, as a format of 21 fraction bits whose
encodings are those of FP32 shifted right by two. -/
def fpG : FloatFmt := ⟨8, 21, 127, true, 0x1FDFFFFF, 0x1FF00000⟩

namespace FloatFmt

/-- Bits of an encoding. -/
def width (f : FloatFmt) : Nat := 1 + f.expBits + f.fracBits

/-- Log₂ of the smallest subnormal, in grid units. -/
def unitExp (f : FloatFmt) : Nat := gridBits - (f.bias - 1 + f.fracBits)

/-- The magnitude of a finite encoding without its sign bit (04 R111). -/
def magOf (f : FloatFmt) (n : Nat) : Nat :=
  let e := n >>> f.fracBits
  let fr := n % 2 ^ f.fracBits
  if e = 0 then fr <<< f.unitExp else (2 ^ f.fracBits + fr) <<< (f.unitExp + e - 1)

/-- The value of an encoding (04 R111, R112). -/
def decode (f : FloatFmt) (bits : Nat) : Ext :=
  let neg := bits.testBit (f.width - 1)
  let n := bits % 2 ^ (f.width - 1)
  if f.hasInf && n == f.maxEnc + 1 then .inf neg
  else if n > f.maxEnc then .nan
  else .fin neg (f.magOf n) false

/-- A magnitude encoding with its sign. -/
def withSign (f : FloatFmt) (neg : Bool) (n : Nat) : Nat := if neg then n + 2 ^ (f.width - 1) else n

end FloatFmt

/-- The choice between the lower neighbour n and the upper one n + 1 of a value that lies rem / 2^q (and more, with
`sticky`) above the lower (04 R115, R118); z is the drawn word of a stochastic call. -/
def roundPick (m : RMode) (neg : Bool) (z : BitVec 32) (n rem q : Nat) (sticky : Bool) : Nat :=
  if rem = 0 ∧ sticky = false then n
  else
    let up : Bool := match m with
      | .rn => decide (2 * rem > 2 ^ q) || (2 * rem == 2 ^ q && (sticky || n % 2 == 1))
      | .rz => false
      | .rp => !neg
      | .rm => neg
      | .rs => decide (z.toNat < (rem <<< 32) >>> q)
    if up then n + 1 else n

/-- The neighbour encodings of a magnitude, unbounded above: the lower one, the remainder and the exponent of the gap. -/
def FloatFmt.locate (f : FloatFmt) (mag : Nat) : Nat × Nat × Nat :=
  let q := Nat.max f.unitExp (mag.log2 - f.fracBits)
  (((q - f.unitExp) <<< f.fracBits) + (mag >>> q), mag % 2 ^ q, q)

/-- A finite magnitude above the largest finite value (04 R116). -/
def FloatFmt.overflow (f : FloatFmt) (m : RMode) (neg : Bool) (mag : Nat) : Nat :=
  let max := f.magOf f.maxEnc
  let ulp := max - f.magOf (f.maxEnc - 1)
  let toInf : Bool := f.hasInf && (match m with
    | .rn => decide (2 * mag ≥ 2 * max + ulp)
    | .rz | .rs => false
    | .rp => !neg
    | .rm => neg)
  if toInf then f.maxEnc + 1 else f.maxEnc

/-- A rounding call (04 R115, R116, R113, R118) with the drawn word z: the encoding of the result. -/
def FloatFmt.round (f : FloatFmt) (m : RMode) (z : BitVec 32) : Ext → Nat
  | .nan => f.nanEnc
  | .inf neg => f.withSign neg (if f.hasInf then f.maxEnc + 1 else f.maxEnc)
  | .fin neg mag sticky =>
    let max := f.magOf f.maxEnc
    f.withSign neg
      (if mag > max ∨ (mag = max ∧ sticky = true) then f.overflow m neg mag
       else
         let (n, rem, q) := f.locate mag
         roundPick m neg z n rem q sticky)

/-- A rounding to an integer (04 R120 step 1). -/
def roundInt (m : RMode) (z : BitVec 32) (neg : Bool) (mag : Nat) (sticky : Bool) : Int :=
  signedMag neg (roundPick m neg z (mag >>> gridBits) (mag % 2 ^ gridBits) gridBits sticky)

/-- x clamped to the signed n-bit range (01 R31). -/
def satS (n : Nat) (x : Int) : Int := max (-(2 ^ (n - 1) : Int)) (min (2 ^ (n - 1) - 1) x)

/-- x clamped to the unsigned n-bit range (01 R31). -/
def satU (n : Nat) (x : Int) : Int := max 0 (min (2 ^ n - 1) x)

/-- The integer congruent to x modulo 2^n, as its n-bit pattern. -/
def wrapNat (n : Nat) (x : Int) : Nat := (x % (2 ^ n : Int)).toNat

/-- The element formats of 03 R84. -/
inductive Fmt where
  | int (w : Nat)
  | uint (w : Nat)
  | flt (f : FloatFmt)
  | ks24
  | xi
  deriving DecidableEq, Repr

/-- The format that a code names (03 R84); code 0 and the codes from 19 on name none. -/
def Fmt.ofCode (c : Nat) : Option Fmt :=
  match c with
  | 1 => some (.int 4) | 2 => some (.int 8) | 3 => some (.int 16) | 4 => some (.int 32) | 5 => some (.int 64)
  | 6 => some (.uint 4) | 7 => some (.uint 8) | 8 => some (.uint 16) | 9 => some (.uint 32)
  | 10 => some (.uint 64)
  | 11 => some (.flt fp32) | 12 => some (.flt fp16) | 13 => some (.flt bf16) | 14 => some (.flt e4m3)
  | 15 => some (.flt e5m2) | 16 => some (.flt e2m1)
  | 17 => some .ks24 | 18 => some .xi
  | _ => none

namespace Fmt

/-- Element width in bits. -/
def width : Fmt → Nat
  | .int w => w
  | .uint w => w
  | .flt f => f.width
  | .ks24 => 24
  | .xi => 40

/-- An integer format of 06 R168. -/
def isInt : Fmt → Bool
  | .int _ => true
  | .uint _ => true
  | _ => false

/-- A signed pattern of w bits as an integer. -/
def signedOf (w n : Nat) : Int := if n % 2 ^ w < 2 ^ (w - 1) then (n % 2 ^ w : Nat) else (n % 2 ^ w : Nat) - (2 ^ w : Int)

/-- The integer that an integer element holds (04 R106); 0 for the other formats. -/
def intVal (f : Fmt) (bits : Nat) : Int :=
  match f with
  | .int w => signedOf w bits
  | .uint w => (bits % 2 ^ w : Nat)
  | _ => 0

/-- The exact value of an element (04 R106, R111, R112). -/
def val (f : Fmt) (bits : Nat) : Ext :=
  match f with
  | .int _ => Ext.ofInt (f.intVal bits)
  | .uint _ => Ext.ofInt (f.intVal bits)
  | .flt g => g.decode (bits % 2 ^ g.width)
  | _ => .nan

/-- The integer clamped to the range of an integer format (04 R120 step 2). -/
def clamp (f : Fmt) (x : Int) : Int :=
  match f with
  | .int w => satS w x
  | .uint w => satU w x
  | _ => x

/-- The largest and the smallest value of an integer format. -/
def extreme (f : Fmt) (neg : Bool) : Int :=
  match f with
  | .int w => if neg then -(2 ^ (w - 1) : Int) else 2 ^ (w - 1) - 1
  | .uint w => if neg then 0 else 2 ^ w - 1
  | _ => 0

/-- An exact value rounded once to this format (04 R115, R120), as the pattern of the format. -/
def roundTo (f : Fmt) (m : RMode) (z : BitVec 32) (v : Ext) : Nat :=
  match f with
  | .flt g => g.round m z v
  | _ =>
    match v with
    | .nan => 0
    | .inf neg => wrapNat f.width (f.extreme neg)
    | .fin neg mag k => wrapNat f.width (f.clamp (roundInt m z neg mag k))

end Fmt

/-- The state of a sequence of rounding calls: the mode and the generator (04 R118). -/
structure Rnd where
  mode : RMode
  seed : BitVec 32
  deriving DecidableEq, Repr

/-- The generator after one rounding call in the mode of RND (04 R118). -/
def Rnd.next (r : Rnd) : Rnd := if r.mode = .rs then { r with seed := stepSeed r.seed } else r

/-- One `rnd` call: the rounded pattern and the generator after it (01 R32, 04 R118). -/
def Rnd.call (r : Rnd) (f : Fmt) (v : Ext) : Nat × Rnd :=
  (f.roundTo r.mode r.next.seed v, r.next)

/-! ## KS24 scales -/

/-- A KS24 scale: NaN (`none`) or its magnitude in grid units (04 R122). -/
def ks24Val (bits : Nat) : Option Nat :=
  let e := (bits >>> 16) % 256
  let fr := bits % 65536
  if e = 255 then none
  else if e = 0 then some 0
  else some ((65536 + fr) <<< (gridBits + e - 127 - 16))

/-- The magnitude format of a KS24 scale. -/
def ks24Fmt : FloatFmt := ⟨8, 16, 127, false, 0xFEFFFF, 0xFF0000⟩

/-- The conversion to KS24 of 04 R123. In mode 4 a value above that of 0xFE_FFFF rounds as any other, to 0xFE_FFFF or beyond it, which is NaN:
04 R118 makes no stochastic pick beyond max and R116 has no column for KS24 (DESIGN CHOICE, log 74). -/
def toKs24 (m : RMode) (z : BitVec 32) : Ext → Nat
  | .nan => 0xFF0000
  | .inf _ => 0xFF0000
  | .fin neg mag sticky =>
    if mag = 0 ∧ sticky = false then 0
    else if neg then 0xFF0000
    else if mag < 1 <<< (gridBits - 126) then (if m = .rp then 0x010000 else 0)
    else
      let (n, rem, q) := ks24Fmt.locate mag
      let e := roundPick m false z n rem q sticky
      if e > 0xFEFFFF then 0xFF0000 else e

/-- The scale of a 32-bit scale word or of a VSCL operand: bits above 23 poison it (04 R125, 06 R180). -/
def scaleWord (w : Nat) : Option Nat := if w >>> 24 = 0 then ks24Val w else none

/-- val(e) × S with the special cases of 04 R125. -/
def scaled (v : Ext) (s : Option Nat) : Ext :=
  match s with
  | none => .nan
  | some k => Ext.mul v (.fin false k false)

/-! ## Conversions -/

/-- One element conversion (04 R119 to R121, R123, 06 R176): the pattern in the destination format and the generator after
the call. An integer-to-integer conversion makes no rounding call; with `sat` its narrowing saturates. -/
def convElem (src dst : Fmt) (sat : Bool) (r : Rnd) (bits : Nat) : Nat × Rnd :=
  if src.isInt ∧ dst.isInt then
    let x := src.intVal bits
    (wrapNat dst.width (if sat then dst.clamp x else x), r)
  else
    match dst with
    | .ks24 => (toKs24 r.mode r.next.seed (src.val bits), r.next)
    | _ => r.call dst (src.val bits)

/-! ## XI residues -/

/-- The moduli of 04 R127. -/
def xiM1 : Nat := 4095
def xiM2 : Nat := 4096
def xiM3 : Nat := 4097

/-- The three channels of a lane, each reduced (04 R126). -/
def xiChannels (lane : BitVec 40) : Nat × Nat × Nat :=
  ((lane.extractLsb' 0 12).toNat % xiM1, (lane.extractLsb' 12 12).toNat % xiM2, (lane.extractLsb' 24 13).toNat % xiM3)

/-- A lane from its channels (04 R126). -/
def xiLane (c1 c2 c3 : Nat) : BitVec 40 := BitVec.ofNat 40 (c3 * 2 ^ 24 + c2 * 2 ^ 12 + c1)

/-- The integer p added to a lane (04 R127). -/
def xiAdd (lane : BitVec 40) (p : Int) : BitVec 40 :=
  let (c1, c2, c3) := xiChannels lane
  xiLane (((c1 : Int) + p) % (xiM1 : Int)).toNat (((c2 : Int) + p) % (xiM2 : Int)).toNat (((c3 : Int) + p) % (xiM3 : Int)).toNat

/-- The integer that a lane represents (04 R128). -/
def xiValue (lane : BitVec 40) : Int :=
  let (c1, c2, c3) := xiChannels lane
  let q1 : Int := c2
  let q2 : Int := ((c1 : Int) - q1) % 4095
  let q3 : Int := (((c3 : Int) - q1 + q2) * 2049) % 4097
  let y := q1 + 4096 * q2 + 16773120 * q3
  if y ≥ 34359736320 then y - 68719472640 else y

/-! ## Comparisons -/

/-- The order key of a number: −∞, the finite values, +∞; `none` for NaN. -/
def Ext.key : Ext → Option (Int × Int)
  | .nan => none
  | .inf n => some (if n then -1 else 1, 0)
  | .fin n m _ => some (0, signedMag n m)

/-- x < y numerically; false when either is NaN. -/
def Ext.lt (x y : Ext) : Bool :=
  match x.key, y.key with
  | some a, some b => decide (a.1 < b.1) || (a.1 == b.1 && decide (a.2 < b.2))
  | _, _ => false

/-- x = y numerically (+0 equals −0); false when either is NaN. -/
def Ext.eqv (x y : Ext) : Bool :=
  match x.key, y.key with
  | some a, some b => a == b
  | _, _ => false

/-- The value is NaN. -/
def Ext.isNan : Ext → Bool
  | .nan => true
  | _ => false

/-- The sign mark of a value. -/
def Ext.isNeg : Ext → Bool
  | .nan => false
  | .inf n => n
  | .fin n _ _ => n

/-- x below y in the order of 06 R174: numeric, with −0 below +0. -/
def Ext.below (x y : Ext) : Bool := x.lt y || (x.eqv y && x.isNeg && !y.isNeg)

end Sys2Proof.Machine
end

