-- ==== Sys2Proof/Machine/Flags.lean ====
section
/-!
DEFINITION. Conditions and predicates. The device has no flags (05 R130, 04 R105): a comparison's result is a register value,
a mask or a branch decision.
-/
namespace Sys2Proof.Machine

/-- The conditions of 03 R79. -/
def condHolds (c : Cond) (a b : Word) : Bool :=
  match c with
  | .eq => a == b
  | .ne => a != b
  | .lt => a.slt b
  | .ge => !a.slt b
  | .ltu => a.ult b
  | .geu => !a.ult b
  | .gt => b.slt a
  | .le => !b.slt a
  | .gtu => b.ult a
  | .leu => !b.ult a
  | .any => a &&& b != 0
  | .none => a &&& b == 0

/-- 1 when a condition holds, else 0. -/
def boolWord (b : Bool) : Word := if b then 1 else 0

/-- The predicates of FCMP (06 R175). -/
def fpredHolds (p : FPred) (x y : Ext) : Bool :=
  match p with
  | .eq => x.eqv y
  | .lt => x.lt y
  | .le => x.lt y || x.eqv y
  | .un => x.isNan || y.isNan

/-- The predicates of VCMP on floats (06 R183). -/
def vpredFloat (p : VPred) (x y : Ext) : Bool :=
  match p with
  | .eq => x.eqv y
  | .ne => !x.eqv y
  | .lt => x.lt y
  | .le => x.lt y || x.eqv y
  | .un => x.isNan || y.isNan

/-- The predicates of VCMP on integers (06 R183). -/
def vpredInt (p : VPred) (x y : Int) : Bool :=
  match p with
  | .eq => x == y
  | .ne => x != y
  | .lt => decide (x < y)
  | .le => decide (x ≤ y)
  | .un => false

/-- The class word of FCLS (06 R177). -/
def classWord (f : FloatFmt) (bits : Nat) : Word :=
  match f.decode (bits % 2 ^ f.width) with
  | .nan => 0x100
  | .inf n => if n then 0x001 else 0x080
  | .fin n m _ =>
    if m = 0 then (if n then 0x008 else 0x010)
    else if bits / 2 ^ f.fracBits % 2 ^ f.expBits = 0 then (if n then 0x004 else 0x020)
    else (if n then 0x002 else 0x040)

end Sys2Proof.Machine
end

