-- ==== Sys2Proof/Steps.lean ====
section
/-!
DEFINITION. The operands of the device's steps (the rows of opcode_table.json that are no instruction).
-/
namespace Sys2Proof

/-- A global virtual address in a packet body (13 R298). -/
abbrev PktAddr := Word

/-- OP of SIGNAL and WRITE-SIGNAL (13 R299). -/
inductive SignalOp where
  | set | add
  deriving DecidableEq, Repr, Inhabited

/-- CMP of WAIT-VALUE (13 R299). -/
inductive WaitCmp where
  | eq | ne | geu | ltu
  deriving DecidableEq, Repr, Inhabited

/-- The body of a REAM-LOAD (13 R299). -/
structure ReamLoad where
  src   : Word
  first : Nat
  last  : Nat
  roff  : Nat
  len   : Nat
  sstr  : Word32
  deriving DecidableEq, Repr, Inhabited

/-- The body of a SELFTEST (13 R299, 17 R384). -/
structure SelfTest where
  first : Nat
  last  : Nat
  tset  : Nat
  addr  : Word
  deriving DecidableEq, Repr, Inhabited

/-- A service request as the Headbox parses it (13 R311, R312, 19 R396, R398): the device and virtual device that sent it and the virtual
device that it asks. `op` is the primitive of this device that sent it. -/
structure HeadboxReq where
  src     : Nat
  srcVd   : Nat
  dstVd   : Nat
  svc     : Nat
  tag     : Nat
  payload : List Byte
  op      : Option Nat
  deriving DecidableEq, Repr, Inhabited

/-- A fabric request as it reaches its target (11 R288, R289, 19 R396). `op` is the primitive of this device that sent it. -/
structure FabricReq where
  srcVd  : Nat
  dstVd  : Nat
  prim   : FabricOp
  addr   : Word
  data   : List Byte
  len    : Nat
  signal : Option Word
  op     : Option Nat
  deriving DecidableEq, Repr, Inhabited

/-- A data unit that a contained error poisons (17 R383). Queues 0 to 3 are the load-data queues, 4 and 5 the store-data ones. -/
inductive DataUnit where
  | spad (core off : Nat)
  | ream (core off : Nat)
  | dram (key : Nat)
  | tile (core acc lane : Nat)
  | queue (core slot q idx : Nat)
  | plan (core off : Nat)
  deriving DecidableEq, Repr, Inhabited

/-- The classes of hardware error (17 R381). -/
inductive McClass where
  | corrected | contained | fatal
  deriving DecidableEq, Repr, Inhabited

/-- A detected hardware error (17 R381, R382): its bank, detector, class, address, MISC, virtual device and poisoned units. -/
structure McEvent where
  bank   : Nat
  src    : Nat
  cls    : McClass
  addr   : Option Word
  misc   : Option Word
  vd     : Option (Fin 8)
  poison : List DataUnit
  deriving DecidableEq, Repr, Inhabited

/-- What the patrol scrub finds in a line (17 R382). -/
inductive Scrub where
  | clean | corrected | contained
  deriving DecidableEq, Repr, Inhabited

/-- A Tvedten frame as a port receives it (19 R395, R397). -/
structure Frame where
  dest : Nat
  lane : Fin 4
  good : Bool
  deriving DecidableEq, Repr, Inhabited

/-- The slot of a thread, and the node whose thread is meant: an action does not reach another node's thread in the same slot (17 R365). -/
structure ThreadSlot where
  node : Nat
  slot : Nat
  deriving DecidableEq, Repr, Inhabited

/-- What a fault record says before the device numbers it (17 R367). -/
structure FaultRec where
  rkind : Nat
  vd    : Fin 8
  ctx   : Nat
  h     : Nat
  slot  : Nat
  tstat : Word
  taddr : Word
  tinfo : Word
  clk   : Nat
  node  : Nat
  mould : Nat
  replay : Nat
  mc    : Word
  info  : Word
  /-- an error that affects no virtual device -/
  alone : Bool
  deriving DecidableEq, Repr

end Sys2Proof
end

