-- ==== Sys2Proof/Syntax.lean ====
section
/-!
DEFINITION. The instructions and steps of the KA-6410: one constructor per row of opcode_table.json.
Register-field codes stay raw, because an illegal code is a trap of the instruction that holds it (01 R14, 03 R70);
every other field holds only values that 03_encoding_opcode_map.md assigns, as WellFormed.lean states.
-/
namespace Sys2Proof

/-- The rows of opcode_table.json: the steps of the device, then the instructions of chapters 05 to 11. -/
inductive Instr where
  /-- SPAWN_THREAD_READY (R145). -/
  | spawnThreadReady (core slot : Nat)
  /-- GANG_FORM (R150). -/
  | gangForm (core slot : Nat)
  /-- REMOTE_ACCESS_PERFORMED (R161). -/
  | remoteAccessPerformed (op : Nat)
  /-- REMOTE_REPLY (R161). -/
  | remoteReply (op : Nat)
  /-- GLOBAL_ACCESS_COMPLETE (R268). -/
  | globalAccessComplete (op : Nat)
  /-- PARK_WAKE (R272). -/
  | parkWake (core slot : Nat)
  /-- PRESS_OP_START (R194). -/
  | pressOpStart (core op : Nat)
  /-- PRESS_OP_COMPLETE (R211). -/
  | pressOpComplete (core op : Nat)
  /-- WATERMARK_ACCEPT (R223). -/
  | watermarkAccept (core : Nat)
  /-- WATERMARK_COMPLETE (R223). -/
  | watermarkComplete (core : Nat)
  /-- COPY_REGISTRATION (R256). -/
  | copyRegistration (op : Nat)
  /-- COPY_CHUNK (R278). -/
  | copyChunk (op : Nat)
  /-- COPY_COMPLETE (R278). -/
  | copyComplete (op : Nat)
  /-- COLLECTIVE_DELIVERY (R287). -/
  | collectiveDelivery (op : Nat)
  /-- FABRIC_REQUEST (R289). -/
  | fabricRequest (src : Nat) (req : FabricReq)
  /-- FABRIC_ACK (R290). -/
  | fabricAck (op status : Nat) (data : List Byte)
  /-- DOORBELL (R296). -/
  | doorbell (vd : Fin 8) (q : Fin 64) (val : Word)
  /-- QSTAT_ERR_CLEAR (R296). -/
  | qstatErrClear (vd : Fin 8) (q : Fin 64)
  /-- WRITE (R299). -/
  | write (vd : Fin 8) (q : Fin 64) (addr : PktAddr) (data : List Word32)
  /-- SIGNAL (R299). -/
  | signal (vd : Fin 8) (q : Fin 64) (addr : PktAddr) (op : SignalOp) (val : Word)
  /-- WAIT_VALUE (R299). -/
  | waitValue (vd : Fin 8) (q : Fin 64) (addr : PktAddr) (cmp : WaitCmp) (val mask : Word)
  /-- WAIT_VALUE_COMPLETE (R297). -/
  | waitValueComplete (vd : Fin 8) (q : Fin 64)
  /-- WRITE_SIGNAL (R299). -/
  | writeSignal (vd : Fin 8) (q : Fin 64) (addr saddr : PktAddr) (op : SignalOp) (val : Word) (data : List Word32)
  /-- INDIRECT (R300). -/
  | indirect (vd : Fin 8) (q : Fin 64) (addr : PktAddr) (nwi : Nat)
  /-- PULL (R306). -/
  | pull (vd : Fin 8) (q : Fin 64) (mh : Word32) (paddr : PktAddr) (table : List Word32)
  /-- REAM_LOAD (R299). -/
  | reamLoad (vd : Fin 8) (q : Fin 64) (ld : ReamLoad)
  /-- REAM_LOAD_COMPLETE (R299). -/
  | reamLoadComplete (vd : Fin 8) (id : Nat)
  /-- SELFTEST (R384). -/
  | selftest (vd : Fin 8) (q : Fin 64) (st : SelfTest)
  /-- SELFTEST_COMPLETE (R384). -/
  | selftestComplete (vd : Fin 8) (id : Nat)
  /-- TIMESTAMP (R299). -/
  | timestamp (vd : Fin 8) (q : Fin 64) (addr : PktAddr)
  /-- FENCE_PACKET (R299). -/
  | fencePacket (vd : Fin 8) (q : Fin 64)
  /-- FENCE_PACKET_COMPLETE (R297). -/
  | fencePacketComplete (vd : Fin 8) (q : Fin 64)
  /-- V2_PACKET (R302). -/
  | v2Packet (vd : Fin 8) (q : Fin 64) (pkt : List Word32)
  /-- MLOAD (R303). -/
  | mload (vd : Fin 8) (va : Word)
  /-- MFREE (R303). -/
  | mfree (vd : Fin 8) (h : Nat)
  /-- PULL_WRITE (R304). -/
  | pullWrite (vd : Fin 8) (h : Nat) (val : Word)
  /-- NODE_DISPATCH (R309). -/
  | nodeDispatch (vd : Fin 8) (node : Nat)
  /-- LAUNCH_COMPLETE (R55). -/
  | launchComplete (node : Nat)
  /-- DISPLACE (R310). -/
  | displace (vd : Fin 8) (node : Nat)
  /-- RESTORE (R309). -/
  | restore (node : Nat)
  /-- RESTORE_COMPLETE (R374). -/
  | restoreComplete (node core : Nat)
  /-- HEADBOX_REQUEST (R312). -/
  | headboxRequest (vd : Fin 8) (req : HeadboxReq)
  /-- HEADBOX_TOKEN_REFILL (R311). -/
  | headboxTokenRefill (vd : Fin 8) (entry : Fin 64)
  /-- DECKLE_FETCH (R313). -/
  | deckleFetch (stream : Nat)
  /-- CORE_ARRIVAL (R316). -/
  | coreArrival (core : Nat)
  /-- DECKLE_FIRE (R317). -/
  | deckleFire (stream entry : Nat)
  /-- DECKLE_RELEASE (R317). -/
  | deckleRelease (stream entry : Nat)
  /-- FELT_PROBE_PASS (R321). -/
  | feltProbePass (stream : Nat)
  /-- IDLE_TREE_REPORT (R322). -/
  | idleTreeReport (stream : Nat)
  /-- DEADLOCK_TRAP (R324). -/
  | deadlockTrap (vd : Fin 8)
  /-- CALENDER_FRAME (R342). -/
  | calenderFrame
  /-- SOFT_REQUEST (R326). -/
  | softRequest (vd : Fin 8) (ctx : Nat)
  /-- GRACE_EXPIRY (R326). -/
  | graceExpiry (node : Nat)
  /-- SAVE_COMPLETE (R374). -/
  | saveComplete (node : Nat)
  /-- KILLT_EXPIRY (R326). -/
  | killtExpiry (node : Nat)
  /-- FAULT_RECORD (R367). -/
  | faultRecord (fr : FaultRec)
  /-- RESUME (R368). -/
  | resume (vd : Fin 8) (core : Nat) (slot : ThreadSlot)
  /-- HOLD (R368). -/
  | hold (vd : Fin 8) (core slot : Nat)
  /-- KILL_NODE (R368). -/
  | killNode (vd : Fin 8) (node : Nat)
  /-- KILL_CONTEXT (R378). -/
  | killContext (vd : Fin 8) (ctx : Nat)
  /-- RESET_VD (R379). -/
  | resetVd (vd : Fin 8)
  /-- MEMBER_RESET_NOTICE (R380). -/
  | memberResetNotice (vd : Fin 8) (dev : Nat)
  /-- MACHINE_CHECK (R381). -/
  | machineCheck (ev : McEvent)
  /-- MC_STATUS_CLEAR (R381). -/
  | mcStatusClear (bank : Nat) (val : Word)
  /-- PATROL_SCRUB (R382). -/
  | patrolScrub (line : Nat) (found : Scrub)
  /-- FORM (R338). -/
  | form (vd : Fin 8)
  /-- FORMATION_COMPLETE (R338). -/
  | formationComplete (vd : Fin 8)
  /-- TEARDOWN (R338). -/
  | teardown (vd : Fin 8)
  /-- TEARDOWN_COMPLETE (R338). -/
  | teardownComplete (vd : Fin 8)
  /-- TLBINV (R348). -/
  | tlbinv (vd : Fin 8) (val : Word)
  /-- TLBINV_DONE (R348). -/
  | tlbinvDone (vd : Fin 8)
  /-- DDSTAT_SAMPLE (R353). -/
  | ddstatSample
  /-- HOST_BAR2_ACCESS (R392). -/
  | hostBar2Access (vd : Fin 8) (ia : Word) (wr : Bool) (data : List Byte)
  /-- FUNCTION_LEVEL_RESET (R392). -/
  | functionLevelReset (fn : Nat)
  /-- TVEDTEN_FRAME (R395). -/
  | tvedtenFrame (port : Nat) (fr : Frame)
  /-- PAUSE_FRAME (R395). -/
  | pauseFrame (port lane : Nat) (on : Bool)
  /-- FWSTAGE_GO (R401). -/
  | fwstageGo (img table : List Byte)
  /-- FIRMWARE_CHECK_COMPLETE (R401). -/
  | firmwareCheckComplete
  /-- BRING_UP (R402). -/
  | bringUp (failed ports : List Nat)
  /-- BRING_UP_COMPLETE (R402). -/
  | bringUpComplete
  /-- THERMAL_THROTTLE (R403). -/
  | thermalThrottle (on : Bool)
  /-- THERMAL_TRIP (R403). -/
  | thermalTrip
  /-- REGISTER_WRITE (R33). -/
  | registerWrite (fn off : Nat) (val : Word)
  /-- REFRESH_WINDOW_END (R68). -/
  | refreshWindowEnd (core : Nat)
  /-- SAVING (R326). -/
  | saving (node : Nat)
  /-- ADD (R131). -/
  | add (d a b : Code)
  /-- SUB (R131). -/
  | sub (d a b : Code)
  /-- MUL (R131). -/
  | mul (d a b : Code)
  /-- MULH (R131). -/
  | mulh (d a b : Code)
  /-- MULHU (R131). -/
  | mulhu (d a b : Code)
  /-- DIV (R132). -/
  | div (d a b : Code)
  /-- DIVU (R132). -/
  | divu (d a b : Code)
  /-- REM (R132). -/
  | rem (d a b : Code)
  /-- REMU (R132). -/
  | remu (d a b : Code)
  /-- AND (R131). -/
  | and (d a b : Code)
  /-- OR (R131). -/
  | or (d a b : Code)
  /-- XOR (R131). -/
  | xor (d a b : Code)
  /-- ANDN (R131). -/
  | andn (d a b : Code)
  /-- SHL (R131). -/
  | shl (d a b : Code)
  /-- SHR (R131). -/
  | shr (d a b : Code)
  /-- SAR (R131). -/
  | sar (d a b : Code)
  /-- ROL (R131). -/
  | rol (d a b : Code)
  /-- MIN (R131). -/
  | min (d a b : Code)
  /-- MAX (R131). -/
  | max (d a b : Code)
  /-- MINU (R131). -/
  | minu (d a b : Code)
  /-- MAXU (R131). -/
  | maxu (d a b : Code)
  /-- CLZ (R131). -/
  | clz (d a : Code)
  /-- CTZ (R131). -/
  | ctz (d a : Code)
  /-- CPOP (R131). -/
  | cpop (d a : Code)
  /-- MOV (R131). -/
  | mov (d a : Code)
  /-- SEL (R133). -/
  | sel (d a b : Code)
  /-- LEA_1 (R131). -/
  | lea1 (d a b : Code)
  /-- LEA_2 (R131). -/
  | lea2 (d a b : Code)
  /-- LEA_4 (R131). -/
  | lea4 (d a b : Code)
  /-- LEA_8 (R131). -/
  | lea8 (d a b : Code)
  /-- SETC (R131). -/
  | setc (c : Cond) (d a b : Code)
  /-- ADD_IMM (R134). -/
  | addImm (d a : Code) (imm : BitVec 12)
  /-- ADD_LIT (R134). -/
  | addLit (d a : Code) (lit : Word)
  /-- SUB_IMM (R134). -/
  | subImm (d a : Code) (imm : BitVec 12)
  /-- SUB_LIT (R134). -/
  | subLit (d a : Code) (lit : Word)
  /-- AND_IMM (R134). -/
  | andImm (d a : Code) (imm : BitVec 12)
  /-- AND_LIT (R134). -/
  | andLit (d a : Code) (lit : Word)
  /-- OR_IMM (R134). -/
  | orImm (d a : Code) (imm : BitVec 12)
  /-- OR_LIT (R134). -/
  | orLit (d a : Code) (lit : Word)
  /-- XOR_IMM (R134). -/
  | xorImm (d a : Code) (imm : BitVec 12)
  /-- XOR_LIT (R134). -/
  | xorLit (d a : Code) (lit : Word)
  /-- MOVI (R134). -/
  | movi (d : Code) (imm : BitVec 12)
  /-- MOVI_LIT (R134). -/
  | moviLit (d : Code) (lit : Word)
  /-- SHL_IMM (R136). -/
  | shlImm (d a : Code) (n : BitVec 6)
  /-- SHR_IMM (R136). -/
  | shrImm (d a : Code) (n : BitVec 6)
  /-- SAR_IMM (R136). -/
  | sarImm (d a : Code) (n : BitVec 6)
  /-- ROL_IMM (R136). -/
  | rolImm (d a : Code) (n : BitVec 6)
  /-- SEXT (R136). -/
  | sext (d a : Code) (n : BitVec 7)
  /-- ZEXT (R136). -/
  | zext (d a : Code) (n : BitVec 7)
  /-- BFX (R137). -/
  | bfx (d a : Code) (pos lenm1 : BitVec 6)
  /-- BFI (R137). -/
  | bfi (d a : Code) (pos lenm1 : BitVec 6)
  /-- BC (R138). -/
  | bc (c : Cond) (a b : Code) (disp : BitVec 8)
  /-- LOOP (R138). -/
  | loop (a : Code) (disp : BitVec 8)
  /-- B (R138). -/
  | b (c : Cond) (a b : Code) (disp : Word32)
  /-- J (R139). -/
  | j (disp : BitVec 24)
  /-- CALL (R139). -/
  | call (disp : BitVec 24)
  /-- RET (R142). -/
  | ret (a : Code)
  /-- JMPT (R142). -/
  | jmpt (a b : Code)
  /-- YIELD (R144). -/
  | yield
  /-- TRAP (R155). -/
  | trap (n : BitVec 12)
  /-- SPAWN (R145). -/
  | spawn (d a b : Code)
  /-- EXIT (R147). -/
  | exit
  /-- GANG (R150). -/
  | gang (a : Code)
  /-- UNGANG (R152). -/
  | ungang
  /-- RDSR (R153). -/
  | rdsr (d : Code) (num : BitVec 12)
  /-- WRSR (R153). -/
  | wrsr (a : Code) (num : BitVec 12)
  /-- LD (R159). -/
  | ld (w : LoadWidth) (d a b : Code)
  /-- LD_X (R159). -/
  | ldX (w : LoadWidth) (d a b : Code) (off : BitVec 12)
  /-- LD_IMM (R159). -/
  | ldImm (d a : Code) (imm : BitVec 12)
  /-- ST (R159). -/
  | st (w : StoreWidth) (d a b : Code)
  /-- ST_X (R159). -/
  | stX (w : StoreWidth) (d a b : Code) (off : BitVec 12)
  /-- ST_IMM (R159). -/
  | stImm (d a : Code) (imm : BitVec 12)
  /-- LDQ (R162). -/
  | ldq (w : LoadWidth) (d a b : Code)
  /-- LDQ_X (R162). -/
  | ldqX (w : LoadWidth) (d a b : Code) (off : BitVec 12)
  /-- STQ (R162). -/
  | stq (w : StoreWidth) (d a b : Code)
  /-- STQ_X (R162). -/
  | stqX (w : StoreWidth) (d a b : Code) (off : BitVec 12)
  /-- VLD (R163). -/
  | vld (d a b : Code)
  /-- VLD_X (R163). -/
  | vldX (d a b : Code) (off : BitVec 12) (me : Bool) (msk : BitVec 3)
  /-- VST (R163). -/
  | vst (d a b : Code)
  /-- VST_X (R163). -/
  | vstX (d a b : Code) (off : BitVec 12) (me : Bool) (msk : BitVec 3)
  /-- LDW (R164). -/
  | ldw (d a b : Code)
  /-- LDW_X (R164). -/
  | ldwX (d a b : Code) (off : BitVec 12)
  /-- LDG (R267). -/
  | ldg (w : LoadWidth) (d a b : Code)
  /-- LDG_X (R267). -/
  | ldgX (w : LoadWidth) (d a b : Code) (off : BitVec 12) (ox : OX)
  /-- LDG_IMM (R267). -/
  | ldgImm (d a : Code) (imm : BitVec 12)
  /-- STG (R267). -/
  | stg (w : StoreWidth) (d a b : Code)
  /-- STG_X (R267). -/
  | stgX (w : StoreWidth) (d a b : Code) (off : BitVec 12) (ox : OX)
  /-- STG_IMM (R267). -/
  | stgImm (d a : Code) (imm : BitVec 12)
  /-- VLDG (R267). -/
  | vldg (d a b : Code)
  /-- VLDG_X (R267). -/
  | vldgX (d a b : Code) (off : BitVec 12) (ox : OX) (me : Bool) (msk : BitVec 3)
  /-- VSTG (R267). -/
  | vstg (d a b : Code)
  /-- VSTG_X (R267). -/
  | vstgX (d a b : Code) (off : BitVec 12) (ox : OX) (me : Bool) (msk : BitVec 3)
  /-- PREF (R269). -/
  | pref (a b : Code)
  /-- PREF_X (R269). -/
  | prefX (a b : Code) (off : BitVec 12)
  /-- FLSH (R269). -/
  | flsh (a b : Code)
  /-- FLSH_X (R269). -/
  | flshX (a b : Code) (off : BitVec 12)
  /-- AMADD (R270). -/
  | amadd (d a b : Code)
  /-- AMADD_X (R270). -/
  | amaddX (d a b : Code) (off : BitVec 12) (ox : OX)
  /-- AMSWP (R270). -/
  | amswp (d a b : Code)
  /-- AMSWP_X (R270). -/
  | amswpX (d a b : Code) (off : BitVec 12) (ox : OX)
  /-- AMCAS (R270). -/
  | amcas (d a b : Code)
  /-- AMCAS_X (R270). -/
  | amcasX (d a b : Code) (off : BitVec 12) (ox : OX)
  /-- AMMIN (R270). -/
  | ammin (d a b : Code)
  /-- AMMIN_X (R270). -/
  | amminX (d a b : Code) (off : BitVec 12) (ox : OX)
  /-- AMMAX (R270). -/
  | ammax (d a b : Code)
  /-- AMMAX_X (R270). -/
  | ammaxX (d a b : Code) (off : BitVec 12) (ox : OX)
  /-- AMMINU (R270). -/
  | amminu (d a b : Code)
  /-- AMMINU_X (R270). -/
  | amminuX (d a b : Code) (off : BitVec 12) (ox : OX)
  /-- AMMAXU (R270). -/
  | ammaxu (d a b : Code)
  /-- AMMAXU_X (R270). -/
  | ammaxuX (d a b : Code) (off : BitVec 12) (ox : OX)
  /-- AMAND (R270). -/
  | amand (d a b : Code)
  /-- AMAND_X (R270). -/
  | amandX (d a b : Code) (off : BitVec 12) (ox : OX)
  /-- AMOR (R270). -/
  | amor (d a b : Code)
  /-- AMOR_X (R270). -/
  | amorX (d a b : Code) (off : BitVec 12) (ox : OX)
  /-- AMXOR (R270). -/
  | amxor (d a b : Code)
  /-- AMXOR_X (R270). -/
  | amxorX (d a b : Code) (off : BitVec 12) (ox : OX)
  /-- AMADD_32 (R270). -/
  | amadd32 (d a b : Code)
  /-- AMADD_32_X (R270). -/
  | amadd32X (d a b : Code) (off : BitVec 12) (ox : OX)
  /-- AMSWP_32 (R270). -/
  | amswp32 (d a b : Code)
  /-- AMSWP_32_X (R270). -/
  | amswp32X (d a b : Code) (off : BitVec 12) (ox : OX)
  /-- AMCAS_32 (R270). -/
  | amcas32 (d a b : Code)
  /-- AMCAS_32_X (R270). -/
  | amcas32X (d a b : Code) (off : BitVec 12) (ox : OX)
  /-- AMMIN_32 (R270). -/
  | ammin32 (d a b : Code)
  /-- AMMIN_32_X (R270). -/
  | ammin32X (d a b : Code) (off : BitVec 12) (ox : OX)
  /-- AMMAX_32 (R270). -/
  | ammax32 (d a b : Code)
  /-- AMMAX_32_X (R270). -/
  | ammax32X (d a b : Code) (off : BitVec 12) (ox : OX)
  /-- AMMINU_32 (R270). -/
  | amminu32 (d a b : Code)
  /-- AMMINU_32_X (R270). -/
  | amminu32X (d a b : Code) (off : BitVec 12) (ox : OX)
  /-- AMMAXU_32 (R270). -/
  | ammaxu32 (d a b : Code)
  /-- AMMAXU_32_X (R270). -/
  | ammaxu32X (d a b : Code) (off : BitVec 12) (ox : OX)
  /-- AMAND_32 (R270). -/
  | amand32 (d a b : Code)
  /-- AMAND_32_X (R270). -/
  | amand32X (d a b : Code) (off : BitVec 12) (ox : OX)
  /-- AMOR_32 (R270). -/
  | amor32 (d a b : Code)
  /-- AMOR_32_X (R270). -/
  | amor32X (d a b : Code) (off : BitVec 12) (ox : OX)
  /-- AMXOR_32 (R270). -/
  | amxor32 (d a b : Code)
  /-- AMXOR_32_X (R270). -/
  | amxor32X (d a b : Code) (off : BitVec 12) (ox : OX)
  /-- FENCE (R271). -/
  | fence (scope : Scope) (set : BitVec 6)
  /-- PARK (R272). -/
  | park (a b : Code)
  /-- WAIT (R274). -/
  | wait
  /-- CPY (R277). -/
  | cpy (a b : Code)
  /-- EXCH (R280). -/
  | exch (a : Code)
  /-- WAITC (R165). -/
  | waitc (ld st : BitVec 5) (cp : BitVec 7) (pr : BitVec 4) (cr : BitVec 3)
  /-- ARED (R282). -/
  | ared (d a : Code) (fmto : BitVec 5) (mode : CollMode) (gid : BitVec 8)
  /-- RSCT (R282). -/
  | rsct (d a : Code) (fmto : BitVec 5) (mode : CollMode) (gid : BitVec 8)
  /-- AGTH (R284). -/
  | agth (d a : Code) (fmto : BitVec 5) (gid : BitVec 8)
  /-- ATOA (R284). -/
  | atoa (d a : Code) (fmto : BitVec 5) (gid : BitVec 8)
  /-- BCST (R284). -/
  | bcst (d a : Code) (fmto : BitVec 5) (gid : BitVec 8) (root : BitVec 12)
  /-- ORED (R285). -/
  | ored (d a : Code) (gid : BitVec 8) (root : BitVec 12)
  /-- PUTS (R289). -/
  | puts (d a b c : Code)
  /-- GET (R289). -/
  | get (a b c : Code)
  /-- RADD (R289). -/
  | radd (a b c : Code)
  /-- APND (R289). -/
  | apnd (d a b c : Code)
  /-- FADD (R173). -/
  | fadd (d a b : Code)
  /-- FADD_X (R173). -/
  | faddX (d a b : Code) (fmto : BitVec 5)
  /-- FSUB (R173). -/
  | fsub (d a b : Code)
  /-- FSUB_X (R173). -/
  | fsubX (d a b : Code) (fmto : BitVec 5)
  /-- FMUL (R173). -/
  | fmul (d a b : Code)
  /-- FMUL_X (R173). -/
  | fmulX (d a b : Code) (fmto : BitVec 5)
  /-- FFMA (R173). -/
  | ffma (d a b c : Code) (fmto : BitVec 5)
  /-- FDIV (R173). -/
  | fdiv (d a b : Code)
  /-- FDIV_X (R173). -/
  | fdivX (d a b : Code) (fmto : BitVec 5)
  /-- FSQRT (R173). -/
  | fsqrt (d a : Code)
  /-- FSQRT_X (R173). -/
  | fsqrtX (d a : Code) (fmto : BitVec 5)
  /-- FMIN (R174). -/
  | fmin (d a b : Code)
  /-- FMIN_X (R174). -/
  | fminX (d a b : Code) (fmto : BitVec 5)
  /-- FMAX (R174). -/
  | fmax (d a b : Code)
  /-- FMAX_X (R174). -/
  | fmaxX (d a b : Code) (fmto : BitVec 5)
  /-- FCMP (R175). -/
  | fcmp (p : FPred) (d a b : Code)
  /-- FCMP_X (R175). -/
  | fcmpX (p : FPred) (d a b : Code) (fmto : BitVec 5)
  /-- FCVT (R176). -/
  | fcvt (d a : Code) (fmto fmtd : BitVec 5)
  /-- FCLS (R177). -/
  | fcls (d a : Code)
  /-- FCLS_X (R177). -/
  | fclsX (d a : Code) (fmto : BitVec 5)
  /-- VADD (R178). -/
  | vadd (d a b : Code)
  /-- VADD_X (R178). -/
  | vaddX (d a b : Code) (vx : VX)
  /-- VADD_LIT (R178). -/
  | vaddLit (d a : Code) (lit : Word) (vx : VX)
  /-- VSUB (R178). -/
  | vsub (d a b : Code)
  /-- VSUB_X (R178). -/
  | vsubX (d a b : Code) (vx : VX)
  /-- VSUB_LIT (R178). -/
  | vsubLit (d a : Code) (lit : Word) (vx : VX)
  /-- VMUL (R178). -/
  | vmul (d a b : Code)
  /-- VMUL_X (R178). -/
  | vmulX (d a b : Code) (vx : VX)
  /-- VMUL_LIT (R178). -/
  | vmulLit (d a : Code) (lit : Word) (vx : VX)
  /-- VFMA (R178). -/
  | vfma (d a b c : Code) (vx : VX)
  /-- VFMA_LIT (R178). -/
  | vfmaLit (d a : Code) (lit : Word) (c : Code) (vx : VX)
  /-- VMIN (R178). -/
  | vmin (d a b : Code)
  /-- VMIN_X (R178). -/
  | vminX (d a b : Code) (vx : VX)
  /-- VMIN_LIT (R178). -/
  | vminLit (d a : Code) (lit : Word) (vx : VX)
  /-- VMAX (R178). -/
  | vmax (d a b : Code)
  /-- VMAX_X (R178). -/
  | vmaxX (d a b : Code) (vx : VX)
  /-- VMAX_LIT (R178). -/
  | vmaxLit (d a : Code) (lit : Word) (vx : VX)
  /-- VABS (R178). -/
  | vabs (d a : Code)
  /-- VABS_X (R178). -/
  | vabsX (d a : Code) (vx : VX)
  /-- VNEG (R178). -/
  | vneg (d a : Code)
  /-- VNEG_X (R178). -/
  | vnegX (d a : Code) (vx : VX)
  /-- VAND (R179). -/
  | vand (d a b : Code)
  /-- VAND_X (R179). -/
  | vandX (d a b : Code) (vx : VX)
  /-- VAND_LIT (R179). -/
  | vandLit (d a : Code) (lit : Word) (vx : VX)
  /-- VOR (R179). -/
  | vor (d a b : Code)
  /-- VOR_X (R179). -/
  | vorX (d a b : Code) (vx : VX)
  /-- VOR_LIT (R179). -/
  | vorLit (d a : Code) (lit : Word) (vx : VX)
  /-- VXOR (R179). -/
  | vxor (d a b : Code)
  /-- VXOR_X (R179). -/
  | vxorX (d a b : Code) (vx : VX)
  /-- VXOR_LIT (R179). -/
  | vxorLit (d a : Code) (lit : Word) (vx : VX)
  /-- VSHL (R178). -/
  | vshl (d a b : Code)
  /-- VSHL_X (R178). -/
  | vshlX (d a b : Code) (vx : VX)
  /-- VSHL_LIT (R178). -/
  | vshlLit (d a : Code) (lit : Word) (vx : VX)
  /-- VSHR (R178). -/
  | vshr (d a b : Code)
  /-- VSHR_X (R178). -/
  | vshrX (d a b : Code) (vx : VX)
  /-- VSHR_LIT (R178). -/
  | vshrLit (d a : Code) (lit : Word) (vx : VX)
  /-- VSAR (R178). -/
  | vsar (d a b : Code)
  /-- VSAR_X (R178). -/
  | vsarX (d a b : Code) (vx : VX)
  /-- VSAR_LIT (R178). -/
  | vsarLit (d a : Code) (lit : Word) (vx : VX)
  /-- VSCL (R180). -/
  | vscl (d a b : Code)
  /-- VSCL_X (R180). -/
  | vsclX (d a b : Code) (vx : VX)
  /-- VSCL_LIT (R180). -/
  | vsclLit (d a : Code) (lit : Word) (vx : VX)
  /-- VRCP (R181). -/
  | vrcp (d a : Code)
  /-- VRCP_X (R181). -/
  | vrcpX (d a : Code) (vx : VX)
  /-- VRSQ (R181). -/
  | vrsq (d a : Code)
  /-- VRSQ_X (R181). -/
  | vrsqX (d a : Code) (vx : VX)
  /-- VEX2 (R181). -/
  | vex2 (d a : Code)
  /-- VEX2_X (R181). -/
  | vex2X (d a : Code) (vx : VX)
  /-- VLG2 (R181). -/
  | vlg2 (d a : Code)
  /-- VLG2_X (R181). -/
  | vlg2X (d a : Code) (vx : VX)
  /-- VCVT (R182). -/
  | vcvt (d a : Code) (vx : VX) (fmtd : BitVec 5)
  /-- VCMP (R183). -/
  | vcmp (p : VPred) (d a b : Code)
  /-- VCMP_X (R183). -/
  | vcmpX (p : VPred) (d a b : Code) (vx : VX)
  /-- VCMP_LIT (R183). -/
  | vcmpLit (p : VPred) (d a : Code) (lit : Word) (vx : VX)
  /-- VSEL (R184). -/
  | vsel (d a b : Code) (vx : VX)
  /-- VSEL_LIT (R184). -/
  | vselLit (d a : Code) (lit : Word) (vx : VX)
  /-- MAND (R185). -/
  | mand (d a b : Code)
  /-- MOR (R185). -/
  | mor (d a b : Code)
  /-- MNOT (R185). -/
  | mnot (d a : Code)
  /-- VRED (R186). -/
  | vred (d a : Code)
  /-- VRED_X (R186). -/
  | vredX (d a : Code) (vx : VX)
  /-- VRED_SAT (R187). -/
  | vredSat (d a : Code)
  /-- VRED_SAT_X (R187). -/
  | vredSatX (d a : Code) (vx : VX)
  /-- VRMX (R188). -/
  | vrmx (d a : Code)
  /-- VRMX_X (R188). -/
  | vrmxX (d a : Code) (vx : VX)
  /-- VRMN (R188). -/
  | vrmn (d a : Code)
  /-- VRMN_X (R188). -/
  | vrmnX (d a : Code) (vx : VX)
  /-- VPRM (R189). -/
  | vprm (d a b : Code)
  /-- VPRM_X (R189). -/
  | vprmX (d a b : Code) (vx : VX)
  /-- VPRM_LIT (R189). -/
  | vprmLit (d a : Code) (lit : Word) (vx : VX)
  /-- VBRD (R189). -/
  | vbrd (d a : Code)
  /-- VBRD_X (R189). -/
  | vbrdX (d a : Code) (vx : VX)
  /-- VIOT (R189). -/
  | viot (d : Code)
  /-- VIOT_X (R189). -/
  | viotX (d : Code) (vx : VX)
  /-- VPCK (R190). -/
  | vpck (d a b : Code) (vx : VX) (fmtd : BitVec 5)
  /-- VUPK (R190). -/
  | vupk (d a b : Code) (vx : VX) (fmtd : BitVec 5)
  /-- VMV (R189). -/
  | vmv (d a : Code)
  /-- VMV_X (R189). -/
  | vmvX (d a : Code) (vx : VX)
  /-- VINS (R189). -/
  | vins (d a b : Code)
  /-- VINS_X (R189). -/
  | vinsX (d a b : Code) (fmto : BitVec 5)
  /-- VEXT (R189). -/
  | vext (d a b : Code)
  /-- VEXT_X (R189). -/
  | vextX (d a b : Code) (fmto : BitVec 5)
  /-- PSHP (R200). -/
  | pshp (d a : Code)
  /-- PMM (R203). -/
  | pmm (acc sa sb : BitVec 3) (na nb ad xi : Bool) (fmto : BitVec 5)
  /-- PMMG (R202). -/
  | pmmg (acc sa sb : BitVec 3) (idx : BitVec 4) (na nb ad xi : Bool) (fmto : BitVec 5)
  /-- PLDA (R206). -/
  | plda (acc sa : BitVec 3) (fmto : BitVec 5)
  /-- PSTA (R207). -/
  | psta (acc sa : BitVec 3) (ad : Bool) (fmto : BitVec 5)
  /-- PZ (R208). -/
  | pz (d : Code)
  /-- PCVT (R208). -/
  | pcvt (acc : BitVec 3) (fmto : BitVec 5)
  /-- WMCF (R225). -/
  | wmcf (d a b : Code)
  /-- WMZ (R226). -/
  | wmz
  /-- WMST (R227). -/
  | wmst (a b : Code)
  /-- WMSN (R228). -/
  | wmsn (a : Code)
  /-- WMJN (R229). -/
  | wmjn (a b : Code)
  /-- WMLG (R230). -/
  | wmlg (a b : Code)
  /-- WMRD (R231). -/
  | wmrd (d a : Code)
  /-- ERET (R156). -/
  | eret
  /-- HALT (R156). -/
  | halt
  /-- NOP (R103). -/
  | nop (v : BitVec 16)
  /-- LPAD (R140). -/
  | lpad (v : BitVec 16)
  /-- HINT (R157). -/
  | hint (body : BitVec 24) (len : BitVec 2) (x1 x2 x3 x4 : Word32)
  deriving DecidableEq, Repr

end Sys2Proof
end

