-- ==== Sys2Proof/WellFormed.lean ====
section
/-!
DEFINITION. Which field values of an instruction the encoding assigns (03 R74 to R103). Register-field codes are
not checked here: an illegal code is a trap of the instruction that holds it (03 R70).
-/
namespace Sys2Proof

/-- ME 0 leaves MSK unused (03 R83). -/
def VX.maskOk (v : VX) : Bool := v.me || v.msk == 0

/-- ORD of a load: plain or acquire; a plain access carries no scope (03 R82). -/
def OX.okLoad (o : OX) : Bool :=
  match o.ord with
  | .plain => o.scope == .thread
  | .acquire => true
  | _ => false

/-- ORD of a store: plain or release (03 R82). -/
def OX.okStore (o : OX) : Bool :=
  match o.ord with
  | .plain => o.scope == .thread
  | .release => true
  | _ => false

/-- ORD of an atomic: any (03 R82). -/
def OX.okAtomic (o : OX) : Bool :=
  match o.ord with
  | .plain => o.scope == .thread
  | _ => true

/-- No qualifier (03 R82). -/
def OX.isPlain (o : OX) : Bool := o.ord == .plain && o.scope == .thread

/-- Format codes 1 to 16 (06 R178). -/
def anyFmtOk (f : Nat) : Bool := 1 ≤ f && f ≤ 16

/-- The integer formats, codes 1 to 10 (06 R168). -/
def intFmtOk (f : Nat) : Bool := 1 ≤ f && f ≤ 10

/-- The float formats, codes 11 to 16 (06 R168). -/
def floatFmtOk (f : Nat) : Bool := 11 ≤ f && f ≤ 16

/-- FP32, FP16 and BF16 (06 R173, R181). -/
def arithFmtOk (f : Nat) : Bool := 11 ≤ f && f ≤ 13

/-- Every 8-bit or wider format among codes 1 to 16 (06 R183, R189, 11 R281). -/
def wideFmtOk (f : Nat) : Bool := (2 ≤ f && f ≤ 5) || (7 ≤ f && f ≤ 15)

/-- FMTO and FMTD of FCVT; KS24 only from FP32 (06 R176). -/
def fcvtOk (f t : Nat) : Bool := f ≤ 16 && 1 ≤ t && t ≤ 17 && (t != 17 || f == 0 || f == 11)

/-- Element width of a format code 1 to 16. -/
def fmtBits (f : Nat) : Nat :=
  if f = 1 ∨ f = 6 ∨ f = 16 then 4 else if f = 2 ∨ f = 7 ∨ f = 14 ∨ f = 15 then 8
  else if f = 3 ∨ f = 8 ∨ f = 12 ∨ f = 13 then 16 else if f = 4 ∨ f = 9 ∨ f = 11 then 32 else 64

/-- FMTO (0: FMT) and FMTD of VPCK (06 R190). -/
def packOk (f t : Nat) : Bool := anyFmtOk t && (f == 0 || fmtBits f == 2 * fmtBits t)

/-- FMTO (0: FMT) and FMTD of VUPK (06 R190). -/
def unpackOk (f t : Nat) : Bool := anyFmtOk t && (f == 0 || fmtBits t == 2 * fmtBits f)

/-- The formats of a combining mode (11 R282). -/
def combFmtOk (m : CollMode) (f : Nat) : Bool :=
  let wideInt := f == 4 || f == 5 || f == 9 || f == 10
  match m with
  | .wrap => wideInt || f == 11 || f == 13
  | .sat => wideInt
  | .comp => f == 11
  | .max => wideInt || f == 11 || f == 13
  | .min => wideInt || f == 11 || f == 13
  | .maxi => f == 11 || f == 4 || f == 9
  | .mini => f == 11 || f == 4 || f == 9

/-- FMTO of PMM and PMMG (07 R199). -/
def pmmFmtOk (f : Nat) : Bool := f == 1 || f == 2 || f == 6 || f == 7 || floatFmtOk f

/-- FMTO of PLDA and PSTA (07 R199). -/
def tileFmtOk (f : Nat) : Bool := anyFmtOk f || f == 18

/-- A hint word that is neither NOP nor LPAD, with no words beyond its length (03 R103). -/
def hintOk (body : BitVec 24) (len : BitVec 2) (x1 x2 x3 x4 : Word32) : Bool :=
  if len = 0 then decide (2 ≤ (body.extractLsb' 0 8).toNat) && x1 == 0 && x2 == 0 && x3 == 0 && x4 == 0
  else if len = 3 then true
  else x3 == 0 && x4 == 0

/-- The fields hold values that the encoding assigns (03 R74 to R103); a step of the device has no encoding. -/
def Instr.wf : Instr → Bool
  | .add _ _ _ => true
  | .sub _ _ _ => true
  | .mul _ _ _ => true
  | .mulh _ _ _ => true
  | .mulhu _ _ _ => true
  | .div _ _ _ => true
  | .divu _ _ _ => true
  | .rem _ _ _ => true
  | .remu _ _ _ => true
  | .and _ _ _ => true
  | .or _ _ _ => true
  | .xor _ _ _ => true
  | .andn _ _ _ => true
  | .shl _ _ _ => true
  | .shr _ _ _ => true
  | .sar _ _ _ => true
  | .rol _ _ _ => true
  | .min _ _ _ => true
  | .max _ _ _ => true
  | .minu _ _ _ => true
  | .maxu _ _ _ => true
  | .clz _ _ => true
  | .ctz _ _ => true
  | .cpop _ _ => true
  | .mov _ _ => true
  | .sel _ _ _ => true
  | .lea1 _ _ _ => true
  | .lea2 _ _ _ => true
  | .lea4 _ _ _ => true
  | .lea8 _ _ _ => true
  | .setc _ _ _ _ => true
  | .addImm _ _ _ => true
  | .addLit _ _ _ => true
  | .subImm _ _ _ => true
  | .subLit _ _ _ => true
  | .andImm _ _ _ => true
  | .andLit _ _ _ => true
  | .orImm _ _ _ => true
  | .orLit _ _ _ => true
  | .xorImm _ _ _ => true
  | .xorLit _ _ _ => true
  | .movi _ _ => true
  | .moviLit _ _ => true
  | .shlImm _ _ _ => true
  | .shrImm _ _ _ => true
  | .sarImm _ _ _ => true
  | .rolImm _ _ _ => true
  | .sext _ _ n => decide (1 ≤ n.toNat ∧ n.toNat ≤ 64)
  | .zext _ _ n => decide (1 ≤ n.toNat ∧ n.toNat ≤ 64)
  | .bfx _ _ pos lenm1 => decide (pos.toNat + lenm1.toNat + 1 ≤ 64)
  | .bfi _ _ pos lenm1 => decide (pos.toNat + lenm1.toNat + 1 ≤ 64)
  | .bc _ _ _ _ => true
  | .loop _ _ => true
  | .b _ _ _ _ => true
  | .j _ => true
  | .call _ => true
  | .ret _ => true
  | .jmpt _ _ => true
  | .yield => true
  | .trap _ => true
  | .spawn _ _ _ => true
  | .exit => true
  | .gang _ => true
  | .ungang => true
  | .rdsr _ _ => true
  | .wrsr _ _ => true
  | .ld _ _ _ _ => true
  | .ldX _ _ _ _ _ => true
  | .ldImm _ _ _ => true
  | .st _ _ _ _ => true
  | .stX _ _ _ _ _ => true
  | .stImm _ _ _ => true
  | .ldq _ _ _ _ => true
  | .ldqX _ _ _ _ _ => true
  | .stq _ _ _ _ => true
  | .stqX _ _ _ _ _ => true
  | .vld _ _ _ => true
  | .vldX _ _ _ _ me msk => (me || msk == 0)
  | .vst _ _ _ => true
  | .vstX _ _ _ _ me msk => (me || msk == 0)
  | .ldw _ _ _ => true
  | .ldwX _ _ _ _ => true
  | .ldg _ _ _ _ => true
  | .ldgX _ _ _ _ _ ox => ox.okLoad
  | .ldgImm _ _ _ => true
  | .stg _ _ _ _ => true
  | .stgX _ _ _ _ _ ox => ox.okStore
  | .stgImm _ _ _ => true
  | .vldg _ _ _ => true
  | .vldgX _ _ _ _ ox me msk => ox.okLoad && (me || msk == 0)
  | .vstg _ _ _ => true
  | .vstgX _ _ _ _ ox me msk => ox.okStore && (me || msk == 0)
  | .pref _ _ => true
  | .prefX _ _ _ => true
  | .flsh _ _ => true
  | .flshX _ _ _ => true
  | .amadd _ _ _ => true
  | .amaddX _ _ _ _ ox => ox.okAtomic
  | .amswp _ _ _ => true
  | .amswpX _ _ _ _ ox => ox.okAtomic
  | .amcas _ _ _ => true
  | .amcasX _ _ _ _ ox => ox.okAtomic
  | .ammin _ _ _ => true
  | .amminX _ _ _ _ ox => ox.okAtomic
  | .ammax _ _ _ => true
  | .ammaxX _ _ _ _ ox => ox.okAtomic
  | .amminu _ _ _ => true
  | .amminuX _ _ _ _ ox => ox.okAtomic
  | .ammaxu _ _ _ => true
  | .ammaxuX _ _ _ _ ox => ox.okAtomic
  | .amand _ _ _ => true
  | .amandX _ _ _ _ ox => ox.okAtomic
  | .amor _ _ _ => true
  | .amorX _ _ _ _ ox => ox.okAtomic
  | .amxor _ _ _ => true
  | .amxorX _ _ _ _ ox => ox.okAtomic
  | .amadd32 _ _ _ => true
  | .amadd32X _ _ _ _ ox => ox.okAtomic
  | .amswp32 _ _ _ => true
  | .amswp32X _ _ _ _ ox => ox.okAtomic
  | .amcas32 _ _ _ => true
  | .amcas32X _ _ _ _ ox => ox.okAtomic
  | .ammin32 _ _ _ => true
  | .ammin32X _ _ _ _ ox => ox.okAtomic
  | .ammax32 _ _ _ => true
  | .ammax32X _ _ _ _ ox => ox.okAtomic
  | .amminu32 _ _ _ => true
  | .amminu32X _ _ _ _ ox => ox.okAtomic
  | .ammaxu32 _ _ _ => true
  | .ammaxu32X _ _ _ _ ox => ox.okAtomic
  | .amand32 _ _ _ => true
  | .amand32X _ _ _ _ ox => ox.okAtomic
  | .amor32 _ _ _ => true
  | .amor32X _ _ _ _ ox => ox.okAtomic
  | .amxor32 _ _ _ => true
  | .amxor32X _ _ _ _ ox => ox.okAtomic
  | .fence _ _ => true
  | .park _ _ => true
  | .wait => true
  | .cpy _ _ => true
  | .exch _ => true
  | .waitc _ _ cp _ _ => decide (cp.toNat ≤ 120 ∨ cp.toNat = 127)
  | .ared _ _ fmto mode _ => (fmto == 0 || combFmtOk mode fmto.toNat)
  | .rsct _ _ fmto mode _ => (fmto == 0 || combFmtOk mode fmto.toNat)
  | .agth _ _ fmto _ => (fmto == 0 || wideFmtOk fmto.toNat)
  | .atoa _ _ fmto _ => (fmto == 0 || wideFmtOk fmto.toNat)
  | .bcst _ _ fmto _ _ => (fmto == 0 || wideFmtOk fmto.toNat)
  | .ored _ _ _ _ => true
  | .puts _ _ _ _ => true
  | .get _ _ _ => true
  | .radd _ _ _ => true
  | .apnd _ _ _ _ => true
  | .fadd _ _ _ => true
  | .faddX _ _ _ fmto => (fmto == 0 || arithFmtOk fmto.toNat)
  | .fsub _ _ _ => true
  | .fsubX _ _ _ fmto => (fmto == 0 || arithFmtOk fmto.toNat)
  | .fmul _ _ _ => true
  | .fmulX _ _ _ fmto => (fmto == 0 || arithFmtOk fmto.toNat)
  | .ffma _ _ _ _ fmto => (fmto == 0 || arithFmtOk fmto.toNat)
  | .fdiv _ _ _ => true
  | .fdivX _ _ _ fmto => (fmto == 0 || arithFmtOk fmto.toNat)
  | .fsqrt _ _ => true
  | .fsqrtX _ _ fmto => (fmto == 0 || arithFmtOk fmto.toNat)
  | .fmin _ _ _ => true
  | .fminX _ _ _ fmto => (fmto == 0 || floatFmtOk fmto.toNat)
  | .fmax _ _ _ => true
  | .fmaxX _ _ _ fmto => (fmto == 0 || floatFmtOk fmto.toNat)
  | .fcmp _ _ _ _ => true
  | .fcmpX _ _ _ _ fmto => (fmto == 0 || floatFmtOk fmto.toNat)
  | .fcvt _ _ fmto fmtd => fcvtOk fmto.toNat fmtd.toNat
  | .fcls _ _ => true
  | .fclsX _ _ fmto => (fmto == 0 || floatFmtOk fmto.toNat)
  | .vadd _ _ _ => true
  | .vaddX _ _ _ vx => vx.maskOk && (vx.fmto == 0 || anyFmtOk vx.fmto.toNat)
  | .vaddLit _ _ _ vx => vx.maskOk && (vx.fmto == 0 || anyFmtOk vx.fmto.toNat)
  | .vsub _ _ _ => true
  | .vsubX _ _ _ vx => vx.maskOk && (vx.fmto == 0 || anyFmtOk vx.fmto.toNat)
  | .vsubLit _ _ _ vx => vx.maskOk && (vx.fmto == 0 || anyFmtOk vx.fmto.toNat)
  | .vmul _ _ _ => true
  | .vmulX _ _ _ vx => vx.maskOk && (vx.fmto == 0 || anyFmtOk vx.fmto.toNat)
  | .vmulLit _ _ _ vx => vx.maskOk && (vx.fmto == 0 || anyFmtOk vx.fmto.toNat)
  | .vfma _ _ _ _ vx => vx.maskOk && (vx.fmto == 0 || anyFmtOk vx.fmto.toNat)
  | .vfmaLit _ _ _ _ vx => vx.maskOk && (vx.fmto == 0 || anyFmtOk vx.fmto.toNat)
  | .vmin _ _ _ => true
  | .vminX _ _ _ vx => vx.maskOk && (vx.fmto == 0 || anyFmtOk vx.fmto.toNat)
  | .vminLit _ _ _ vx => vx.maskOk && (vx.fmto == 0 || anyFmtOk vx.fmto.toNat)
  | .vmax _ _ _ => true
  | .vmaxX _ _ _ vx => vx.maskOk && (vx.fmto == 0 || anyFmtOk vx.fmto.toNat)
  | .vmaxLit _ _ _ vx => vx.maskOk && (vx.fmto == 0 || anyFmtOk vx.fmto.toNat)
  | .vabs _ _ => true
  | .vabsX _ _ vx => vx.maskOk && (vx.fmto == 0 || anyFmtOk vx.fmto.toNat)
  | .vneg _ _ => true
  | .vnegX _ _ vx => vx.maskOk && (vx.fmto == 0 || anyFmtOk vx.fmto.toNat)
  | .vand _ _ _ => true
  | .vandX _ _ _ vx => vx.maskOk && (vx.fmto == 0)
  | .vandLit _ _ _ vx => vx.maskOk && (vx.fmto == 0)
  | .vor _ _ _ => true
  | .vorX _ _ _ vx => vx.maskOk && (vx.fmto == 0)
  | .vorLit _ _ _ vx => vx.maskOk && (vx.fmto == 0)
  | .vxor _ _ _ => true
  | .vxorX _ _ _ vx => vx.maskOk && (vx.fmto == 0)
  | .vxorLit _ _ _ vx => vx.maskOk && (vx.fmto == 0)
  | .vshl _ _ _ => true
  | .vshlX _ _ _ vx => vx.maskOk && (vx.fmto == 0 || intFmtOk vx.fmto.toNat)
  | .vshlLit _ _ _ vx => vx.maskOk && (vx.fmto == 0 || intFmtOk vx.fmto.toNat)
  | .vshr _ _ _ => true
  | .vshrX _ _ _ vx => vx.maskOk && (vx.fmto == 0 || intFmtOk vx.fmto.toNat)
  | .vshrLit _ _ _ vx => vx.maskOk && (vx.fmto == 0 || intFmtOk vx.fmto.toNat)
  | .vsar _ _ _ => true
  | .vsarX _ _ _ vx => vx.maskOk && (vx.fmto == 0 || intFmtOk vx.fmto.toNat)
  | .vsarLit _ _ _ vx => vx.maskOk && (vx.fmto == 0 || intFmtOk vx.fmto.toNat)
  | .vscl _ _ _ => true
  | .vsclX _ _ _ vx => vx.maskOk && (vx.fmto == 0 || anyFmtOk vx.fmto.toNat)
  | .vsclLit _ _ _ vx => vx.maskOk && (vx.fmto == 0 || anyFmtOk vx.fmto.toNat)
  | .vrcp _ _ => true
  | .vrcpX _ _ vx => vx.maskOk && (vx.fmto == 0 || arithFmtOk vx.fmto.toNat)
  | .vrsq _ _ => true
  | .vrsqX _ _ vx => vx.maskOk && (vx.fmto == 0 || arithFmtOk vx.fmto.toNat)
  | .vex2 _ _ => true
  | .vex2X _ _ vx => vx.maskOk && (vx.fmto == 0 || arithFmtOk vx.fmto.toNat)
  | .vlg2 _ _ => true
  | .vlg2X _ _ vx => vx.maskOk && (vx.fmto == 0 || arithFmtOk vx.fmto.toNat)
  | .vcvt _ _ vx fmtd => vx.maskOk && (vx.fmto == 0 || anyFmtOk vx.fmto.toNat) && anyFmtOk fmtd.toNat
  | .vcmp _ _ _ _ => true
  | .vcmpX _ _ _ _ vx => vx.maskOk && (vx.fmto == 0 || wideFmtOk vx.fmto.toNat)
  | .vcmpLit _ _ _ _ vx => vx.maskOk && (vx.fmto == 0 || wideFmtOk vx.fmto.toNat)
  | .vsel _ _ _ vx => vx.me && (vx.fmto == 0 || anyFmtOk vx.fmto.toNat)
  | .vselLit _ _ _ vx => vx.me && (vx.fmto == 0 || anyFmtOk vx.fmto.toNat)
  | .mand _ _ _ => true
  | .mor _ _ _ => true
  | .mnot _ _ => true
  | .vred _ _ => true
  | .vredX _ _ vx => vx.maskOk && (vx.fmto == 0 || anyFmtOk vx.fmto.toNat)
  | .vredSat _ _ => true
  | .vredSatX _ _ vx => vx.maskOk && (vx.fmto == 0 || intFmtOk vx.fmto.toNat)
  | .vrmx _ _ => true
  | .vrmxX _ _ vx => vx.maskOk && (vx.fmto == 0 || anyFmtOk vx.fmto.toNat)
  | .vrmn _ _ => true
  | .vrmnX _ _ vx => vx.maskOk && (vx.fmto == 0 || anyFmtOk vx.fmto.toNat)
  | .vprm _ _ _ => true
  | .vprmX _ _ _ vx => vx.maskOk && (vx.fmto == 0 || wideFmtOk vx.fmto.toNat)
  | .vprmLit _ _ _ vx => vx.maskOk && (vx.fmto == 0 || wideFmtOk vx.fmto.toNat)
  | .vbrd _ _ => true
  | .vbrdX _ _ vx => vx.maskOk && (vx.fmto == 0 || anyFmtOk vx.fmto.toNat)
  | .viot _ => true
  | .viotX _ vx => vx.maskOk && (vx.fmto == 0 || anyFmtOk vx.fmto.toNat)
  | .vpck _ _ _ vx fmtd => vx.maskOk && (vx.fmto == 0 || anyFmtOk vx.fmto.toNat) && packOk vx.fmto.toNat fmtd.toNat
  | .vupk _ _ _ vx fmtd => vx.maskOk && (vx.fmto == 0 || anyFmtOk vx.fmto.toNat) && unpackOk vx.fmto.toNat fmtd.toNat
  | .vmv _ _ => true
  | .vmvX _ _ vx => vx.maskOk && (vx.fmto == 0)
  | .vins _ _ _ => true
  | .vinsX _ _ _ fmto => (fmto == 0 || anyFmtOk fmto.toNat)
  | .vext _ _ _ => true
  | .vextX _ _ _ fmto => (fmto == 0 || anyFmtOk fmto.toNat)
  | .pshp _ _ => true
  | .pmm _ _ _ _ _ _ _ fmto => (fmto == 0 || pmmFmtOk fmto.toNat)
  | .pmmg _ _ _ _ _ _ _ _ fmto => (fmto == 0 || pmmFmtOk fmto.toNat)
  | .plda _ _ fmto => (fmto == 0 || tileFmtOk fmto.toNat)
  | .psta _ _ _ fmto => (fmto == 0 || tileFmtOk fmto.toNat)
  | .pz _ => true
  | .pcvt _ fmto => (fmto == 0 || fmto == 11 || fmto == 18)
  | .wmcf _ _ _ => true
  | .wmz => true
  | .wmst _ _ => true
  | .wmsn _ => true
  | .wmjn _ _ => true
  | .wmlg _ _ => true
  | .wmrd _ _ => true
  | .eret => true
  | .halt => true
  | .nop _ => true
  | .lpad _ => true
  | .hint body len x1 x2 x3 x4 => hintOk body len x1 x2 x3 x4
  | .spawnThreadReady _ _ => false
  | .gangForm _ _ => false
  | .remoteAccessPerformed _ => false
  | .remoteReply _ => false
  | .globalAccessComplete _ => false
  | .parkWake _ _ => false
  | .pressOpStart _ _ => false
  | .pressOpComplete _ _ => false
  | .watermarkAccept _ => false
  | .watermarkComplete _ => false
  | .copyRegistration _ => false
  | .copyChunk _ => false
  | .copyComplete _ => false
  | .collectiveDelivery _ => false
  | .fabricRequest _ _ => false
  | .fabricAck _ _ _ => false
  | .doorbell _ _ _ => false
  | .qstatErrClear _ _ => false
  | .write _ _ _ _ => false
  | .signal _ _ _ _ _ => false
  | .waitValue _ _ _ _ _ _ => false
  | .waitValueComplete _ _ => false
  | .writeSignal _ _ _ _ _ _ _ => false
  | .indirect _ _ _ _ => false
  | .pull _ _ _ _ _ => false
  | .reamLoad _ _ _ => false
  | .reamLoadComplete _ _ => false
  | .selftest _ _ _ => false
  | .selftestComplete _ _ => false
  | .timestamp _ _ _ => false
  | .fencePacket _ _ => false
  | .fencePacketComplete _ _ => false
  | .v2Packet _ _ _ => false
  | .mload _ _ => false
  | .mfree _ _ => false
  | .pullWrite _ _ _ => false
  | .nodeDispatch _ _ => false
  | .launchComplete _ => false
  | .displace _ _ => false
  | .restore _ => false
  | .restoreComplete _ _ => false
  | .headboxRequest _ _ => false
  | .headboxTokenRefill _ _ => false
  | .deckleFetch _ => false
  | .coreArrival _ => false
  | .deckleFire _ _ => false
  | .deckleRelease _ _ => false
  | .feltProbePass _ => false
  | .idleTreeReport _ => false
  | .deadlockTrap _ => false
  | .calenderFrame => false
  | .softRequest _ _ => false
  | .graceExpiry _ => false
  | .saveComplete _ => false
  | .killtExpiry _ => false
  | .faultRecord _ => false
  | .resume _ _ _ => false
  | .hold _ _ _ => false
  | .killNode _ _ => false
  | .killContext _ _ => false
  | .resetVd _ => false
  | .memberResetNotice _ _ => false
  | .machineCheck _ => false
  | .mcStatusClear _ _ => false
  | .patrolScrub _ _ => false
  | .form _ => false
  | .formationComplete _ => false
  | .teardown _ => false
  | .teardownComplete _ => false
  | .tlbinv _ _ => false
  | .tlbinvDone _ => false
  | .ddstatSample => false
  | .hostBar2Access _ _ _ _ => false
  | .functionLevelReset _ => false
  | .tvedtenFrame _ _ => false
  | .pauseFrame _ _ _ => false
  | .fwstageGo _ _ => false
  | .firmwareCheckComplete => false
  | .bringUp _ _ => false
  | .bringUpComplete => false
  | .thermalThrottle _ => false
  | .thermalTrip => false
  | .registerWrite _ _ _ => false
  | .refreshWindowEnd _ => false
  | .saving _ => false

end Sys2Proof
end

