-- ==== Sys2Proof/Decode.lean ====
section
/-!
DEFINITION. The decoder of 03_encoding_opcode_map.md, total on any words, and after it the encoder.
A word that the spec does not assign is rejected by name; the fetching step answers such a rejection with the
illegal-instruction trap (03 R70).
-/
namespace Sys2Proof

/-- Why a word sequence is no instruction; each reason is a cause of the illegal-instruction trap (03 R70). -/
inductive Reject where
  /-- The major is unassigned (R89). -/
  | unassignedMajor
  /-- The LEN is not allowed for the major or the minor (R89, R100 to R102). -/
  | badLen
  /-- The minor is unassigned (R90 to R102). -/
  | unassignedMinor
  /-- An unused or reserved field is not zero (R74). -/
  | reservedField
  /-- An immediate or small-number field is outside its range (R91, R97, R98). -/
  | badField
  /-- An extended word holds a value that is not assigned (R81 to R88). -/
  | badExtended
  deriving DecidableEq, Repr

/-! ## Base-word fields (03 R73) -/

def lenOf (w : Word32) : BitVec 2 := w.extractLsb' 0 2
def majOf (w : Word32) : BitVec 6 := w.extractLsb' 2 6
def dOf (w : Word32) : BitVec 6 := w.extractLsb' 8 6
def aOf (w : Word32) : BitVec 6 := w.extractLsb' 14 6
def bOf (w : Word32) : BitVec 6 := w.extractLsb' 20 6
def fnOf (w : Word32) : BitVec 6 := w.extractLsb' 26 6
def immOf (w : Word32) : BitVec 12 := w.extractLsb' 20 12
def dispOf (w : Word32) : BitVec 8 := w.extractLsb' 24 8
def condOf (w : Word32) : BitVec 4 := w.extractLsb' 20 4
def bodyOf (w : Word32) : BitVec 24 := w.extractLsb' 8 24

/-- Number of words that LEN announces (03 R69). -/
def lenWords (l : BitVec 2) : Nat := if l = 0 then 1 else if l = 3 then 5 else 3

/-- The 64-bit literal, low word first (03 R69). -/
def litOf (lo hi : Word32) : Word := hi ++ lo

/-- Continue when a requirement of the encoding holds. -/
def req (c : Bool) (r : Reject) (k : Except Reject Instr) : Except Reject Instr := if c then k else .error r

/-! ## Small-number fields -/

/-- The condition of a code (03 R79). -/
def Cond.ofCode : Nat → Option Cond
  | 0 => some .eq | 1 => some .ne | 2 => some .lt | 3 => some .ge | 4 => some .ltu | 5 => some .geu
  | 6 => some .gt | 7 => some .le | 8 => some .gtu | 9 => some .leu | 10 => some .any | 11 => some .none
  | _ => Option.none

/-- The scope of a code (03 R88). -/
def Scope.ofCode : Nat → Option Scope
  | 0 => some .thread | 1 => some .core | 2 => some .group | 3 => some .quire | 4 => some .device | 5 => some .system
  | _ => none

/-- The ORD field (03 R82). -/
def Ord.ofCode : BitVec 2 → Ord
  | 0 => .plain | 1 => .acquire | 2 => .release | _ => .acqrel

/-- The combining mode of a code (03 R86). -/
def CollMode.ofCode : Nat → Option CollMode
  | 0 => some .wrap | 1 => some .sat | 2 => some .comp | 3 => some .maxi | 4 => some .mini | 5 => some .max
  | 6 => some .min
  | _ => none

/-! ## Extended words -/

/-- The memory family's extended words (03 R82), with the qualifiers that `ok` accepts and the mask where `mask` says
that the entry takes one. -/
def mForm (ok : OX → Bool) (mask : Bool) (y1 y2 : Word32) (k : BitVec 12 → OX → Bool → BitVec 3 → Instr) :
    Except Reject Instr :=
  let off : BitVec 12 := y1.extractLsb' 0 12
  let me := y2[3]
  let msk : BitVec 3 := y2.extractLsb' 0 3
  match Scope.ofCode (y2.extractLsb' 6 3).toNat with
  | none => .error .badExtended
  | some sc =>
    let ox : OX := ⟨Ord.ofCode (y2.extractLsb' 4 2), sc⟩
    req (y1 == off.signExtend 32 && y2.extractLsb' 9 23 == 0 && ok ox && (me || msk == 0) && (mask || !me))
      .badExtended (.ok (k off ox me msk))

/-- Which ME a floating-point or vector entry takes (06 R170, R184). -/
inductive MaskRule where
  | opt | must | no
  deriving DecidableEq, Repr

/-- The mask fields obey the entry's rule. -/
def MaskRule.holds (r : MaskRule) (v : VX) : Bool :=
  match r with
  | .opt => v.maskOk
  | .must => v.me
  | .no => !v.me && v.msk == 0

/-- No destination format (03 R83). -/
def noDest (_ t : Nat) : Bool := t == 0

/-- The floating-point and vector family's extended words (03 R83): the mask by `r`, FMTO 0 or one that `okF`
accepts, C only where `useC`, FMTD as `okD` accepts it beside FMTO. -/
def xForm (r : MaskRule) (okF : Nat → Bool) (useC : Bool) (okD : Nat → Nat → Bool) (y1 y2 : Word32)
    (k : VX → Code → BitVec 5 → Instr) : Except Reject Instr :=
  let v : VX := ⟨y1.extractLsb' 10 5, y1[9], y1.extractLsb' 6 3⟩
  let c : Code := y1.extractLsb' 0 6
  let fd : BitVec 5 := y2.extractLsb' 0 5
  req (y1.extractLsb' 15 17 == 0 && y2.extractLsb' 5 27 == 0 && r.holds v && (v.fmto == 0 || okF v.fmto.toNat)
      && (useC || c == 0) && okD v.fmto.toNat fd.toNat) .badExtended (.ok (k v c fd))

/-- A literal form: b must be 63 (03 R76). -/
def litForm (b : BitVec 6) (k : Except Reject Instr) : Except Reject Instr := req (b == 63) .reservedField k

/-- The collective family's extended words (03 R86); ROOT only where `root`. -/
def cForm (ok : Nat → Nat → Bool) (root : Bool) (y1 y2 : Word32)
    (k : BitVec 5 → Nat → BitVec 8 → BitVec 12 → Except Reject Instr) : Except Reject Instr :=
  let f : BitVec 5 := y1.extractLsb' 12 5
  let md : BitVec 4 := y1.extractLsb' 8 4
  let g : BitVec 8 := y1.extractLsb' 0 8
  let rt : BitVec 12 := y2.extractLsb' 0 12
  req (y1.extractLsb' 17 15 == 0 && y2.extractLsb' 12 20 == 0 && (root || rt == 0) && ok f.toNat md.toNat) .badExtended
    (k f md.toNat g rt)

/-- The fields of the Press extended word (03 R85). -/
structure PX where
  fmto : BitVec 5
  idx  : BitVec 4
  xi   : Bool
  ad   : Bool
  nb   : Bool
  na   : Bool
  sb   : BitVec 3
  sa   : BitVec 3
  acc  : BitVec 3
  deriving DecidableEq, Repr

/-- The Press family's extended words (03 R85); FMTO 0 or one that `okF` accepts. -/
def pForm (okF : Nat → Bool) (y1 y2 : Word32) (k : PX → Except Reject Instr) : Except Reject Instr :=
  let x : PX := ⟨y1.extractLsb' 17 5, y1.extractLsb' 13 4, y1[12], y1[11], y1[10], y1[9], y1.extractLsb' 6 3,
    y1.extractLsb' 3 3, y1.extractLsb' 0 3⟩
  req (y1.extractLsb' 22 10 == 0 && y2 == 0 && (x.fmto == 0 || okF x.fmto.toNat)) .badExtended (k x)

/-! ## Majors

The compiler's runtime has tags for 245 constructors with fields, and opcode_table.json has more rows: the decoder is
kept for the kernel, which evaluates it. -/

noncomputable section

/-- Major 0x00 (03 R90). -/
def decodeInt (fn b a d : BitVec 6) : Except Reject Instr :=
  match fn.toNat with
  | 0 => .ok (.add d a b)
  | 1 => .ok (.sub d a b)
  | 2 => .ok (.mul d a b)
  | 3 => .ok (.mulh d a b)
  | 4 => .ok (.mulhu d a b)
  | 5 => .ok (.div d a b)
  | 6 => .ok (.divu d a b)
  | 7 => .ok (.rem d a b)
  | 8 => .ok (.remu d a b)
  | 9 => .ok (.and d a b)
  | 10 => .ok (.or d a b)
  | 11 => .ok (.xor d a b)
  | 12 => .ok (.andn d a b)
  | 13 => .ok (.shl d a b)
  | 14 => .ok (.shr d a b)
  | 15 => .ok (.sar d a b)
  | 16 => .ok (.rol d a b)
  | 17 => .ok (.min d a b)
  | 18 => .ok (.max d a b)
  | 19 => .ok (.minu d a b)
  | 20 => .ok (.maxu d a b)
  | 21 => req (b == 0) .reservedField (.ok (.clz d a))
  | 22 => req (b == 0) .reservedField (.ok (.ctz d a))
  | 23 => req (b == 0) .reservedField (.ok (.cpop d a))
  | 24 => req (b == 0) .reservedField (.ok (.mov d a))
  | 25 => .ok (.sel d a b)
  | 26 => .ok (.lea1 d a b)
  | 27 => .ok (.lea2 d a b)
  | 28 => .ok (.lea4 d a b)
  | 29 => .ok (.lea8 d a b)
  | 32 => .ok (.setc .eq d a b)
  | 33 => .ok (.setc .ne d a b)
  | 34 => .ok (.setc .lt d a b)
  | 35 => .ok (.setc .ge d a b)
  | 36 => .ok (.setc .ltu d a b)
  | 37 => .ok (.setc .geu d a b)
  | 38 => .ok (.setc .gt d a b)
  | 39 => .ok (.setc .le d a b)
  | 40 => .ok (.setc .gtu d a b)
  | 41 => .ok (.setc .leu d a b)
  | 42 => .ok (.setc .any d a b)
  | 43 => .ok (.setc .none d a b)
  | _ => .error .unassignedMinor

/-- Major 0x0D (03 R93). -/
def decodeCtl (fn b a d : BitVec 6) : Except Reject Instr :=
  match fn.toNat with
  | 0 => req (b == 0 && d == 0) .reservedField (.ok (.ret a))
  | 1 => req (d == 0) .reservedField (.ok (.jmpt a b))
  | 2 => req (b == 0 && a == 0 && d == 0) .reservedField (.ok .yield)
  | 3 => req (d == 0) .reservedField (.ok (.trap (b ++ a)))
  | 4 => .ok (.spawn d a b)
  | 5 => req (b == 0 && a == 0 && d == 0) .reservedField (.ok .exit)
  | 6 => req (b == 0 && d == 0) .reservedField (.ok (.gang a))
  | 7 => req (b == 0 && a == 0 && d == 0) .reservedField (.ok .ungang)
  | _ => .error .unassignedMinor

/-- Major 0x10 under LEN 0b00 (03 R94). -/
def decodeSpm (fn b a d : BitVec 6) : Except Reject Instr :=
  match fn.toNat with
  | 0 => .ok (.ld .w64 d a b)
  | 1 => .ok (.ld .s32 d a b)
  | 2 => .ok (.ld .s16 d a b)
  | 3 => .ok (.ld .s8 d a b)
  | 4 => .ok (.ld .z32 d a b)
  | 5 => .ok (.ld .z16 d a b)
  | 6 => .ok (.ld .z8 d a b)
  | 8 => .ok (.st .w64 d a b)
  | 9 => .ok (.st .w32 d a b)
  | 10 => .ok (.st .w16 d a b)
  | 11 => .ok (.st .w8 d a b)
  | 16 => .ok (.ldq .w64 d a b)
  | 17 => .ok (.ldq .s32 d a b)
  | 18 => .ok (.ldq .s16 d a b)
  | 19 => .ok (.ldq .s8 d a b)
  | 20 => .ok (.ldq .z32 d a b)
  | 21 => .ok (.ldq .z16 d a b)
  | 22 => .ok (.ldq .z8 d a b)
  | 24 => .ok (.stq .w64 d a b)
  | 25 => .ok (.stq .w32 d a b)
  | 26 => .ok (.stq .w16 d a b)
  | 27 => .ok (.stq .w8 d a b)
  | 32 => .ok (.vld d a b)
  | 33 => .ok (.vst d a b)
  | 34 => .ok (.ldw d a b)
  | _ => .error .unassignedMinor

/-- Major 0x10 under LEN 0b10 (03 R82, R94). -/
def decodeSpmX (fn b a d : BitVec 6) (y1 y2 : Word32) : Except Reject Instr :=
  match fn.toNat with
  | 0 => mForm OX.isPlain false y1 y2 (fun off _ _ _ => .ldX .w64 d a b off)
  | 1 => mForm OX.isPlain false y1 y2 (fun off _ _ _ => .ldX .s32 d a b off)
  | 2 => mForm OX.isPlain false y1 y2 (fun off _ _ _ => .ldX .s16 d a b off)
  | 3 => mForm OX.isPlain false y1 y2 (fun off _ _ _ => .ldX .s8 d a b off)
  | 4 => mForm OX.isPlain false y1 y2 (fun off _ _ _ => .ldX .z32 d a b off)
  | 5 => mForm OX.isPlain false y1 y2 (fun off _ _ _ => .ldX .z16 d a b off)
  | 6 => mForm OX.isPlain false y1 y2 (fun off _ _ _ => .ldX .z8 d a b off)
  | 8 => mForm OX.isPlain false y1 y2 (fun off _ _ _ => .stX .w64 d a b off)
  | 9 => mForm OX.isPlain false y1 y2 (fun off _ _ _ => .stX .w32 d a b off)
  | 10 => mForm OX.isPlain false y1 y2 (fun off _ _ _ => .stX .w16 d a b off)
  | 11 => mForm OX.isPlain false y1 y2 (fun off _ _ _ => .stX .w8 d a b off)
  | 16 => mForm OX.isPlain false y1 y2 (fun off _ _ _ => .ldqX .w64 d a b off)
  | 17 => mForm OX.isPlain false y1 y2 (fun off _ _ _ => .ldqX .s32 d a b off)
  | 18 => mForm OX.isPlain false y1 y2 (fun off _ _ _ => .ldqX .s16 d a b off)
  | 19 => mForm OX.isPlain false y1 y2 (fun off _ _ _ => .ldqX .s8 d a b off)
  | 20 => mForm OX.isPlain false y1 y2 (fun off _ _ _ => .ldqX .z32 d a b off)
  | 21 => mForm OX.isPlain false y1 y2 (fun off _ _ _ => .ldqX .z16 d a b off)
  | 22 => mForm OX.isPlain false y1 y2 (fun off _ _ _ => .ldqX .z8 d a b off)
  | 24 => mForm OX.isPlain false y1 y2 (fun off _ _ _ => .stqX .w64 d a b off)
  | 25 => mForm OX.isPlain false y1 y2 (fun off _ _ _ => .stqX .w32 d a b off)
  | 26 => mForm OX.isPlain false y1 y2 (fun off _ _ _ => .stqX .w16 d a b off)
  | 27 => mForm OX.isPlain false y1 y2 (fun off _ _ _ => .stqX .w8 d a b off)
  | 32 => mForm OX.isPlain true y1 y2 (fun off _ me msk => .vldX d a b off me msk)
  | 33 => mForm OX.isPlain true y1 y2 (fun off _ me msk => .vstX d a b off me msk)
  | 34 => mForm OX.isPlain false y1 y2 (fun off _ _ _ => .ldwX d a b off)
  | _ => .error .unassignedMinor

/-- Major 0x15 under LEN 0b00 (03 R96). -/
def decodeGlb (fn b a d : BitVec 6) : Except Reject Instr :=
  match fn.toNat with
  | 0 => .ok (.ldg .w64 d a b)
  | 1 => .ok (.ldg .s32 d a b)
  | 2 => .ok (.ldg .s16 d a b)
  | 3 => .ok (.ldg .s8 d a b)
  | 4 => .ok (.ldg .z32 d a b)
  | 5 => .ok (.ldg .z16 d a b)
  | 6 => .ok (.ldg .z8 d a b)
  | 8 => .ok (.stg .w64 d a b)
  | 9 => .ok (.stg .w32 d a b)
  | 10 => .ok (.stg .w16 d a b)
  | 11 => .ok (.stg .w8 d a b)
  | 16 => .ok (.vldg d a b)
  | 17 => .ok (.vstg d a b)
  | 18 => req (d == 0) .reservedField (.ok (.pref a b))
  | 19 => req (d == 0) .reservedField (.ok (.flsh a b))
  | 24 => .ok (.amadd d a b)
  | 25 => .ok (.amswp d a b)
  | 26 => .ok (.amcas d a b)
  | 27 => .ok (.ammin d a b)
  | 28 => .ok (.ammax d a b)
  | 29 => .ok (.amminu d a b)
  | 30 => .ok (.ammaxu d a b)
  | 31 => .ok (.amand d a b)
  | 32 => .ok (.amor d a b)
  | 33 => .ok (.amxor d a b)
  | 40 => .ok (.amadd32 d a b)
  | 41 => .ok (.amswp32 d a b)
  | 42 => .ok (.amcas32 d a b)
  | 43 => .ok (.ammin32 d a b)
  | 44 => .ok (.ammax32 d a b)
  | 45 => .ok (.amminu32 d a b)
  | 46 => .ok (.ammaxu32 d a b)
  | 47 => .ok (.amand32 d a b)
  | 48 => .ok (.amor32 d a b)
  | 49 => .ok (.amxor32 d a b)
  | _ => .error .unassignedMinor

/-- Major 0x15 under LEN 0b10 (03 R82, R96). -/
def decodeGlbX (fn b a d : BitVec 6) (y1 y2 : Word32) : Except Reject Instr :=
  match fn.toNat with
  | 0 => mForm OX.okLoad false y1 y2 (fun off ox _ _ => .ldgX .w64 d a b off ox)
  | 1 => mForm OX.okLoad false y1 y2 (fun off ox _ _ => .ldgX .s32 d a b off ox)
  | 2 => mForm OX.okLoad false y1 y2 (fun off ox _ _ => .ldgX .s16 d a b off ox)
  | 3 => mForm OX.okLoad false y1 y2 (fun off ox _ _ => .ldgX .s8 d a b off ox)
  | 4 => mForm OX.okLoad false y1 y2 (fun off ox _ _ => .ldgX .z32 d a b off ox)
  | 5 => mForm OX.okLoad false y1 y2 (fun off ox _ _ => .ldgX .z16 d a b off ox)
  | 6 => mForm OX.okLoad false y1 y2 (fun off ox _ _ => .ldgX .z8 d a b off ox)
  | 8 => mForm OX.okStore false y1 y2 (fun off ox _ _ => .stgX .w64 d a b off ox)
  | 9 => mForm OX.okStore false y1 y2 (fun off ox _ _ => .stgX .w32 d a b off ox)
  | 10 => mForm OX.okStore false y1 y2 (fun off ox _ _ => .stgX .w16 d a b off ox)
  | 11 => mForm OX.okStore false y1 y2 (fun off ox _ _ => .stgX .w8 d a b off ox)
  | 16 => mForm OX.okLoad true y1 y2 (fun off ox me msk => .vldgX d a b off ox me msk)
  | 17 => mForm OX.okStore true y1 y2 (fun off ox me msk => .vstgX d a b off ox me msk)
  | 18 => req (d == 0) .reservedField (mForm OX.isPlain false y1 y2 (fun off _ _ _ => .prefX a b off))
  | 19 => req (d == 0) .reservedField (mForm OX.isPlain false y1 y2 (fun off _ _ _ => .flshX a b off))
  | 24 => mForm OX.okAtomic false y1 y2 (fun off ox _ _ => .amaddX d a b off ox)
  | 25 => mForm OX.okAtomic false y1 y2 (fun off ox _ _ => .amswpX d a b off ox)
  | 26 => mForm OX.okAtomic false y1 y2 (fun off ox _ _ => .amcasX d a b off ox)
  | 27 => mForm OX.okAtomic false y1 y2 (fun off ox _ _ => .amminX d a b off ox)
  | 28 => mForm OX.okAtomic false y1 y2 (fun off ox _ _ => .ammaxX d a b off ox)
  | 29 => mForm OX.okAtomic false y1 y2 (fun off ox _ _ => .amminuX d a b off ox)
  | 30 => mForm OX.okAtomic false y1 y2 (fun off ox _ _ => .ammaxuX d a b off ox)
  | 31 => mForm OX.okAtomic false y1 y2 (fun off ox _ _ => .amandX d a b off ox)
  | 32 => mForm OX.okAtomic false y1 y2 (fun off ox _ _ => .amorX d a b off ox)
  | 33 => mForm OX.okAtomic false y1 y2 (fun off ox _ _ => .amxorX d a b off ox)
  | 40 => mForm OX.okAtomic false y1 y2 (fun off ox _ _ => .amadd32X d a b off ox)
  | 41 => mForm OX.okAtomic false y1 y2 (fun off ox _ _ => .amswp32X d a b off ox)
  | 42 => mForm OX.okAtomic false y1 y2 (fun off ox _ _ => .amcas32X d a b off ox)
  | 43 => mForm OX.okAtomic false y1 y2 (fun off ox _ _ => .ammin32X d a b off ox)
  | 44 => mForm OX.okAtomic false y1 y2 (fun off ox _ _ => .ammax32X d a b off ox)
  | 45 => mForm OX.okAtomic false y1 y2 (fun off ox _ _ => .amminu32X d a b off ox)
  | 46 => mForm OX.okAtomic false y1 y2 (fun off ox _ _ => .ammaxu32X d a b off ox)
  | 47 => mForm OX.okAtomic false y1 y2 (fun off ox _ _ => .amand32X d a b off ox)
  | 48 => mForm OX.okAtomic false y1 y2 (fun off ox _ _ => .amor32X d a b off ox)
  | 49 => mForm OX.okAtomic false y1 y2 (fun off ox _ _ => .amxor32X d a b off ox)
  | _ => .error .unassignedMinor

/-- Major 0x16 (03 R97). -/
def decodeSync (fn b a d : BitVec 6) : Except Reject Instr :=
  match fn.toNat with
  | 0 => req (b == 0) .reservedField (match Scope.ofCode d.toNat with
      | some s => .ok (.fence s a)
      | none => .error .badField)
  | 1 => req (d == 0) .reservedField (.ok (.park a b))
  | 2 => req (b == 0 && a == 0 && d == 0) .reservedField (.ok .wait)
  | 3 => req (d == 0) .reservedField (.ok (.cpy a b))
  | 4 => req (b == 0 && d == 0) .reservedField (.ok (.exch a))
  | _ => .error .unassignedMinor

/-- Major 0x18 (03 R86, R99, 11 R281). -/
def decodeColl (fn a d : BitVec 6) (y1 y2 : Word32) : Except Reject Instr :=
  match fn.toNat with
  | 0 => cForm (fun f md => f == 0 || (match CollMode.ofCode md with | some k => combFmtOk k f | none => false)) false y1 y2 (fun f md g _ => match CollMode.ofCode md with
      | some k => .ok (.ared d a f k g)
      | none => .error .badExtended)
  | 1 => cForm (fun f md => f == 0 || (match CollMode.ofCode md with | some k => combFmtOk k f | none => false)) false y1 y2 (fun f md g _ => match CollMode.ofCode md with
      | some k => .ok (.rsct d a f k g)
      | none => .error .badExtended)
  | 2 => cForm (fun f md => md == 0 && (f == 0 || wideFmtOk f)) false y1 y2 (fun f _ g _ => .ok (.agth d a f g))
  | 3 => cForm (fun f md => md == 0 && (f == 0 || wideFmtOk f)) false y1 y2 (fun f _ g _ => .ok (.atoa d a f g))
  | 4 => cForm (fun f md => md == 0 && (f == 0 || wideFmtOk f)) true y1 y2 (fun f _ g r => .ok (.bcst d a f g r))
  | 5 => cForm (fun f md => md == 0 && f == 0) true y1 y2 (fun _ _ g r => .ok (.ored d a g r))
  | _ => .error .unassignedMinor

/-- Major 0x19 (03 R87, R99). -/
def decodeFab (fn b a d c : BitVec 6) : Except Reject Instr :=
  match fn.toNat with
  | 0 => .ok (.puts d a b c)
  | 1 => req (d == 0) .reservedField (.ok (.get a b c))
  | 2 => req (d == 0) .reservedField (.ok (.radd a b c))
  | 3 => .ok (.apnd d a b c)
  | _ => .error .unassignedMinor

/-- Major 0x20 (03 R100). -/
def decodeFps (fn b a d : BitVec 6) (len : BitVec 2) (y1 y2 : Word32) : Except Reject Instr :=
  match fn.toNat with
  | 0 => match len.toNat with
      | 0 => .ok (.fadd d a b)
      | 2 => xForm .no arithFmtOk false noDest y1 y2 (fun vx _ _ => .faddX d a b vx.fmto)
      | _ => .error .badLen
  | 1 => match len.toNat with
      | 0 => .ok (.fsub d a b)
      | 2 => xForm .no arithFmtOk false noDest y1 y2 (fun vx _ _ => .fsubX d a b vx.fmto)
      | _ => .error .badLen
  | 2 => match len.toNat with
      | 0 => .ok (.fmul d a b)
      | 2 => xForm .no arithFmtOk false noDest y1 y2 (fun vx _ _ => .fmulX d a b vx.fmto)
      | _ => .error .badLen
  | 3 => match len.toNat with
      | 2 => xForm .no arithFmtOk true noDest y1 y2 (fun vx c _ => .ffma d a b c vx.fmto)
      | _ => .error .badLen
  | 4 => match len.toNat with
      | 0 => .ok (.fdiv d a b)
      | 2 => xForm .no arithFmtOk false noDest y1 y2 (fun vx _ _ => .fdivX d a b vx.fmto)
      | _ => .error .badLen
  | 5 => req (b == 0) .reservedField <|
      match len.toNat with
      | 0 => .ok (.fsqrt d a)
      | 2 => xForm .no arithFmtOk false noDest y1 y2 (fun vx _ _ => .fsqrtX d a vx.fmto)
      | _ => .error .badLen
  | 6 => match len.toNat with
      | 0 => .ok (.fmin d a b)
      | 2 => xForm .no floatFmtOk false noDest y1 y2 (fun vx _ _ => .fminX d a b vx.fmto)
      | _ => .error .badLen
  | 7 => match len.toNat with
      | 0 => .ok (.fmax d a b)
      | 2 => xForm .no floatFmtOk false noDest y1 y2 (fun vx _ _ => .fmaxX d a b vx.fmto)
      | _ => .error .badLen
  | 8 => match len.toNat with
      | 0 => .ok (.fcmp .eq d a b)
      | 2 => xForm .no floatFmtOk false noDest y1 y2 (fun vx _ _ => .fcmpX .eq d a b vx.fmto)
      | _ => .error .badLen
  | 9 => match len.toNat with
      | 0 => .ok (.fcmp .lt d a b)
      | 2 => xForm .no floatFmtOk false noDest y1 y2 (fun vx _ _ => .fcmpX .lt d a b vx.fmto)
      | _ => .error .badLen
  | 10 => match len.toNat with
      | 0 => .ok (.fcmp .le d a b)
      | 2 => xForm .no floatFmtOk false noDest y1 y2 (fun vx _ _ => .fcmpX .le d a b vx.fmto)
      | _ => .error .badLen
  | 11 => match len.toNat with
      | 0 => .ok (.fcmp .un d a b)
      | 2 => xForm .no floatFmtOk false noDest y1 y2 (fun vx _ _ => .fcmpX .un d a b vx.fmto)
      | _ => .error .badLen
  | 12 => req (b == 0) .reservedField <|
      match len.toNat with
      | 2 => xForm .no (fun _ => true) false fcvtOk y1 y2 (fun vx _ fmtd => .fcvt d a vx.fmto fmtd)
      | _ => .error .badLen
  | 13 => req (b == 0) .reservedField <|
      match len.toNat with
      | 0 => .ok (.fcls d a)
      | 2 => xForm .no floatFmtOk false noDest y1 y2 (fun vx _ _ => .fclsX d a vx.fmto)
      | _ => .error .badLen
  | _ => .error .unassignedMinor

/-- Major 0x21 (03 R101). -/
def decodeVar (fn b a d : BitVec 6) (len : BitVec 2) (y1 y2 : Word32) (lit : Word) : Except Reject Instr :=
  match fn.toNat with
  | 0 => match len.toNat with
      | 0 => .ok (.vadd d a b)
      | 2 => xForm .opt anyFmtOk false noDest y1 y2 (fun vx _ _ => .vaddX d a b vx)
      | 3 => litForm b (xForm .opt anyFmtOk false noDest y1 y2 (fun vx _ _ => .vaddLit d a lit vx))
      | _ => .error .badLen
  | 1 => match len.toNat with
      | 0 => .ok (.vsub d a b)
      | 2 => xForm .opt anyFmtOk false noDest y1 y2 (fun vx _ _ => .vsubX d a b vx)
      | 3 => litForm b (xForm .opt anyFmtOk false noDest y1 y2 (fun vx _ _ => .vsubLit d a lit vx))
      | _ => .error .badLen
  | 2 => match len.toNat with
      | 0 => .ok (.vmul d a b)
      | 2 => xForm .opt anyFmtOk false noDest y1 y2 (fun vx _ _ => .vmulX d a b vx)
      | 3 => litForm b (xForm .opt anyFmtOk false noDest y1 y2 (fun vx _ _ => .vmulLit d a lit vx))
      | _ => .error .badLen
  | 3 => match len.toNat with
      | 2 => xForm .opt anyFmtOk true noDest y1 y2 (fun vx c _ => .vfma d a b c vx)
      | 3 => litForm b (xForm .opt anyFmtOk true noDest y1 y2 (fun vx c _ => .vfmaLit d a lit c vx))
      | _ => .error .badLen
  | 4 => match len.toNat with
      | 0 => .ok (.vmin d a b)
      | 2 => xForm .opt anyFmtOk false noDest y1 y2 (fun vx _ _ => .vminX d a b vx)
      | 3 => litForm b (xForm .opt anyFmtOk false noDest y1 y2 (fun vx _ _ => .vminLit d a lit vx))
      | _ => .error .badLen
  | 5 => match len.toNat with
      | 0 => .ok (.vmax d a b)
      | 2 => xForm .opt anyFmtOk false noDest y1 y2 (fun vx _ _ => .vmaxX d a b vx)
      | 3 => litForm b (xForm .opt anyFmtOk false noDest y1 y2 (fun vx _ _ => .vmaxLit d a lit vx))
      | _ => .error .badLen
  | 6 => req (b == 0) .reservedField <|
      match len.toNat with
      | 0 => .ok (.vabs d a)
      | 2 => xForm .opt anyFmtOk false noDest y1 y2 (fun vx _ _ => .vabsX d a vx)
      | _ => .error .badLen
  | 7 => req (b == 0) .reservedField <|
      match len.toNat with
      | 0 => .ok (.vneg d a)
      | 2 => xForm .opt anyFmtOk false noDest y1 y2 (fun vx _ _ => .vnegX d a vx)
      | _ => .error .badLen
  | 8 => match len.toNat with
      | 0 => .ok (.vand d a b)
      | 2 => xForm .opt (fun _ => false) false noDest y1 y2 (fun vx _ _ => .vandX d a b vx)
      | 3 => litForm b (xForm .opt (fun _ => false) false noDest y1 y2 (fun vx _ _ => .vandLit d a lit vx))
      | _ => .error .badLen
  | 9 => match len.toNat with
      | 0 => .ok (.vor d a b)
      | 2 => xForm .opt (fun _ => false) false noDest y1 y2 (fun vx _ _ => .vorX d a b vx)
      | 3 => litForm b (xForm .opt (fun _ => false) false noDest y1 y2 (fun vx _ _ => .vorLit d a lit vx))
      | _ => .error .badLen
  | 10 => match len.toNat with
      | 0 => .ok (.vxor d a b)
      | 2 => xForm .opt (fun _ => false) false noDest y1 y2 (fun vx _ _ => .vxorX d a b vx)
      | 3 => litForm b (xForm .opt (fun _ => false) false noDest y1 y2 (fun vx _ _ => .vxorLit d a lit vx))
      | _ => .error .badLen
  | 11 => match len.toNat with
      | 0 => .ok (.vshl d a b)
      | 2 => xForm .opt intFmtOk false noDest y1 y2 (fun vx _ _ => .vshlX d a b vx)
      | 3 => litForm b (xForm .opt intFmtOk false noDest y1 y2 (fun vx _ _ => .vshlLit d a lit vx))
      | _ => .error .badLen
  | 12 => match len.toNat with
      | 0 => .ok (.vshr d a b)
      | 2 => xForm .opt intFmtOk false noDest y1 y2 (fun vx _ _ => .vshrX d a b vx)
      | 3 => litForm b (xForm .opt intFmtOk false noDest y1 y2 (fun vx _ _ => .vshrLit d a lit vx))
      | _ => .error .badLen
  | 13 => match len.toNat with
      | 0 => .ok (.vsar d a b)
      | 2 => xForm .opt intFmtOk false noDest y1 y2 (fun vx _ _ => .vsarX d a b vx)
      | 3 => litForm b (xForm .opt intFmtOk false noDest y1 y2 (fun vx _ _ => .vsarLit d a lit vx))
      | _ => .error .badLen
  | 14 => match len.toNat with
      | 0 => .ok (.vscl d a b)
      | 2 => xForm .opt anyFmtOk false noDest y1 y2 (fun vx _ _ => .vsclX d a b vx)
      | 3 => litForm b (xForm .opt anyFmtOk false noDest y1 y2 (fun vx _ _ => .vsclLit d a lit vx))
      | _ => .error .badLen
  | 15 => req (b == 0) .reservedField <|
      match len.toNat with
      | 0 => .ok (.vrcp d a)
      | 2 => xForm .opt arithFmtOk false noDest y1 y2 (fun vx _ _ => .vrcpX d a vx)
      | _ => .error .badLen
  | 16 => req (b == 0) .reservedField <|
      match len.toNat with
      | 0 => .ok (.vrsq d a)
      | 2 => xForm .opt arithFmtOk false noDest y1 y2 (fun vx _ _ => .vrsqX d a vx)
      | _ => .error .badLen
  | 17 => req (b == 0) .reservedField <|
      match len.toNat with
      | 0 => .ok (.vex2 d a)
      | 2 => xForm .opt arithFmtOk false noDest y1 y2 (fun vx _ _ => .vex2X d a vx)
      | _ => .error .badLen
  | 18 => req (b == 0) .reservedField <|
      match len.toNat with
      | 0 => .ok (.vlg2 d a)
      | 2 => xForm .opt arithFmtOk false noDest y1 y2 (fun vx _ _ => .vlg2X d a vx)
      | _ => .error .badLen
  | 19 => req (b == 0) .reservedField <|
      match len.toNat with
      | 2 => xForm .opt anyFmtOk false (fun _ t => anyFmtOk t) y1 y2 (fun vx _ fmtd => .vcvt d a vx fmtd)
      | _ => .error .badLen
  | _ => .error .unassignedMinor

/-- Major 0x22 (03 R101). -/
def decodeVcm (fn b a d : BitVec 6) (len : BitVec 2) (y1 y2 : Word32) (lit : Word) : Except Reject Instr :=
  match fn.toNat with
  | 0 => match len.toNat with
      | 0 => .ok (.vcmp .eq d a b)
      | 2 => xForm .opt wideFmtOk false noDest y1 y2 (fun vx _ _ => .vcmpX .eq d a b vx)
      | 3 => litForm b (xForm .opt wideFmtOk false noDest y1 y2 (fun vx _ _ => .vcmpLit .eq d a lit vx))
      | _ => .error .badLen
  | 1 => match len.toNat with
      | 0 => .ok (.vcmp .ne d a b)
      | 2 => xForm .opt wideFmtOk false noDest y1 y2 (fun vx _ _ => .vcmpX .ne d a b vx)
      | 3 => litForm b (xForm .opt wideFmtOk false noDest y1 y2 (fun vx _ _ => .vcmpLit .ne d a lit vx))
      | _ => .error .badLen
  | 2 => match len.toNat with
      | 0 => .ok (.vcmp .lt d a b)
      | 2 => xForm .opt wideFmtOk false noDest y1 y2 (fun vx _ _ => .vcmpX .lt d a b vx)
      | 3 => litForm b (xForm .opt wideFmtOk false noDest y1 y2 (fun vx _ _ => .vcmpLit .lt d a lit vx))
      | _ => .error .badLen
  | 3 => match len.toNat with
      | 0 => .ok (.vcmp .le d a b)
      | 2 => xForm .opt wideFmtOk false noDest y1 y2 (fun vx _ _ => .vcmpX .le d a b vx)
      | 3 => litForm b (xForm .opt wideFmtOk false noDest y1 y2 (fun vx _ _ => .vcmpLit .le d a lit vx))
      | _ => .error .badLen
  | 4 => match len.toNat with
      | 0 => .ok (.vcmp .un d a b)
      | 2 => xForm .opt wideFmtOk false noDest y1 y2 (fun vx _ _ => .vcmpX .un d a b vx)
      | 3 => litForm b (xForm .opt wideFmtOk false noDest y1 y2 (fun vx _ _ => .vcmpLit .un d a lit vx))
      | _ => .error .badLen
  | 8 => match len.toNat with
      | 2 => xForm .must anyFmtOk false noDest y1 y2 (fun vx _ _ => .vsel d a b vx)
      | 3 => litForm b (xForm .must anyFmtOk false noDest y1 y2 (fun vx _ _ => .vselLit d a lit vx))
      | _ => .error .badLen
  | 9 => match len.toNat with
      | 0 => .ok (.mand d a b)
      | _ => .error .badLen
  | 10 => match len.toNat with
      | 0 => .ok (.mor d a b)
      | _ => .error .badLen
  | 11 => req (b == 0) .reservedField <|
      match len.toNat with
      | 0 => .ok (.mnot d a)
      | _ => .error .badLen
  | _ => .error .unassignedMinor

/-- Major 0x23 (03 R101). -/
def decodeVrd (fn b a d : BitVec 6) (len : BitVec 2) (y1 y2 : Word32) : Except Reject Instr :=
  match fn.toNat with
  | 0 => req (b == 0) .reservedField <|
      match len.toNat with
      | 0 => .ok (.vred d a)
      | 2 => xForm .opt anyFmtOk false noDest y1 y2 (fun vx _ _ => .vredX d a vx)
      | _ => .error .badLen
  | 1 => req (b == 0) .reservedField <|
      match len.toNat with
      | 0 => .ok (.vredSat d a)
      | 2 => xForm .opt intFmtOk false noDest y1 y2 (fun vx _ _ => .vredSatX d a vx)
      | _ => .error .badLen
  | 2 => req (b == 0) .reservedField <|
      match len.toNat with
      | 0 => .ok (.vrmx d a)
      | 2 => xForm .opt anyFmtOk false noDest y1 y2 (fun vx _ _ => .vrmxX d a vx)
      | _ => .error .badLen
  | 3 => req (b == 0) .reservedField <|
      match len.toNat with
      | 0 => .ok (.vrmn d a)
      | 2 => xForm .opt anyFmtOk false noDest y1 y2 (fun vx _ _ => .vrmnX d a vx)
      | _ => .error .badLen
  | _ => .error .unassignedMinor

/-- Major 0x24 (03 R101). -/
def decodeVpm (fn b a d : BitVec 6) (len : BitVec 2) (y1 y2 : Word32) (lit : Word) : Except Reject Instr :=
  match fn.toNat with
  | 0 => match len.toNat with
      | 0 => .ok (.vprm d a b)
      | 2 => xForm .opt wideFmtOk false noDest y1 y2 (fun vx _ _ => .vprmX d a b vx)
      | 3 => litForm b (xForm .opt wideFmtOk false noDest y1 y2 (fun vx _ _ => .vprmLit d a lit vx))
      | _ => .error .badLen
  | 1 => req (b == 0) .reservedField <|
      match len.toNat with
      | 0 => .ok (.vbrd d a)
      | 2 => xForm .opt anyFmtOk false noDest y1 y2 (fun vx _ _ => .vbrdX d a vx)
      | _ => .error .badLen
  | 2 => req (b == 0 && a == 0) .reservedField <|
      match len.toNat with
      | 0 => .ok (.viot d)
      | 2 => xForm .opt anyFmtOk false noDest y1 y2 (fun vx _ _ => .viotX d vx)
      | _ => .error .badLen
  | 3 => match len.toNat with
      | 2 => xForm .opt anyFmtOk false packOk y1 y2 (fun vx _ fmtd => .vpck d a b vx fmtd)
      | _ => .error .badLen
  | 4 => match len.toNat with
      | 2 => xForm .opt anyFmtOk false unpackOk y1 y2 (fun vx _ fmtd => .vupk d a b vx fmtd)
      | _ => .error .badLen
  | 5 => req (b == 0) .reservedField <|
      match len.toNat with
      | 0 => .ok (.vmv d a)
      | 2 => xForm .opt (fun _ => false) false noDest y1 y2 (fun vx _ _ => .vmvX d a vx)
      | _ => .error .badLen
  | 6 => match len.toNat with
      | 0 => .ok (.vins d a b)
      | 2 => xForm .no anyFmtOk false noDest y1 y2 (fun vx _ _ => .vinsX d a b vx.fmto)
      | _ => .error .badLen
  | 7 => match len.toNat with
      | 0 => .ok (.vext d a b)
      | 2 => xForm .no anyFmtOk false noDest y1 y2 (fun vx _ _ => .vextX d a b vx.fmto)
      | _ => .error .badLen
  | _ => .error .unassignedMinor

/-- Major 0x30 (03 R85, R102, 07 R199). -/
def decodePrs (fn b a d : BitVec 6) (len : BitVec 2) (y1 y2 : Word32) : Except Reject Instr :=
  match fn.toNat with
  | 0 => req (len == 0) .badLen (req (b == 0) .reservedField (.ok (.pshp d a)))
  | 1 => req (len == 2) .badLen (req (b == 0 && a == 0 && d == 0) .reservedField (pForm (fun f => pmmFmtOk f) y1 y2 (fun x => req (x.idx == 0) .badExtended (.ok (.pmm x.acc x.sa x.sb x.na x.nb x.ad x.xi x.fmto)))))
  | 2 => req (len == 2) .badLen (req (b == 0 && a == 0 && d == 0) .reservedField (pForm (fun f => pmmFmtOk f) y1 y2 (fun x => .ok (.pmmg x.acc x.sa x.sb x.idx x.na x.nb x.ad x.xi x.fmto))))
  | 3 => req (len == 2) .badLen (req (b == 0 && a == 0 && d == 0) .reservedField (pForm (fun f => tileFmtOk f) y1 y2 (fun x => req (x.idx == 0 && x.sb == 0 && !x.na && !x.nb && !x.ad && !x.xi) .badExtended (.ok (.plda x.acc x.sa x.fmto)))))
  | 4 => req (len == 2) .badLen (req (b == 0 && a == 0 && d == 0) .reservedField (pForm (fun f => tileFmtOk f) y1 y2 (fun x => req (x.idx == 0 && x.sb == 0 && !x.na && !x.nb && !x.xi) .badExtended (.ok (.psta x.acc x.sa x.ad x.fmto)))))
  | 5 => req (len == 0) .badLen (req (b == 0 && a == 0) .reservedField (.ok (.pz d)))
  | 6 => req (len == 2) .badLen (req (b == 0 && a == 0 && d == 0) .reservedField (pForm (fun f => f == 11 || f == 18) y1 y2 (fun x => req (x.idx == 0 && x.sb == 0 && x.sa == 0 && !x.na && !x.nb && !x.ad && !x.xi) .badExtended (.ok (.pcvt x.acc x.fmto)))))
  | _ => .error .unassignedMinor

/-- Major 0x38 (03 R102, 08 R222). -/
def decodeWmk (fn b a d : BitVec 6) : Except Reject Instr :=
  match fn.toNat with
  | 0 => .ok (.wmcf d a b)
  | 1 => req (b == 0 && a == 0 && d == 0) .reservedField (.ok (.wmz))
  | 2 => req (d == 0) .reservedField (.ok (.wmst a b))
  | 3 => req (b == 0 && d == 0) .reservedField (.ok (.wmsn a))
  | 4 => req (d == 0) .reservedField (.ok (.wmjn a b))
  | 5 => req (d == 0) .reservedField (.ok (.wmlg a b))
  | 6 => req (b == 0) .reservedField (.ok (.wmrd d a))
  | _ => .error .unassignedMinor

/-- Major 0x3C (03 R102). -/
def decodePrv (fn b a d : BitVec 6) : Except Reject Instr :=
  match fn.toNat with
  | 0 => req (b == 0 && a == 0 && d == 0) .reservedField (.ok (.eret))
  | 1 => req (b == 0 && a == 0 && d == 0) .reservedField (.ok (.halt))
  | _ => .error .unassignedMinor
/-- Majors 0x01 to 0x05 and 0x09 (03 R76, R89). -/
def decodeImm (len : BitVec 2) (imm : BitVec 12) (lit : Word) (short : BitVec 12 → Instr) (long : Word → Instr) :
    Except Reject Instr :=
  match len.toNat with
  | 0 => .ok (short imm)
  | 1 => req (imm == 0) .reservedField (.ok (long lit))
  | _ => .error .badLen

/-- Major 0x06 (03 R91). -/
def decodeShi (imm : BitVec 12) (a d : Code) : Except Reject Instr :=
  let n : BitVec 7 := imm.extractLsb' 0 7
  let n6 : BitVec 6 := imm.extractLsb' 0 6
  req (imm[7] == false) .reservedField
    (match (imm.extractLsb' 8 4 : BitVec 4).toNat with
    | 0 => req (decide (n.toNat < 64)) .badField (.ok (.shlImm d a n6))
    | 1 => req (decide (n.toNat < 64)) .badField (.ok (.shrImm d a n6))
    | 2 => req (decide (n.toNat < 64)) .badField (.ok (.sarImm d a n6))
    | 3 => req (decide (n.toNat < 64)) .badField (.ok (.rolImm d a n6))
    | 4 => req (decide (1 ≤ n.toNat ∧ n.toNat ≤ 64)) .badField (.ok (.sext d a n))
    | 5 => req (decide (1 ≤ n.toNat ∧ n.toNat ≤ 64)) .badField (.ok (.zext d a n))
    | _ => .error .unassignedMinor)

/-- Majors 0x07 and 0x08 (03 R91). -/
def decodeBf (imm : BitVec 12) (k : BitVec 6 → BitVec 6 → Instr) : Except Reject Instr :=
  let pos : BitVec 6 := imm.extractLsb' 6 6
  let l : BitVec 6 := imm.extractLsb' 0 6
  req (decide (pos.toNat + l.toNat + 1 ≤ 64)) .badField (.ok (k pos l))

/-- Major 0x0A (03 R81, R92). -/
def decodeBc (len : BitVec 2) (disp : BitVec 8) (cond : BitVec 4) (b a : Code) (y1 y2 : Word32) : Except Reject Instr :=
  match len.toNat with
  | 0 =>
    if cond = 15 then req (b == 0) .reservedField (.ok (.loop a disp))
    else match Cond.ofCode cond.toNat with
      | some c => .ok (.bc c a b disp)
      | none => .error .badField
  | 2 =>
    match Cond.ofCode cond.toNat with
    | some c => req (disp == 0 && y2 == 0) .badExtended (.ok (.b c a b y1))
    | none => .error .badField
  | _ => .error .badLen

/-- Major 0x17 (03 R98). -/
def decodeWaitc (body : BitVec 24) : Except Reject Instr :=
  let cp : BitVec 7 := body.extractLsb' 10 7
  req (decide (cp.toNat ≤ 120 ∨ cp.toNat = 127)) .badField
    (.ok (.waitc (body.extractLsb' 0 5) (body.extractLsb' 5 5) cp (body.extractLsb' 17 4) (body.extractLsb' 21 3)))

/-- Major 0x3D, the hint space (03 R103): never rejected. Words beyond the length that LEN gives do not count. -/
def decodeHint (w y1 y2 y3 y4 : Word32) : Instr :=
  let body := bodyOf w
  match (lenOf w).toNat with
  | 0 =>
    match (body.extractLsb' 0 8 : BitVec 8).toNat with
    | 0 => .nop (body.extractLsb' 8 16)
    | 1 => .lpad (body.extractLsb' 8 16)
    | _ => .hint body 0 0 0 0 0
  | 1 => .hint body 1 y1 y2 0 0
  | 2 => .hint body 2 y1 y2 0 0
  | _ => .hint body 3 y1 y2 y3 y4

/-- Only LEN 0b00. -/
def len0 (len : BitVec 2) (k : Except Reject Instr) : Except Reject Instr := req (len == 0) .badLen k

/-- Only LEN 0b10. -/
def len2 (len : BitVec 2) (k : Except Reject Instr) : Except Reject Instr := req (len == 2) .badLen k

/-- The instruction of a base word whose fields are given, and of the words after it (03 R70, R89). -/
def decodeFields (maj fn b a d : BitVec 6) (len : BitVec 2) (w y1 y2 y3 y4 : Word32) : Except Reject Instr :=
  let imm := immOf w
  let lit := litOf y1 y2
  match maj.toNat with
  | 0x00 => len0 len (decodeInt fn b a d)
  | 0x01 => decodeImm len imm lit (.addImm d a) (.addLit d a)
  | 0x02 => decodeImm len imm lit (.subImm d a) (.subLit d a)
  | 0x03 => decodeImm len imm lit (.andImm d a) (.andLit d a)
  | 0x04 => decodeImm len imm lit (.orImm d a) (.orLit d a)
  | 0x05 => decodeImm len imm lit (.xorImm d a) (.xorLit d a)
  | 0x06 => len0 len (decodeShi imm a d)
  | 0x07 => len0 len (decodeBf imm (.bfx d a))
  | 0x08 => len0 len (decodeBf imm (.bfi d a))
  | 0x09 => req (a == 0) .reservedField (decodeImm len imm lit (.movi d) (.moviLit d))
  | 0x0A => decodeBc len (dispOf w) (condOf w) a d y1 y2
  | 0x0B => len0 len (.ok (.j (bodyOf w)))
  | 0x0C => len0 len (.ok (.call (bodyOf w)))
  | 0x0D => len0 len (decodeCtl fn b a d)
  | 0x0E => len0 len (req (a == 0) .reservedField (.ok (.rdsr d imm)))
  | 0x0F => len0 len (req (d == 0) .reservedField (.ok (.wrsr a imm)))
  | 0x10 => match len.toNat with
    | 0 => decodeSpm fn b a d
    | 2 => decodeSpmX fn b a d y1 y2
    | _ => .error .badLen
  | 0x11 => len0 len (.ok (.ldImm d a imm))
  | 0x12 => len0 len (.ok (.stImm d a imm))
  | 0x13 => len0 len (.ok (.ldgImm d a imm))
  | 0x14 => len0 len (.ok (.stgImm d a imm))
  | 0x15 => match len.toNat with
    | 0 => decodeGlb fn b a d
    | 2 => decodeGlbX fn b a d y1 y2
    | _ => .error .badLen
  | 0x16 => len0 len (decodeSync fn b a d)
  | 0x17 => len0 len (decodeWaitc (bodyOf w))
  | 0x18 => len2 len (req (b == 0) .reservedField (decodeColl fn a d y1 y2))
  | 0x19 => len2 len (req (y1.extractLsb' 6 26 == 0 && y2 == 0) .badExtended (decodeFab fn b a d (y1.extractLsb' 0 6)))
  | 0x20 => decodeFps fn b a d len y1 y2
  | 0x21 => decodeVar fn b a d len y1 y2 (litOf y3 y4)
  | 0x22 => decodeVcm fn b a d len y1 y2 (litOf y3 y4)
  | 0x23 => decodeVrd fn b a d len y1 y2
  | 0x24 => decodeVpm fn b a d len y1 y2 (litOf y3 y4)
  | 0x30 => decodePrs fn b a d len y1 y2
  | 0x38 => len0 len (decodeWmk fn b a d)
  | 0x3C => len0 len (decodePrv fn b a d)
  | 0x3D => .ok (decodeHint w y1 y2 y3 y4)
  | _ => .error .unassignedMajor

/-- The instruction of a base word and the words after it (03 R73). -/
def decode (w y1 y2 y3 y4 : Word32) : Except Reject Instr :=
  decodeFields (majOf w) (fnOf w) (bOf w) (aOf w) (dOf w) (lenOf w) w y1 y2 y3 y4

end

/-! ## The encoder -/

/-- The RR layout (03 R73). -/
def rr (fn b a d maj : BitVec 6) (len : BitVec 2) : Word32 := fn ++ b ++ a ++ d ++ maj ++ len

/-- The RI layout (03 R73). -/
def ri (imm : BitVec 12) (a d maj : BitVec 6) (len : BitVec 2) : Word32 := imm ++ a ++ d ++ maj ++ len

/-- The BC layout of major 0x0A (03 R73). -/
def bcw (disp : BitVec 8) (cond : BitVec 4) (b a : BitVec 6) (len : BitVec 2) : Word32 :=
  disp ++ cond ++ b ++ a ++ (0x0A : BitVec 6) ++ len

/-- The J and IM layouts under LEN 0b00 (03 R73). -/
def jw (body : BitVec 24) (maj : BitVec 6) : Word32 := body ++ maj ++ (0 : BitVec 2)

/-- A hint word of LEN 0b00 (03 R103). -/
def hintw (v : BitVec 16) (kind : BitVec 8) : Word32 := v ++ kind ++ (0x3D : BitVec 6) ++ (0 : BitVec 2)

/-- A hint of any length (03 R103). -/
def hintWords (body : BitVec 24) (len : BitVec 2) (x1 x2 x3 x4 : Word32) : List Word32 :=
  let w : Word32 := body ++ (0x3D : BitVec 6) ++ len
  if len = 0 then [w] else if len = 3 then [w, x1, x2, x3, x4] else [w, x1, x2]

/-- The op and amount fields of major 0x06 (03 R91). -/
def shiftImm (op : BitVec 4) (n : BitVec 7) : BitVec 12 := op ++ (0 : BitVec 1) ++ n

def litLo (l : Word) : Word32 := l.extractLsb' 0 32
def litHi (l : Word) : Word32 := l.extractLsb' 32 32

def LoadWidth.code : LoadWidth → BitVec 6
  | .w64 => 0 | .s32 => 1 | .s16 => 2 | .s8 => 3 | .z32 => 4 | .z16 => 5 | .z8 => 6

def StoreWidth.code : StoreWidth → BitVec 6
  | .w64 => 0 | .w32 => 1 | .w16 => 2 | .w8 => 3

def Cond.code : Cond → BitVec 4
  | .eq => 0 | .ne => 1 | .lt => 2 | .ge => 3 | .ltu => 4 | .geu => 5 | .gt => 6 | .le => 7 | .gtu => 8 | .leu => 9
  | .any => 10 | .none => 11

/-- The condition code as part of SETC's minor (03 R90). -/
def Cond.code6 (c : Cond) : BitVec 6 := c.code.setWidth 6

def Scope.code3 : Scope → BitVec 3
  | .thread => 0 | .core => 1 | .group => 2 | .quire => 3 | .device => 4 | .system => 5

/-- The scope code in FENCE's d field (03 R97). -/
def Scope.code6 (s : Scope) : BitVec 6 := s.code3.setWidth 6

def Ord.code : Ord → BitVec 2
  | .plain => 0 | .acquire => 1 | .release => 2 | .acqrel => 3

def CollMode.code : CollMode → BitVec 4
  | .wrap => 0 | .sat => 1 | .comp => 2 | .maxi => 3 | .mini => 4 | .max => 5 | .min => 6

def FPred.code : FPred → BitVec 6
  | .eq => 0 | .lt => 1 | .le => 2 | .un => 3

def VPred.code : VPred → BitVec 6
  | .eq => 0 | .ne => 1 | .lt => 2 | .le => 3 | .un => 4

/-- X1 of the memory family (03 R82). -/
def memX1 (off : BitVec 12) : Word32 := off.signExtend 32

/-- A flag bit. -/
def bit (b : Bool) : BitVec 1 := if b then 1 else 0

/-- X2 of the memory family (03 R82). -/
def memX2 (ox : OX) (me : Bool) (msk : BitVec 3) : Word32 :=
  (0 : BitVec 23) ++ ox.scope.code3 ++ ox.ord.code ++ bit me ++ msk

/-- X1 of the floating-point and vector family (03 R83). -/
def vecX1 (v : VX) (c : Code) : Word32 := (0 : BitVec 17) ++ v.fmto ++ bit v.me ++ v.msk ++ c

/-- X1 of the Press family (03 R85). -/
def prsX1 (fmto : BitVec 5) (idx : BitVec 4) (xi ad nb na : Bool) (sb sa acc : BitVec 3) : Word32 :=
  (0 : BitVec 10) ++ fmto ++ idx ++ bit xi ++ bit ad ++ bit nb ++ bit na ++ sb ++ sa ++ acc

/-- X1 of the collective family (03 R86). -/
def collX1 (fmto : BitVec 5) (mode : BitVec 4) (gid : BitVec 8) : Word32 := (0 : BitVec 15) ++ fmto ++ mode ++ gid

/-- Number of 32-bit words of an instruction (03 R69). -/
def Instr.words : Instr → Nat
  | .add _ _ _ => 1
  | .sub _ _ _ => 1
  | .mul _ _ _ => 1
  | .mulh _ _ _ => 1
  | .mulhu _ _ _ => 1
  | .div _ _ _ => 1
  | .divu _ _ _ => 1
  | .rem _ _ _ => 1
  | .remu _ _ _ => 1
  | .and _ _ _ => 1
  | .or _ _ _ => 1
  | .xor _ _ _ => 1
  | .andn _ _ _ => 1
  | .shl _ _ _ => 1
  | .shr _ _ _ => 1
  | .sar _ _ _ => 1
  | .rol _ _ _ => 1
  | .min _ _ _ => 1
  | .max _ _ _ => 1
  | .minu _ _ _ => 1
  | .maxu _ _ _ => 1
  | .clz _ _ => 1
  | .ctz _ _ => 1
  | .cpop _ _ => 1
  | .mov _ _ => 1
  | .sel _ _ _ => 1
  | .lea1 _ _ _ => 1
  | .lea2 _ _ _ => 1
  | .lea4 _ _ _ => 1
  | .lea8 _ _ _ => 1
  | .setc _ _ _ _ => 1
  | .addImm _ _ _ => 1
  | .addLit _ _ _ => 3
  | .subImm _ _ _ => 1
  | .subLit _ _ _ => 3
  | .andImm _ _ _ => 1
  | .andLit _ _ _ => 3
  | .orImm _ _ _ => 1
  | .orLit _ _ _ => 3
  | .xorImm _ _ _ => 1
  | .xorLit _ _ _ => 3
  | .movi _ _ => 1
  | .moviLit _ _ => 3
  | .shlImm _ _ _ => 1
  | .shrImm _ _ _ => 1
  | .sarImm _ _ _ => 1
  | .rolImm _ _ _ => 1
  | .sext _ _ _ => 1
  | .zext _ _ _ => 1
  | .bfx _ _ _ _ => 1
  | .bfi _ _ _ _ => 1
  | .bc _ _ _ _ => 1
  | .loop _ _ => 1
  | .b _ _ _ _ => 3
  | .j _ => 1
  | .call _ => 1
  | .ret _ => 1
  | .jmpt _ _ => 1
  | .yield => 1
  | .trap _ => 1
  | .spawn _ _ _ => 1
  | .exit => 1
  | .gang _ => 1
  | .ungang => 1
  | .rdsr _ _ => 1
  | .wrsr _ _ => 1
  | .ld _ _ _ _ => 1
  | .ldX _ _ _ _ _ => 3
  | .ldImm _ _ _ => 1
  | .st _ _ _ _ => 1
  | .stX _ _ _ _ _ => 3
  | .stImm _ _ _ => 1
  | .ldq _ _ _ _ => 1
  | .ldqX _ _ _ _ _ => 3
  | .stq _ _ _ _ => 1
  | .stqX _ _ _ _ _ => 3
  | .vld _ _ _ => 1
  | .vldX _ _ _ _ _ _ => 3
  | .vst _ _ _ => 1
  | .vstX _ _ _ _ _ _ => 3
  | .ldw _ _ _ => 1
  | .ldwX _ _ _ _ => 3
  | .ldg _ _ _ _ => 1
  | .ldgX _ _ _ _ _ _ => 3
  | .ldgImm _ _ _ => 1
  | .stg _ _ _ _ => 1
  | .stgX _ _ _ _ _ _ => 3
  | .stgImm _ _ _ => 1
  | .vldg _ _ _ => 1
  | .vldgX _ _ _ _ _ _ _ => 3
  | .vstg _ _ _ => 1
  | .vstgX _ _ _ _ _ _ _ => 3
  | .pref _ _ => 1
  | .prefX _ _ _ => 3
  | .flsh _ _ => 1
  | .flshX _ _ _ => 3
  | .amadd _ _ _ => 1
  | .amaddX _ _ _ _ _ => 3
  | .amswp _ _ _ => 1
  | .amswpX _ _ _ _ _ => 3
  | .amcas _ _ _ => 1
  | .amcasX _ _ _ _ _ => 3
  | .ammin _ _ _ => 1
  | .amminX _ _ _ _ _ => 3
  | .ammax _ _ _ => 1
  | .ammaxX _ _ _ _ _ => 3
  | .amminu _ _ _ => 1
  | .amminuX _ _ _ _ _ => 3
  | .ammaxu _ _ _ => 1
  | .ammaxuX _ _ _ _ _ => 3
  | .amand _ _ _ => 1
  | .amandX _ _ _ _ _ => 3
  | .amor _ _ _ => 1
  | .amorX _ _ _ _ _ => 3
  | .amxor _ _ _ => 1
  | .amxorX _ _ _ _ _ => 3
  | .amadd32 _ _ _ => 1
  | .amadd32X _ _ _ _ _ => 3
  | .amswp32 _ _ _ => 1
  | .amswp32X _ _ _ _ _ => 3
  | .amcas32 _ _ _ => 1
  | .amcas32X _ _ _ _ _ => 3
  | .ammin32 _ _ _ => 1
  | .ammin32X _ _ _ _ _ => 3
  | .ammax32 _ _ _ => 1
  | .ammax32X _ _ _ _ _ => 3
  | .amminu32 _ _ _ => 1
  | .amminu32X _ _ _ _ _ => 3
  | .ammaxu32 _ _ _ => 1
  | .ammaxu32X _ _ _ _ _ => 3
  | .amand32 _ _ _ => 1
  | .amand32X _ _ _ _ _ => 3
  | .amor32 _ _ _ => 1
  | .amor32X _ _ _ _ _ => 3
  | .amxor32 _ _ _ => 1
  | .amxor32X _ _ _ _ _ => 3
  | .fence _ _ => 1
  | .park _ _ => 1
  | .wait => 1
  | .cpy _ _ => 1
  | .exch _ => 1
  | .waitc _ _ _ _ _ => 1
  | .ared _ _ _ _ _ => 3
  | .rsct _ _ _ _ _ => 3
  | .agth _ _ _ _ => 3
  | .atoa _ _ _ _ => 3
  | .bcst _ _ _ _ _ => 3
  | .ored _ _ _ _ => 3
  | .puts _ _ _ _ => 3
  | .get _ _ _ => 3
  | .radd _ _ _ => 3
  | .apnd _ _ _ _ => 3
  | .fadd _ _ _ => 1
  | .faddX _ _ _ _ => 3
  | .fsub _ _ _ => 1
  | .fsubX _ _ _ _ => 3
  | .fmul _ _ _ => 1
  | .fmulX _ _ _ _ => 3
  | .ffma _ _ _ _ _ => 3
  | .fdiv _ _ _ => 1
  | .fdivX _ _ _ _ => 3
  | .fsqrt _ _ => 1
  | .fsqrtX _ _ _ => 3
  | .fmin _ _ _ => 1
  | .fminX _ _ _ _ => 3
  | .fmax _ _ _ => 1
  | .fmaxX _ _ _ _ => 3
  | .fcmp _ _ _ _ => 1
  | .fcmpX _ _ _ _ _ => 3
  | .fcvt _ _ _ _ => 3
  | .fcls _ _ => 1
  | .fclsX _ _ _ => 3
  | .vadd _ _ _ => 1
  | .vaddX _ _ _ _ => 3
  | .vaddLit _ _ _ _ => 5
  | .vsub _ _ _ => 1
  | .vsubX _ _ _ _ => 3
  | .vsubLit _ _ _ _ => 5
  | .vmul _ _ _ => 1
  | .vmulX _ _ _ _ => 3
  | .vmulLit _ _ _ _ => 5
  | .vfma _ _ _ _ _ => 3
  | .vfmaLit _ _ _ _ _ => 5
  | .vmin _ _ _ => 1
  | .vminX _ _ _ _ => 3
  | .vminLit _ _ _ _ => 5
  | .vmax _ _ _ => 1
  | .vmaxX _ _ _ _ => 3
  | .vmaxLit _ _ _ _ => 5
  | .vabs _ _ => 1
  | .vabsX _ _ _ => 3
  | .vneg _ _ => 1
  | .vnegX _ _ _ => 3
  | .vand _ _ _ => 1
  | .vandX _ _ _ _ => 3
  | .vandLit _ _ _ _ => 5
  | .vor _ _ _ => 1
  | .vorX _ _ _ _ => 3
  | .vorLit _ _ _ _ => 5
  | .vxor _ _ _ => 1
  | .vxorX _ _ _ _ => 3
  | .vxorLit _ _ _ _ => 5
  | .vshl _ _ _ => 1
  | .vshlX _ _ _ _ => 3
  | .vshlLit _ _ _ _ => 5
  | .vshr _ _ _ => 1
  | .vshrX _ _ _ _ => 3
  | .vshrLit _ _ _ _ => 5
  | .vsar _ _ _ => 1
  | .vsarX _ _ _ _ => 3
  | .vsarLit _ _ _ _ => 5
  | .vscl _ _ _ => 1
  | .vsclX _ _ _ _ => 3
  | .vsclLit _ _ _ _ => 5
  | .vrcp _ _ => 1
  | .vrcpX _ _ _ => 3
  | .vrsq _ _ => 1
  | .vrsqX _ _ _ => 3
  | .vex2 _ _ => 1
  | .vex2X _ _ _ => 3
  | .vlg2 _ _ => 1
  | .vlg2X _ _ _ => 3
  | .vcvt _ _ _ _ => 3
  | .vcmp _ _ _ _ => 1
  | .vcmpX _ _ _ _ _ => 3
  | .vcmpLit _ _ _ _ _ => 5
  | .vsel _ _ _ _ => 3
  | .vselLit _ _ _ _ => 5
  | .mand _ _ _ => 1
  | .mor _ _ _ => 1
  | .mnot _ _ => 1
  | .vred _ _ => 1
  | .vredX _ _ _ => 3
  | .vredSat _ _ => 1
  | .vredSatX _ _ _ => 3
  | .vrmx _ _ => 1
  | .vrmxX _ _ _ => 3
  | .vrmn _ _ => 1
  | .vrmnX _ _ _ => 3
  | .vprm _ _ _ => 1
  | .vprmX _ _ _ _ => 3
  | .vprmLit _ _ _ _ => 5
  | .vbrd _ _ => 1
  | .vbrdX _ _ _ => 3
  | .viot _ => 1
  | .viotX _ _ => 3
  | .vpck _ _ _ _ _ => 3
  | .vupk _ _ _ _ _ => 3
  | .vmv _ _ => 1
  | .vmvX _ _ _ => 3
  | .vins _ _ _ => 1
  | .vinsX _ _ _ _ => 3
  | .vext _ _ _ => 1
  | .vextX _ _ _ _ => 3
  | .pshp _ _ => 1
  | .pmm _ _ _ _ _ _ _ _ => 3
  | .pmmg _ _ _ _ _ _ _ _ _ => 3
  | .plda _ _ _ => 3
  | .psta _ _ _ _ => 3
  | .pz _ => 1
  | .pcvt _ _ => 3
  | .wmcf _ _ _ => 1
  | .wmz => 1
  | .wmst _ _ => 1
  | .wmsn _ => 1
  | .wmjn _ _ => 1
  | .wmlg _ _ => 1
  | .wmrd _ _ => 1
  | .eret => 1
  | .halt => 1
  | .nop _ => 1
  | .lpad _ => 1
  | .hint _ len _ _ _ _ => lenWords len
  | .spawnThreadReady _ _ => 0
  | .gangForm _ _ => 0
  | .remoteAccessPerformed _ => 0
  | .remoteReply _ => 0
  | .globalAccessComplete _ => 0
  | .parkWake _ _ => 0
  | .pressOpStart _ _ => 0
  | .pressOpComplete _ _ => 0
  | .watermarkAccept _ => 0
  | .watermarkComplete _ => 0
  | .copyRegistration _ => 0
  | .copyChunk _ => 0
  | .copyComplete _ => 0
  | .collectiveDelivery _ => 0
  | .fabricRequest _ _ => 0
  | .fabricAck _ _ _ => 0
  | .doorbell _ _ _ => 0
  | .qstatErrClear _ _ => 0
  | .write _ _ _ _ => 0
  | .signal _ _ _ _ _ => 0
  | .waitValue _ _ _ _ _ _ => 0
  | .waitValueComplete _ _ => 0
  | .writeSignal _ _ _ _ _ _ _ => 0
  | .indirect _ _ _ _ => 0
  | .pull _ _ _ _ _ => 0
  | .reamLoad _ _ _ => 0
  | .reamLoadComplete _ _ => 0
  | .selftest _ _ _ => 0
  | .selftestComplete _ _ => 0
  | .timestamp _ _ _ => 0
  | .fencePacket _ _ => 0
  | .fencePacketComplete _ _ => 0
  | .v2Packet _ _ _ => 0
  | .mload _ _ => 0
  | .mfree _ _ => 0
  | .pullWrite _ _ _ => 0
  | .nodeDispatch _ _ => 0
  | .launchComplete _ => 0
  | .displace _ _ => 0
  | .restore _ => 0
  | .restoreComplete _ _ => 0
  | .headboxRequest _ _ => 0
  | .headboxTokenRefill _ _ => 0
  | .deckleFetch _ => 0
  | .coreArrival _ => 0
  | .deckleFire _ _ => 0
  | .deckleRelease _ _ => 0
  | .feltProbePass _ => 0
  | .idleTreeReport _ => 0
  | .deadlockTrap _ => 0
  | .calenderFrame => 0
  | .softRequest _ _ => 0
  | .graceExpiry _ => 0
  | .saveComplete _ => 0
  | .killtExpiry _ => 0
  | .faultRecord _ => 0
  | .resume _ _ _ => 0
  | .hold _ _ _ => 0
  | .killNode _ _ => 0
  | .killContext _ _ => 0
  | .resetVd _ => 0
  | .memberResetNotice _ _ => 0
  | .machineCheck _ => 0
  | .mcStatusClear _ _ => 0
  | .patrolScrub _ _ => 0
  | .form _ => 0
  | .formationComplete _ => 0
  | .teardown _ => 0
  | .teardownComplete _ => 0
  | .tlbinv _ _ => 0
  | .tlbinvDone _ => 0
  | .ddstatSample => 0
  | .hostBar2Access _ _ _ _ => 0
  | .functionLevelReset _ => 0
  | .tvedtenFrame _ _ => 0
  | .pauseFrame _ _ _ => 0
  | .fwstageGo _ _ => 0
  | .firmwareCheckComplete => 0
  | .bringUp _ _ => 0
  | .bringUpComplete => 0
  | .thermalThrottle _ => 0
  | .thermalTrip => 0
  | .registerWrite _ _ _ => 0
  | .refreshWindowEnd _ => 0
  | .saving _ => 0

/-- The words of an instruction, base word first (03 R69); none for a step of the device. -/
def encode : Instr → List Word32
  | .add d a b => [rr 0 b a d 0 0]
  | .sub d a b => [rr 1 b a d 0 0]
  | .mul d a b => [rr 2 b a d 0 0]
  | .mulh d a b => [rr 3 b a d 0 0]
  | .mulhu d a b => [rr 4 b a d 0 0]
  | .div d a b => [rr 5 b a d 0 0]
  | .divu d a b => [rr 6 b a d 0 0]
  | .rem d a b => [rr 7 b a d 0 0]
  | .remu d a b => [rr 8 b a d 0 0]
  | .and d a b => [rr 9 b a d 0 0]
  | .or d a b => [rr 10 b a d 0 0]
  | .xor d a b => [rr 11 b a d 0 0]
  | .andn d a b => [rr 12 b a d 0 0]
  | .shl d a b => [rr 13 b a d 0 0]
  | .shr d a b => [rr 14 b a d 0 0]
  | .sar d a b => [rr 15 b a d 0 0]
  | .rol d a b => [rr 16 b a d 0 0]
  | .min d a b => [rr 17 b a d 0 0]
  | .max d a b => [rr 18 b a d 0 0]
  | .minu d a b => [rr 19 b a d 0 0]
  | .maxu d a b => [rr 20 b a d 0 0]
  | .clz d a => [rr 21 0 a d 0 0]
  | .ctz d a => [rr 22 0 a d 0 0]
  | .cpop d a => [rr 23 0 a d 0 0]
  | .mov d a => [rr 24 0 a d 0 0]
  | .sel d a b => [rr 25 b a d 0 0]
  | .lea1 d a b => [rr 26 b a d 0 0]
  | .lea2 d a b => [rr 27 b a d 0 0]
  | .lea4 d a b => [rr 28 b a d 0 0]
  | .lea8 d a b => [rr 29 b a d 0 0]
  | .setc c d a b => [rr (32 + c.code6) b a d 0 0]
  | .addImm d a imm => [ri imm a d 1 0]
  | .addLit d a lit => [ri 0 a d 1 1, litLo lit, litHi lit]
  | .subImm d a imm => [ri imm a d 2 0]
  | .subLit d a lit => [ri 0 a d 2 1, litLo lit, litHi lit]
  | .andImm d a imm => [ri imm a d 3 0]
  | .andLit d a lit => [ri 0 a d 3 1, litLo lit, litHi lit]
  | .orImm d a imm => [ri imm a d 4 0]
  | .orLit d a lit => [ri 0 a d 4 1, litLo lit, litHi lit]
  | .xorImm d a imm => [ri imm a d 5 0]
  | .xorLit d a lit => [ri 0 a d 5 1, litLo lit, litHi lit]
  | .movi d imm => [ri imm 0 d 9 0]
  | .moviLit d lit => [ri 0 0 d 9 1, litLo lit, litHi lit]
  | .shlImm d a n => [ri (shiftImm 0 (n.setWidth 7)) a d 6 0]
  | .shrImm d a n => [ri (shiftImm 1 (n.setWidth 7)) a d 6 0]
  | .sarImm d a n => [ri (shiftImm 2 (n.setWidth 7)) a d 6 0]
  | .rolImm d a n => [ri (shiftImm 3 (n.setWidth 7)) a d 6 0]
  | .sext d a n => [ri (shiftImm 4 n) a d 6 0]
  | .zext d a n => [ri (shiftImm 5 n) a d 6 0]
  | .bfx d a pos lenm1 => [ri (pos ++ lenm1) a d 7 0]
  | .bfi d a pos lenm1 => [ri (pos ++ lenm1) a d 8 0]
  | .bc c a b disp => [bcw disp c.code b a 0]
  | .loop a disp => [bcw disp 15 0 a 0]
  | .b c a b disp => [bcw 0 c.code b a 2, disp, 0]
  | .j disp => [jw disp 11]
  | .call disp => [jw disp 12]
  | .ret a => [rr 0 0 a 0 13 0]
  | .jmpt a b => [rr 1 b a 0 13 0]
  | .yield => [rr 2 0 0 0 13 0]
  | .trap n => [rr 3 (n.extractLsb' 6 6) (n.extractLsb' 0 6) 0 13 0]
  | .spawn d a b => [rr 4 b a d 13 0]
  | .exit => [rr 5 0 0 0 13 0]
  | .gang a => [rr 6 0 a 0 13 0]
  | .ungang => [rr 7 0 0 0 13 0]
  | .rdsr d num => [ri num 0 d 14 0]
  | .wrsr a num => [ri num a 0 15 0]
  | .ld w d a b => [rr w.code b a d 16 0]
  | .ldX w d a b off => [rr w.code b a d 16 2, memX1 off, memX2 OX.plain false 0]
  | .ldImm d a imm => [ri imm a d 17 0]
  | .st w d a b => [rr (8 + w.code) b a d 16 0]
  | .stX w d a b off => [rr (8 + w.code) b a d 16 2, memX1 off, memX2 OX.plain false 0]
  | .stImm d a imm => [ri imm a d 18 0]
  | .ldq w d a b => [rr (16 + w.code) b a d 16 0]
  | .ldqX w d a b off => [rr (16 + w.code) b a d 16 2, memX1 off, memX2 OX.plain false 0]
  | .stq w d a b => [rr (24 + w.code) b a d 16 0]
  | .stqX w d a b off => [rr (24 + w.code) b a d 16 2, memX1 off, memX2 OX.plain false 0]
  | .vld d a b => [rr 32 b a d 16 0]
  | .vldX d a b off me msk => [rr 32 b a d 16 2, memX1 off, memX2 OX.plain me msk]
  | .vst d a b => [rr 33 b a d 16 0]
  | .vstX d a b off me msk => [rr 33 b a d 16 2, memX1 off, memX2 OX.plain me msk]
  | .ldw d a b => [rr 34 b a d 16 0]
  | .ldwX d a b off => [rr 34 b a d 16 2, memX1 off, memX2 OX.plain false 0]
  | .ldg w d a b => [rr w.code b a d 21 0]
  | .ldgX w d a b off ox => [rr w.code b a d 21 2, memX1 off, memX2 ox false 0]
  | .ldgImm d a imm => [ri imm a d 19 0]
  | .stg w d a b => [rr (8 + w.code) b a d 21 0]
  | .stgX w d a b off ox => [rr (8 + w.code) b a d 21 2, memX1 off, memX2 ox false 0]
  | .stgImm d a imm => [ri imm a d 20 0]
  | .vldg d a b => [rr 16 b a d 21 0]
  | .vldgX d a b off ox me msk => [rr 16 b a d 21 2, memX1 off, memX2 ox me msk]
  | .vstg d a b => [rr 17 b a d 21 0]
  | .vstgX d a b off ox me msk => [rr 17 b a d 21 2, memX1 off, memX2 ox me msk]
  | .pref a b => [rr 18 b a 0 21 0]
  | .prefX a b off => [rr 18 b a 0 21 2, memX1 off, memX2 OX.plain false 0]
  | .flsh a b => [rr 19 b a 0 21 0]
  | .flshX a b off => [rr 19 b a 0 21 2, memX1 off, memX2 OX.plain false 0]
  | .amadd d a b => [rr 24 b a d 21 0]
  | .amaddX d a b off ox => [rr 24 b a d 21 2, memX1 off, memX2 ox false 0]
  | .amswp d a b => [rr 25 b a d 21 0]
  | .amswpX d a b off ox => [rr 25 b a d 21 2, memX1 off, memX2 ox false 0]
  | .amcas d a b => [rr 26 b a d 21 0]
  | .amcasX d a b off ox => [rr 26 b a d 21 2, memX1 off, memX2 ox false 0]
  | .ammin d a b => [rr 27 b a d 21 0]
  | .amminX d a b off ox => [rr 27 b a d 21 2, memX1 off, memX2 ox false 0]
  | .ammax d a b => [rr 28 b a d 21 0]
  | .ammaxX d a b off ox => [rr 28 b a d 21 2, memX1 off, memX2 ox false 0]
  | .amminu d a b => [rr 29 b a d 21 0]
  | .amminuX d a b off ox => [rr 29 b a d 21 2, memX1 off, memX2 ox false 0]
  | .ammaxu d a b => [rr 30 b a d 21 0]
  | .ammaxuX d a b off ox => [rr 30 b a d 21 2, memX1 off, memX2 ox false 0]
  | .amand d a b => [rr 31 b a d 21 0]
  | .amandX d a b off ox => [rr 31 b a d 21 2, memX1 off, memX2 ox false 0]
  | .amor d a b => [rr 32 b a d 21 0]
  | .amorX d a b off ox => [rr 32 b a d 21 2, memX1 off, memX2 ox false 0]
  | .amxor d a b => [rr 33 b a d 21 0]
  | .amxorX d a b off ox => [rr 33 b a d 21 2, memX1 off, memX2 ox false 0]
  | .amadd32 d a b => [rr 40 b a d 21 0]
  | .amadd32X d a b off ox => [rr 40 b a d 21 2, memX1 off, memX2 ox false 0]
  | .amswp32 d a b => [rr 41 b a d 21 0]
  | .amswp32X d a b off ox => [rr 41 b a d 21 2, memX1 off, memX2 ox false 0]
  | .amcas32 d a b => [rr 42 b a d 21 0]
  | .amcas32X d a b off ox => [rr 42 b a d 21 2, memX1 off, memX2 ox false 0]
  | .ammin32 d a b => [rr 43 b a d 21 0]
  | .ammin32X d a b off ox => [rr 43 b a d 21 2, memX1 off, memX2 ox false 0]
  | .ammax32 d a b => [rr 44 b a d 21 0]
  | .ammax32X d a b off ox => [rr 44 b a d 21 2, memX1 off, memX2 ox false 0]
  | .amminu32 d a b => [rr 45 b a d 21 0]
  | .amminu32X d a b off ox => [rr 45 b a d 21 2, memX1 off, memX2 ox false 0]
  | .ammaxu32 d a b => [rr 46 b a d 21 0]
  | .ammaxu32X d a b off ox => [rr 46 b a d 21 2, memX1 off, memX2 ox false 0]
  | .amand32 d a b => [rr 47 b a d 21 0]
  | .amand32X d a b off ox => [rr 47 b a d 21 2, memX1 off, memX2 ox false 0]
  | .amor32 d a b => [rr 48 b a d 21 0]
  | .amor32X d a b off ox => [rr 48 b a d 21 2, memX1 off, memX2 ox false 0]
  | .amxor32 d a b => [rr 49 b a d 21 0]
  | .amxor32X d a b off ox => [rr 49 b a d 21 2, memX1 off, memX2 ox false 0]
  | .fence scope set => [rr 0 0 set scope.code6 22 0]
  | .park a b => [rr 1 b a 0 22 0]
  | .wait => [rr 2 0 0 0 22 0]
  | .cpy a b => [rr 3 b a 0 22 0]
  | .exch a => [rr 4 0 a 0 22 0]
  | .waitc ld st cp pr cr => [jw (cr ++ pr ++ cp ++ st ++ ld) 23]
  | .ared d a fmto mode gid => [rr 0 0 a d 24 2, collX1 fmto mode.code gid, 0]
  | .rsct d a fmto mode gid => [rr 1 0 a d 24 2, collX1 fmto mode.code gid, 0]
  | .agth d a fmto gid => [rr 2 0 a d 24 2, collX1 fmto 0 gid, 0]
  | .atoa d a fmto gid => [rr 3 0 a d 24 2, collX1 fmto 0 gid, 0]
  | .bcst d a fmto gid root => [rr 4 0 a d 24 2, collX1 fmto 0 gid, root.setWidth 32]
  | .ored d a gid root => [rr 5 0 a d 24 2, collX1 0 0 gid, root.setWidth 32]
  | .puts d a b c => [rr 0 b a d 25 2, c.setWidth 32, 0]
  | .get a b c => [rr 1 b a 0 25 2, c.setWidth 32, 0]
  | .radd a b c => [rr 2 b a 0 25 2, c.setWidth 32, 0]
  | .apnd d a b c => [rr 3 b a d 25 2, c.setWidth 32, 0]
  | .fadd d a b => [rr 0 b a d 32 0]
  | .faddX d a b fmto => [rr 0 b a d 32 2, vecX1 ⟨fmto, false, 0⟩ 0, 0]
  | .fsub d a b => [rr 1 b a d 32 0]
  | .fsubX d a b fmto => [rr 1 b a d 32 2, vecX1 ⟨fmto, false, 0⟩ 0, 0]
  | .fmul d a b => [rr 2 b a d 32 0]
  | .fmulX d a b fmto => [rr 2 b a d 32 2, vecX1 ⟨fmto, false, 0⟩ 0, 0]
  | .ffma d a b c fmto => [rr 3 b a d 32 2, vecX1 ⟨fmto, false, 0⟩ c, 0]
  | .fdiv d a b => [rr 4 b a d 32 0]
  | .fdivX d a b fmto => [rr 4 b a d 32 2, vecX1 ⟨fmto, false, 0⟩ 0, 0]
  | .fsqrt d a => [rr 5 0 a d 32 0]
  | .fsqrtX d a fmto => [rr 5 0 a d 32 2, vecX1 ⟨fmto, false, 0⟩ 0, 0]
  | .fmin d a b => [rr 6 b a d 32 0]
  | .fminX d a b fmto => [rr 6 b a d 32 2, vecX1 ⟨fmto, false, 0⟩ 0, 0]
  | .fmax d a b => [rr 7 b a d 32 0]
  | .fmaxX d a b fmto => [rr 7 b a d 32 2, vecX1 ⟨fmto, false, 0⟩ 0, 0]
  | .fcmp p d a b => [rr (8 + p.code) b a d 32 0]
  | .fcmpX p d a b fmto => [rr (8 + p.code) b a d 32 2, vecX1 ⟨fmto, false, 0⟩ 0, 0]
  | .fcvt d a fmto fmtd => [rr 12 0 a d 32 2, vecX1 ⟨fmto, false, 0⟩ 0, fmtd.setWidth 32]
  | .fcls d a => [rr 13 0 a d 32 0]
  | .fclsX d a fmto => [rr 13 0 a d 32 2, vecX1 ⟨fmto, false, 0⟩ 0, 0]
  | .vadd d a b => [rr 0 b a d 33 0]
  | .vaddX d a b vx => [rr 0 b a d 33 2, vecX1 vx 0, 0]
  | .vaddLit d a lit vx => [rr 0 63 a d 33 3, vecX1 vx 0, 0, litLo lit, litHi lit]
  | .vsub d a b => [rr 1 b a d 33 0]
  | .vsubX d a b vx => [rr 1 b a d 33 2, vecX1 vx 0, 0]
  | .vsubLit d a lit vx => [rr 1 63 a d 33 3, vecX1 vx 0, 0, litLo lit, litHi lit]
  | .vmul d a b => [rr 2 b a d 33 0]
  | .vmulX d a b vx => [rr 2 b a d 33 2, vecX1 vx 0, 0]
  | .vmulLit d a lit vx => [rr 2 63 a d 33 3, vecX1 vx 0, 0, litLo lit, litHi lit]
  | .vfma d a b c vx => [rr 3 b a d 33 2, vecX1 vx c, 0]
  | .vfmaLit d a lit c vx => [rr 3 63 a d 33 3, vecX1 vx c, 0, litLo lit, litHi lit]
  | .vmin d a b => [rr 4 b a d 33 0]
  | .vminX d a b vx => [rr 4 b a d 33 2, vecX1 vx 0, 0]
  | .vminLit d a lit vx => [rr 4 63 a d 33 3, vecX1 vx 0, 0, litLo lit, litHi lit]
  | .vmax d a b => [rr 5 b a d 33 0]
  | .vmaxX d a b vx => [rr 5 b a d 33 2, vecX1 vx 0, 0]
  | .vmaxLit d a lit vx => [rr 5 63 a d 33 3, vecX1 vx 0, 0, litLo lit, litHi lit]
  | .vabs d a => [rr 6 0 a d 33 0]
  | .vabsX d a vx => [rr 6 0 a d 33 2, vecX1 vx 0, 0]
  | .vneg d a => [rr 7 0 a d 33 0]
  | .vnegX d a vx => [rr 7 0 a d 33 2, vecX1 vx 0, 0]
  | .vand d a b => [rr 8 b a d 33 0]
  | .vandX d a b vx => [rr 8 b a d 33 2, vecX1 vx 0, 0]
  | .vandLit d a lit vx => [rr 8 63 a d 33 3, vecX1 vx 0, 0, litLo lit, litHi lit]
  | .vor d a b => [rr 9 b a d 33 0]
  | .vorX d a b vx => [rr 9 b a d 33 2, vecX1 vx 0, 0]
  | .vorLit d a lit vx => [rr 9 63 a d 33 3, vecX1 vx 0, 0, litLo lit, litHi lit]
  | .vxor d a b => [rr 10 b a d 33 0]
  | .vxorX d a b vx => [rr 10 b a d 33 2, vecX1 vx 0, 0]
  | .vxorLit d a lit vx => [rr 10 63 a d 33 3, vecX1 vx 0, 0, litLo lit, litHi lit]
  | .vshl d a b => [rr 11 b a d 33 0]
  | .vshlX d a b vx => [rr 11 b a d 33 2, vecX1 vx 0, 0]
  | .vshlLit d a lit vx => [rr 11 63 a d 33 3, vecX1 vx 0, 0, litLo lit, litHi lit]
  | .vshr d a b => [rr 12 b a d 33 0]
  | .vshrX d a b vx => [rr 12 b a d 33 2, vecX1 vx 0, 0]
  | .vshrLit d a lit vx => [rr 12 63 a d 33 3, vecX1 vx 0, 0, litLo lit, litHi lit]
  | .vsar d a b => [rr 13 b a d 33 0]
  | .vsarX d a b vx => [rr 13 b a d 33 2, vecX1 vx 0, 0]
  | .vsarLit d a lit vx => [rr 13 63 a d 33 3, vecX1 vx 0, 0, litLo lit, litHi lit]
  | .vscl d a b => [rr 14 b a d 33 0]
  | .vsclX d a b vx => [rr 14 b a d 33 2, vecX1 vx 0, 0]
  | .vsclLit d a lit vx => [rr 14 63 a d 33 3, vecX1 vx 0, 0, litLo lit, litHi lit]
  | .vrcp d a => [rr 15 0 a d 33 0]
  | .vrcpX d a vx => [rr 15 0 a d 33 2, vecX1 vx 0, 0]
  | .vrsq d a => [rr 16 0 a d 33 0]
  | .vrsqX d a vx => [rr 16 0 a d 33 2, vecX1 vx 0, 0]
  | .vex2 d a => [rr 17 0 a d 33 0]
  | .vex2X d a vx => [rr 17 0 a d 33 2, vecX1 vx 0, 0]
  | .vlg2 d a => [rr 18 0 a d 33 0]
  | .vlg2X d a vx => [rr 18 0 a d 33 2, vecX1 vx 0, 0]
  | .vcvt d a vx fmtd => [rr 19 0 a d 33 2, vecX1 vx 0, fmtd.setWidth 32]
  | .vcmp p d a b => [rr p.code b a d 34 0]
  | .vcmpX p d a b vx => [rr p.code b a d 34 2, vecX1 vx 0, 0]
  | .vcmpLit p d a lit vx => [rr p.code 63 a d 34 3, vecX1 vx 0, 0, litLo lit, litHi lit]
  | .vsel d a b vx => [rr 8 b a d 34 2, vecX1 vx 0, 0]
  | .vselLit d a lit vx => [rr 8 63 a d 34 3, vecX1 vx 0, 0, litLo lit, litHi lit]
  | .mand d a b => [rr 9 b a d 34 0]
  | .mor d a b => [rr 10 b a d 34 0]
  | .mnot d a => [rr 11 0 a d 34 0]
  | .vred d a => [rr 0 0 a d 35 0]
  | .vredX d a vx => [rr 0 0 a d 35 2, vecX1 vx 0, 0]
  | .vredSat d a => [rr 1 0 a d 35 0]
  | .vredSatX d a vx => [rr 1 0 a d 35 2, vecX1 vx 0, 0]
  | .vrmx d a => [rr 2 0 a d 35 0]
  | .vrmxX d a vx => [rr 2 0 a d 35 2, vecX1 vx 0, 0]
  | .vrmn d a => [rr 3 0 a d 35 0]
  | .vrmnX d a vx => [rr 3 0 a d 35 2, vecX1 vx 0, 0]
  | .vprm d a b => [rr 0 b a d 36 0]
  | .vprmX d a b vx => [rr 0 b a d 36 2, vecX1 vx 0, 0]
  | .vprmLit d a lit vx => [rr 0 63 a d 36 3, vecX1 vx 0, 0, litLo lit, litHi lit]
  | .vbrd d a => [rr 1 0 a d 36 0]
  | .vbrdX d a vx => [rr 1 0 a d 36 2, vecX1 vx 0, 0]
  | .viot d => [rr 2 0 0 d 36 0]
  | .viotX d vx => [rr 2 0 0 d 36 2, vecX1 vx 0, 0]
  | .vpck d a b vx fmtd => [rr 3 b a d 36 2, vecX1 vx 0, fmtd.setWidth 32]
  | .vupk d a b vx fmtd => [rr 4 b a d 36 2, vecX1 vx 0, fmtd.setWidth 32]
  | .vmv d a => [rr 5 0 a d 36 0]
  | .vmvX d a vx => [rr 5 0 a d 36 2, vecX1 vx 0, 0]
  | .vins d a b => [rr 6 b a d 36 0]
  | .vinsX d a b fmto => [rr 6 b a d 36 2, vecX1 ⟨fmto, false, 0⟩ 0, 0]
  | .vext d a b => [rr 7 b a d 36 0]
  | .vextX d a b fmto => [rr 7 b a d 36 2, vecX1 ⟨fmto, false, 0⟩ 0, 0]
  | .pshp d a => [rr 0 0 a d 48 0]
  | .pmm acc sa sb na nb ad xi fmto => [rr 1 0 0 0 48 2, prsX1 fmto 0 xi ad nb na sb sa acc, 0]
  | .pmmg acc sa sb idx na nb ad xi fmto => [rr 2 0 0 0 48 2, prsX1 fmto idx xi ad nb na sb sa acc, 0]
  | .plda acc sa fmto => [rr 3 0 0 0 48 2, prsX1 fmto 0 false false false false 0 sa acc, 0]
  | .psta acc sa ad fmto => [rr 4 0 0 0 48 2, prsX1 fmto 0 false ad false false 0 sa acc, 0]
  | .pz d => [rr 5 0 0 d 48 0]
  | .pcvt acc fmto => [rr 6 0 0 0 48 2, prsX1 fmto 0 false false false false 0 0 acc, 0]
  | .wmcf d a b => [rr 0 b a d 56 0]
  | .wmz => [rr 1 0 0 0 56 0]
  | .wmst a b => [rr 2 b a 0 56 0]
  | .wmsn a => [rr 3 0 a 0 56 0]
  | .wmjn a b => [rr 4 b a 0 56 0]
  | .wmlg a b => [rr 5 b a 0 56 0]
  | .wmrd d a => [rr 6 0 a d 56 0]
  | .eret => [rr 0 0 0 0 60 0]
  | .halt => [rr 1 0 0 0 60 0]
  | .nop v => [hintw v 0]
  | .lpad v => [hintw v 1]
  | .hint body len x1 x2 x3 x4 => hintWords body len x1 x2 x3 x4
  | .spawnThreadReady _ _ => []
  | .gangForm _ _ => []
  | .remoteAccessPerformed _ => []
  | .remoteReply _ => []
  | .globalAccessComplete _ => []
  | .parkWake _ _ => []
  | .pressOpStart _ _ => []
  | .pressOpComplete _ _ => []
  | .watermarkAccept _ => []
  | .watermarkComplete _ => []
  | .copyRegistration _ => []
  | .copyChunk _ => []
  | .copyComplete _ => []
  | .collectiveDelivery _ => []
  | .fabricRequest _ _ => []
  | .fabricAck _ _ _ => []
  | .doorbell _ _ _ => []
  | .qstatErrClear _ _ => []
  | .write _ _ _ _ => []
  | .signal _ _ _ _ _ => []
  | .waitValue _ _ _ _ _ _ => []
  | .waitValueComplete _ _ => []
  | .writeSignal _ _ _ _ _ _ _ => []
  | .indirect _ _ _ _ => []
  | .pull _ _ _ _ _ => []
  | .reamLoad _ _ _ => []
  | .reamLoadComplete _ _ => []
  | .selftest _ _ _ => []
  | .selftestComplete _ _ => []
  | .timestamp _ _ _ => []
  | .fencePacket _ _ => []
  | .fencePacketComplete _ _ => []
  | .v2Packet _ _ _ => []
  | .mload _ _ => []
  | .mfree _ _ => []
  | .pullWrite _ _ _ => []
  | .nodeDispatch _ _ => []
  | .launchComplete _ => []
  | .displace _ _ => []
  | .restore _ => []
  | .restoreComplete _ _ => []
  | .headboxRequest _ _ => []
  | .headboxTokenRefill _ _ => []
  | .deckleFetch _ => []
  | .coreArrival _ => []
  | .deckleFire _ _ => []
  | .deckleRelease _ _ => []
  | .feltProbePass _ => []
  | .idleTreeReport _ => []
  | .deadlockTrap _ => []
  | .calenderFrame => []
  | .softRequest _ _ => []
  | .graceExpiry _ => []
  | .saveComplete _ => []
  | .killtExpiry _ => []
  | .faultRecord _ => []
  | .resume _ _ _ => []
  | .hold _ _ _ => []
  | .killNode _ _ => []
  | .killContext _ _ => []
  | .resetVd _ => []
  | .memberResetNotice _ _ => []
  | .machineCheck _ => []
  | .mcStatusClear _ _ => []
  | .patrolScrub _ _ => []
  | .form _ => []
  | .formationComplete _ => []
  | .teardown _ => []
  | .teardownComplete _ => []
  | .tlbinv _ _ => []
  | .tlbinvDone _ => []
  | .ddstatSample => []
  | .hostBar2Access _ _ _ _ => []
  | .functionLevelReset _ => []
  | .tvedtenFrame _ _ => []
  | .pauseFrame _ _ _ => []
  | .fwstageGo _ _ => []
  | .firmwareCheckComplete => []
  | .bringUp _ _ => []
  | .bringUpComplete => []
  | .thermalThrottle _ => []
  | .thermalTrip => []
  | .registerWrite _ _ _ => []
  | .refreshWindowEnd _ => []
  | .saving _ => []

/-! ## Words as bytes and as table numbers -/

/-- The little-endian bytes of a word (03 R69). -/
def wordBytes (w : Word32) : List Byte :=
  [w.extractLsb' 0 8, w.extractLsb' 8 8, w.extractLsb' 16 8, w.extractLsb' 24 8]

/-- The word at a byte position of a byte string, little-endian (03 R69); bytes beyond the string read zero. -/
def wordAt (bs : List Byte) (i : Nat) : Word32 :=
  bs.getD (i + 3) 0 ++ bs.getD (i + 2) 0 ++ bs.getD (i + 1) 0 ++ bs.getD i 0

/-- The instruction that a byte string begins with. -/
noncomputable def decodeBytes (bs : List Byte) : Except Reject Instr :=
  decode (wordAt bs 0) (wordAt bs 4) (wordAt bs 8) (wordAt bs 12) (wordAt bs 16)

/-- The instruction that a list of words begins with; words beyond the list read zero. -/
noncomputable def decodeWords (ws : List Word32) : Except Reject Instr :=
  decode (ws.getD 0 0) (ws.getD 1 0) (ws.getD 2 0) (ws.getD 3 0) (ws.getD 4 0)

/-- The byte string of an instruction whose bits are w, bit 0 the least significant of the first word: 20 bytes, the
longest instruction. -/
def tableBytes (nbits w : Nat) : List Byte :=
  (List.range 20).map (fun i => BitVec.ofNat 8 ((w % 2 ^ nbits) >>> (8 * i)))

/-- The instruction that the decoder reads from an instruction whose bits are w (numbered as opcode_table.json). -/
noncomputable def decodeTableWord (nbits w : Nat) : Option Instr :=
  match decodeBytes (tableBytes nbits w) with
  | .ok i => some i
  | .error _ => none

end Sys2Proof
end

