-- ==== Sys2Proof/Mould.lean ====
section
/-!
DEFINITION. What a mould says (01_notation_listing.md R21 to R29, 13 R303, R308), as plain data. The spec gives no byte layout of a
mould image, so Config.lean reads an image into this form by functions without a body (DESIGN CHOICE, log 13).
-/
namespace Sys2Proof

/-- A node of a mould: an .entry with its fields, group table, deckle stream, shapes and plan (01 R22 to R29). -/
structure NodeDesc where
  /-- offset of the code image in the mould image, and its length (13 R303) -/
  codeOff : Nat
  codeLen : Nat
  hLo     : Nat
  hHi     : Nat
  /-- code offset of the .entry label -/
  entry   : Nat
  threads : Nat
  wp      : Nat
  prio    : Nat
  /-- predecessors: node indices, copy nodes after the .entry nodes -/
  preds   : List Nat
  /-- argument block, and its fields as offset and size -/
  args    : List Byte
  fields  : List (Nat × Nat)
  /-- gid, members h in ascending order, level tag -/
  groups  : List (Nat × List Nat × Nat)
  deckle  : List Word32
  /-- shape records that are named, by number -/
  shapes  : List (Nat × BitVec 256)
  plan    : List Byte
  deriving DecidableEq, Repr, Inhabited

/-- A copy node: a CPY descriptor of the mould (13 R308). -/
structure CopyDesc where
  desc  : List Byte
  preds : List Nat
  deriving DecidableEq, Repr, Inhabited

/-- A scratch data section: the cores that it names, none for all (01 R24). -/
structure DataSec where
  cores : Option (Nat × Nat)
  off   : Nat
  bytes : List Byte
  deriving DecidableEq, Repr, Inhabited

structure Mould where
  prio   : Nat
  queue  : Nat
  nodes  : List NodeDesc
  copies : List CopyDesc
  data   : List DataSec
  deriving DecidableEq, Repr, Inhabited

/-- An argument field lies in the block, aligned to its size (01 R27). -/
def fieldFits (n : NodeDesc) (f : Nat × Nat) : Bool :=
  [1, 2, 4, 8].contains f.2 && decide (f.1 % f.2 = 0 ∧ f.1 + f.2 ≤ n.args.length)

/-- A group of the table: its number, its cores in the node's range, and its level tag; no core is in more than four (01 R28). -/
def groupsFit (n : NodeDesc) : Bool :=
  n.groups.all (fun (g, ms, l) => decide (g < 256 ∧ l ≤ 8) && ms.all (fun h => decide (n.hLo ≤ h ∧ h ≤ n.hHi)))
    && (n.groups.flatMap (fun (_, ms, _) => ms)).all (fun h => decide ((n.groups.filter (fun g => g.2.1.contains h)).length ≤ 4))

/-- A node obeys 01 R22, R23, R26 to R28, 11 R279, 13 R303 in a quire of this length and an image of this length, with so many nodes
that it may name as predecessors (DESIGN CHOICE, log 13). -/
def NodeDesc.fits (n : NodeDesc) (qlen len nodes : Nat) : Bool :=
  decide (n.hLo ≤ n.hHi ∧ n.hHi < qlen ∧ 1 ≤ n.threads ∧ n.threads ≤ 4 ∧ n.wp % 0x400 = 0 ∧ n.wp + n.threads * 0xC00 ≤ 0x3FC00
    ∧ n.codeOff + n.codeLen ≤ len ∧ n.entry % 4 = 0 ∧ n.entry < n.codeLen ∧ n.args.length ≤ 1024 ∧ n.prio ≤ 3
    ∧ n.plan.length ≤ 4096)
  && n.preds.all (· < nodes) && n.fields.all (fieldFits n) && groupsFit n && n.shapes.all (fun x => decide (x.1 < 8))

/-- A data section ends at or below the argument block (01 R24). -/
def DataSec.fits (d : DataSec) : Bool := decide (d.off + d.bytes.length ≤ 0x3FC00)

/-- A section goes to some of the cores a to b: to those that it names, or to every core of every .entry (01 R24). -/
def DataSec.goesTo (ns : List NodeDesc) (d : DataSec) (a b : Nat) : Bool :=
  match d.cores with
  | some (c, f) => decide (a ≤ f ∧ c ≤ b)
  | none => ns.any (fun n => decide (a ≤ n.hHi ∧ n.hLo ≤ b))

/-- Two data sections go to a core in common and overlap there (01 R24). -/
def DataSec.clash (ns : List NodeDesc) (d e : DataSec) : Bool :=
  decide (d.off < e.off + e.bytes.length ∧ e.off < d.off + d.bytes.length ∧ d.bytes ≠ [] ∧ e.bytes ≠ []) &&
    (match d.cores, e.cores with
      | some (a, b), _ => e.goesTo ns a b
      | none, some (a, b) => d.goesTo ns a b
      | none, none => !ns.isEmpty)

def noClash (ns : List NodeDesc) : List DataSec → Bool
  | [] => true
  | d :: t => !t.any (d.clash ns) && noClash ns t

/-- The image is well formed and its nodes fit the quire (13 R303, STAT 4). -/
def Mould.fits (m : Mould) (qlen len : Nat) : Bool :=
  let k := m.nodes.length + m.copies.length
  m.nodes.all (·.fits qlen len k) && m.copies.all (fun c => c.preds.all (· < k)) && m.data.all DataSec.fits && noClash m.nodes m.data
    && decide (m.queue < 64 ∧ m.prio ≤ 3)

end Sys2Proof
end

