-- ==== Sys2Proof/Config.lean ====
section
/-!
DEFINITION. What the spec fixes for the part, and what it leaves open. An open value is an `opaque` constant: nothing
can evaluate it, so a claim holds whatever it is. Each is named in the assumption log.
-/
namespace Sys2Proof.Config

/-! ## Sizes (00_scope.md R3, R5, 02 R59, R62) -/

/-- Array cores. -/
def cores : Nat := 4096
/-- Bytes of a scratchpad. -/
def spadBytes : Nat := 0x40000
/-- Bytes of a Ream slice. -/
def reamBytes : Nat := 0x80000
/-- Bytes of a workspace (02 R46). -/
def workspaceBytes : Nat := 3072
/-- Bytes of the register area of a workspace (02 R46). -/
def registerBytes : Nat := 2688

/-! ## Open values -/

/-- A value that the spec leaves open, fresh for each draw (DESIGN CHOICE, log 4). -/
opaque freeWord : Nat → Word
/-- A time or a choice that the spec leaves open, fresh for each draw (DESIGN CHOICE, log 6). -/
opaque freeNat : Nat → Nat
/-- Entry of the resident handler in words, 17 R363 (DESIGN CHOICE, log 8). -/
opaque handlerWord : Nat
/-- Entry of the resident handler. -/
def handlerEntry : Word := BitVec.ofNat 64 (4 * handlerWord)
/-- Verdict of the signature check on a firmware image or a mould, 19 R399, 13 R303 (DESIGN CHOICE, log 13). -/
opaque signatureOk : List Byte → Bool
/-- The configuration hash over quire length, Ream share in KiB and channels, 16 R337 (DESIGN CHOICE, log 13). -/
opaque configHash : Nat → Nat → Nat → Word
/-- The length that the header of a mould image gives, none where no signature block is found, 13 R303 (DESIGN CHOICE, log 13). -/
opaque mouldLength : List Byte → Option Nat
/-- The configuration hash that a mould image holds, 13 R303 (DESIGN CHOICE, log 13). -/
opaque mouldHash : List Byte → Word
/-- What a mould image says, none where it is malformed, 13 R303 (DESIGN CHOICE, log 13). -/
opaque mouldOf : List Byte → Option Mould
/-- The fibre hash of a line's bytes and its virtual device, 48 bits, 16 R352, 10 R406 (DESIGN CHOICE, log 58). -/
opaque fibreHash : Nat → List Byte → Nat
/-- The set of a Vat slice in which a line's tag stands, 256 of them (DESIGN CHOICE, log 58). -/
opaque vatSet : Nat → Nat
/-- The Vat slice whose TLB serves a virtual page of a virtual device, 16 R347 (DESIGN CHOICE, log 59). -/
opaque tlbSlice : Nat → Nat → Nat
/-- The contexts for which a virtual device's fault server keeps the stream policy: firmware, 17 R368, 18 R390 (DESIGN CHOICE, log 60). -/
opaque streamPolicy : Nat → Nat → Bool
/-- The resident handler's code in a firmware image, 17 R363 (DESIGN CHOICE, log 8). -/
opaque handlerImage : List Byte → List Byte
/-- The bytes of a part of the save image from the words that it holds, where the spec gives the words and no place for them, 17 R370 to
R373 (DESIGN CHOICE, log 12). -/
opaque imageLayout : Nat → List Word → List Byte
/-- Version and rollback counter of a firmware image, 19 R399 (DESIGN CHOICE, log 13). -/
opaque imageVersion : List Byte → BitVec 32
opaque imageRollback : List Byte → Nat

end Sys2Proof.Config
end

