-- ==== Sys2Proof/Machine/Store.lean ====
section
/-!
DEFINITION. Sparse storage as plain data: tables keyed by number, and memories, which are tables of bytes in one
canonical form (addresses strictly rising, no entry equal to what an unlisted address reads as).
-/
namespace Sys2Proof.Machine

/-- A table keyed by number, keys strictly rising. -/
abbrev Tab (α : Type) := List (Nat × α)

/-- The entry of key k. -/
def tabGet {α : Type} : Tab α → Nat → Option α
  | [], _ => none
  | (j, v) :: t, k => if j = k then some v else tabGet t k

/-- The table with entry k set to v. -/
def tabSet {α : Type} : Tab α → Nat → α → Tab α
  | [], k, v => [(k, v)]
  | (j, w) :: t, k, v =>
    if k < j then (k, v) :: (j, w) :: t
    else if k = j then (k, v) :: t
    else (j, w) :: tabSet t k v

/-- The table without entry k. -/
def tabErase {α : Type} : Tab α → Nat → Tab α
  | [], _ => []
  | (j, w) :: t, k => if j = k then tabErase t k else (j, w) :: tabErase t k

/-- The keys of a table. -/
def tabKeys {α : Type} (t : Tab α) : List Nat := t.map (·.1)

/-- A memory: the bytes that differ from `unlistedByte`, by address. -/
abbrev Memory := List Host.Cell

/-- What an address reads as that a memory does not list: every memory of the device is zeroed before a tenant can read
it (19 R402, 16 R338), and a launch zeroes what it does not load (02 R55). -/
def unlistedByte : Byte := 0

/-- The byte at an address. -/
def memRead (m : Memory) (a : Nat) : Byte := (tabGet m a).getD unlistedByte

/-- The memory after a write of one byte; writing what an unlisted address reads as removes the entry. -/
def memWrite (m : Memory) (a : Nat) (b : Byte) : Memory :=
  if b = unlistedByte then tabErase m a else tabSet m a b

/-- Addresses strictly rise from k on, and no entry equals what an unlisted address reads as. -/
def memWfFrom : Nat → Memory → Bool
  | _, [] => true
  | k, (a, b) :: t => decide (k ≤ a) && b != unlistedByte && memWfFrom (a + 1) t

/-- The canonical form of a memory. -/
abbrev Memory.wf (m : Memory) : Bool := memWfFrom 0 m

/-- n bytes from address a, lowest address first. -/
def memBytes (m : Memory) (a : Nat) : Nat → List Byte
  | 0 => []
  | n + 1 => memRead m a :: memBytes m (a + 1) n

/-- The memory after the bytes are written from address a on. -/
def memPut (m : Memory) (a : Nat) : List Byte → Memory
  | [] => m
  | b :: bs => memPut (memWrite m a b) (a + 1) bs

/-- The number that little-endian bytes hold. -/
def leNat : List Byte → Nat
  | [] => 0
  | b :: bs => b.toNat + 256 * leNat bs

/-- The n little-endian bytes of a number. -/
def leBytes : Nat → Nat → List Byte
  | 0, _ => []
  | n + 1, v => BitVec.ofNat 8 v :: leBytes n (v / 256)

/-- A set of numbers, strictly rising, without repeats. -/
def setInsert (l : List Nat) (k : Nat) : List Nat :=
  match l with
  | [] => [k]
  | j :: t => if k < j then k :: j :: t else if k = j then j :: t else j :: setInsert t k

end Sys2Proof.Machine
end

