-- ==== Sys2Proof/Machine/State.lean ====
section
/-!
DEFINITION. The state of the KA-6410 as plain data: every register, memory, queue and operation in progress that the spec
names, and the counters of the model itself. INVENTORY.md lists each with its rule and its reset value.
-/
namespace Sys2Proof.Machine

/-- Why a step stops the machine. -/
inductive Fault where
  /-- `exec` was asked to run a thread's instruction while the current slot holds no thread. Raised by the meanings of the
  instructions; no run reaches it, because `step` runs only a resident thread's instruction. Safe: the model stops. -/
  | noThread
  deriving DecidableEq, Repr

/-- Why a step has no meaning. -/
inductive Refusal where
  /-- The instruction has no meaning in the model yet. Raised by `exec` alone. Safe: the model stops. -/
  | notModelled (mnemonic : String)
  deriving DecidableEq, Repr

/-- The trap kinds of 17 R358. -/
inductive Trap where
  | illegalInstruction | illegalOperand | privilege | addressFault | misaligned | translation | permission | dataError
  | reamWrite | controlFlow | gang | software | asyncFault | shape | watermark | copy | collective | fabric | deckle
  deriving DecidableEq, Repr

/-! ## Places in memory -/

/-- One byte of the device: of a scratchpad (core × 2^18 + offset) or of DRAM (16 R345: channel × 2^33 + offset in the
channel). -/
structure Loc where
  glob : Bool
  key  : Nat
  deriving DecidableEq, Repr

/-! ## Threads -/

/-- The five dependence counters (02 R63). -/
structure Counters where
  ld : Nat
  st : Nat
  cp : Nat
  pr : Nat
  cr : Nat
  deriving DecidableEq, Repr

/-- A fault of an asynchronous operation that no WAITC or EXIT has reported (05 R165, 17 R361). -/
structure AFault where
  op   : Nat
  cls  : Cls
  tag  : Nat
  sub  : Nat
  code : Nat
  addr : Word
  deriving DecidableEq, Repr

/-- One entry of a load-data queue: its value, or the operation that owes part k of its data (02 R43). -/
inductive LqEntry where
  | data (x : Word)
  | owed (op k : Nat)
  deriving DecidableEq, Repr

/-- A register whose value an operation in flight still owes (02 R41); `h`: of the handler bank (17 R363). -/
inductive OwedReg where
  | w (i : Nat)
  | h (i : Nat)
  | v (i : Nat)
  | sq (j : Nat)
  deriving DecidableEq, Repr

/-- What a Blocked thread waits for (02 R44). `retry`: a register, a store-data queue, a counter, a held byte or an engine; its
instruction is tried again. `lq`: a load-data queue and the entries that its read needs (13 R324); tried again. `op`: the operation that its instruction issued. `unit`: the Watermark unit. `join`: a gang's leader (05 R150).
`start`: the ck from which a spawned thread is Ready (05 R145). -/
inductive Why where
  | retry
  | lq (q need : Nat)
  | op (id : Nat)
  | unit
  | join
  | start
  deriving DecidableEq, Repr

/-- The state of a resident thread but for Stopped (02 R44). -/
inductive Run where
  | ready
  | blocked (why : Why)
  | parked (glob : Bool) (unit : Nat)
  | waiting
  deriving DecidableEq, Repr

/-- A thread's part in a gang (02 R51, R52): a leader with its followers' cores and slots, or a follower. -/
inductive GangRole where
  | none
  | leader (followers : List (Nat × Nat))
  | follower (core slot : Nat)
  deriving DecidableEq, Repr

/-- A resident thread: its special registers and queues. Its w, v, m and s registers are the bytes of its workspace
(02 R46, R48). -/
structure Thread where
  /-- the kernel instance it runs -/
  node     : Nat
  /-- WP.BLK (02 R66) -/
  blk      : BitVec 8
  pc       : Word
  /-- FMT.EF (06 R167) -/
  fmt      : BitVec 5
  /-- RND.MODE (02 R67) -/
  rnd      : BitVec 3
  /-- SEED.STATE (02 R67) -/
  seed     : BitVec 32
  /-- SIGD (08 R217), bits 63:48 zero -/
  sigd     : Word
  /-- FRB.OFF (08 R218) -/
  frb      : BitVec 18
  cnt      : Counters
  tstat    : Word
  taddr    : Word
  tinfo    : Word
  /-- handler mode (17 R363) -/
  handler  : Bool
  /-- awaiting service (17 R372) -/
  awaiting : Bool
  /-- handler bank of w0 to w31 (17 R363) -/
  bank     : Vector Word 32
  lq       : Vector (List LqEntry) 4
  sq       : Vector (List Word) 2
  run      : Run
  stopped  : Bool
  owed     : List (OwedReg × Nat)
  faults   : List AFault
  gang     : GangRole
  /-- the word of the GANG that the thread has executed (05 R149, 17 R372) -/
  gangWord : Word
  /-- queue pops of an instruction that waits after reading its operands (01 R14) -/
  pend     : Vector Nat 4
  /-- the trap's TADDR is a place of the code image, not a virtual address (03 R70, 17 R364; the model's own) -/
  codeFault : Bool
  /-- the ck at which the resident handler executes its ERET after a RESUME (17 R368, R405) -/
  eret     : Option Nat
  deriving DecidableEq, Repr

/-! ## Operations in flight -/

/-- Where a load or an atomic delivers its value; `h`: a w register of the handler bank (17 R363). -/
inductive Dest where
  | none
  | w (i : Nat)
  | h (i : Nat)
  | v (i : Nat)
  | lq (q : Nat)
  | sq (j : Nat)
  deriving DecidableEq, Repr

/-- What an access does at its performed point (10 R241). A store writes the bytes that its mask enables. -/
inductive AccessAct where
  | load (w : LoadWidth)
  | vload (mask : BitVec 128)
  | store (data : List (Option Byte))
  | atomic (op : AtomicOp) (v e : Nat)
  deriving DecidableEq, Repr

/-- The ordering classes of 10 R247. -/
inductive OrdClass where
  | sl | ss | rs | ga | aq | rl | fn | en | wt | xr
  deriving DecidableEq, Repr

/-- A global, remote or window access in flight. -/
structure Access where
  /-- the address of the first byte as the instruction formed it -/
  addr      : Word
  locs      : List Loc
  /-- home core of a remote access -/
  home      : Option Nat
  act       : AccessAct
  dest      : Dest
  /-- queue pops that commit when the access retires (01 R14) -/
  pops      : Vector Nat 4
  /-- words of the instruction that retires with the access; 0 when it retired at issue -/
  words     : Nat
  performed : Bool
  value     : List Byte
  /-- the first byte that lay in a poisoned unit -/
  err       : Option Nat
  /-- messages that its sender has counted (13 R320, 19 R394) -/
  msgs      : Nat
  deriving DecidableEq, Repr

/-- One run of a copy (11 R276): global addresses are virtual, scratchpad ones keys of bytes; `addr` is the address of the first source byte
as the copy forms it (11 R277). -/
structure CopyRun where
  sg   : Bool
  src  : Nat
  dg   : Bool
  dst  : Nat
  len  : Nat
  addr : Word
  deriving DecidableEq, Repr

/-- A CPY or EXCH: its runs until it registers, then the chunks still to be moved: destination bytes with the values
captured at the registration point, and the source bytes that stay registered (10 R256, R257, 11 R276, R278). -/
structure Copy where
  exch       : Bool
  runs       : List CopyRun
  registered : Bool
  chunks     : List (List (Loc × Byte))
  srcs       : List (List Loc)
  /-- CLS of each chunk's destination page -/
  clss       : List Nat
  /-- messages that the sender has counted for each chunk (13 R320, 19 R394) -/
  msgs       : List Nat
  /-- the first data error met, by its address -/
  err        : Option Word
  /-- its descriptor; none of an exchange (11 R275) -/
  descr      : List Byte
  deriving DecidableEq, Repr

/-- A collective as one member issued it (11 R281). `frame` and `area` are ORED's offsets. -/
structure Coll where
  op      : CollOp
  /-- FMTO and the effective format -/
  fmto    : Nat
  fmt     : Nat
  mode    : CollMode
  gid     : Nat
  root    : Nat
  sigd    : Word
  val     : Vec
  frame   : Nat
  area    : Nat
  dest    : Dest
  /-- the members' cores by rank when it was issued -/
  members : List Nat
  /-- messages that the member has counted as sent (13 R320, 19 R394) -/
  msgs    : Nat
  /-- what the members' operands give this member, and the fault met with its code and address, once every member has issued -/
  result  : Option (Vec × Option (Trap × Nat × Word))
  deriving DecidableEq, Repr

/-- A fabric primitive (11 R288). `snap` holds the local source bytes as they stood at issue (11 R289). -/
structure Fab where
  prim   : FabricOp
  dev    : Nat
  len    : Nat
  lg     : Bool
  /-- local address: source of PUTS and APND, destination of GET -/
  loc    : Word
  remote : Word
  signal : Option Word
  addend : Word
  dest   : Dest
  snap   : List Byte
  sent   : Bool
  deriving DecidableEq, Repr

inductive OpKind where
  | access (a : Access)
  | copy (c : Copy)
  | coll (c : Coll)
  | fab (f : Fab)
  deriving DecidableEq, Repr

/-- An operation in flight. Its number rises in issue order, so it also gives program order within a thread. -/
structure Op where
  core  : Nat
  slot  : Nat
  node  : Nat
  cls   : Cls
  /-- operation tag (17 R362) -/
  tag   : Nat
  /-- ordering classes: two for an acquire-release atomic (10 R247) -/
  ords  : List OrdClass
  scope : Scope
  kind  : OpKind
  deriving DecidableEq, Repr

/-! ## Cores -/

/-- The use of an accumulator tile (07 R193). -/
inductive TileUse where
  | fp32 | xi
  deriving DecidableEq, Repr

/-- An accumulator tile: the lanes that are not zero by 32 × row + column, and its tag (07 R193). -/
structure Tile where
  lanes : Tab (BitVec 40)
  use   : TileUse
  /-- PAIR: two KS24 encodings -/
  pair  : Option (Nat × Nat)
  deriving DecidableEq, Repr

/-- What a Press operation does (07 R198 to R208): shape records as their 256 bits, with FMTO. `rows` gives each row of the product as a
logical row of A, none for zeros. -/
inductive PressReq where
  | pmm (rows : List (Option Nat)) (na nb ad xi : Bool) (a b : BitVec 256) (fmto : BitVec 5)
  | plda (r : BitVec 256) (fmto : BitVec 5)
  | psta (ad : Bool) (r : BitVec 256) (fmto : BitVec 5)
  | pz
  | pcvt (toXi : Bool)
  deriving DecidableEq, Repr

/-- A Press operation that was accepted and is not complete (07 R194): its request, its operands as they stood at acceptance (07 R209),
and its progress (07 R212). Its tile takes its values at its completion, in Press order. -/
structure PressOp where
  id      : Nat
  slot    : Nat
  tag     : Nat
  acc     : Nat
  req     : PressReq
  /-- the multiply array (true) or the transfer path -/
  array   : Bool
  /-- it follows another PMM or PMMG on its tile without waiting for its completion (07 R211) -/
  mm      : Bool
  /-- an operand lies in the Ream -/
  ream    : Bool
  /-- ck for which the engine is occupied, and ck to completion (07 R211) -/
  occ     : Nat
  lat     : Nat
  /-- operand bytes of the scratchpad and of the Ream -/
  mem     : Memory
  rmem    : Memory
  /-- RND.MODE and SEED at acceptance -/
  rnd     : BitVec 3
  seed    : BitVec 32
  /-- scratchpad bytes registered for reading and for writing -/
  reads   : List Nat
  writes  : List Nat
  started : Option Nat
  /-- k-blocks that a stop found done, and ck that were left (07 R212) -/
  blocks  : Nat
  left    : Nat
  /-- a data error in an operand, by its address -/
  err     : Option Word
  /-- a residue mismatch of the multiply array (07 R214) -/
  bad     : Bool
  deriving DecidableEq, Repr

/-- A Watermark instruction that waits for the unit (08 R222, R223). -/
inductive WmReq where
  | wmcf (d a b : Code)
  | wmz
  | wmst (a b : Code)
  | wmsn (a : Code)
  | wmjn (a b : Code)
  | wmlg (a b : Code)
  | wmrd (d a : Code)
  deriving DecidableEq, Repr

/-- The instruction in the Watermark unit: what it writes at its completion (08 R223, R224). -/
structure WmOp where
  id     : Nat
  slot   : Nat
  tag    : Nat
  pops   : Vector Nat 4
  /-- the instruction and its operand values (08 R233) -/
  req    : WmReq
  vals   : List Word
  /-- registered bytes that are read -/
  reads  : List Nat
  /-- registered bytes that are written, with their final values -/
  writes : List (Nat × Byte)
  /-- d code and the value for it -/
  dest   : Option (Code × Word)
  /-- SIGD and FRB.OFF that WMCF leaves -/
  config : Option (Word × BitVec 18)
  /-- the offset of the first poisoned word that it met -/
  err    : Option Nat
  /-- its coefficients in the order in which the unit writes them: offset and value (08 R226 to R230) -/
  seq    : List (Nat × Nat)
  /-- the first coefficient of a residue mismatch (08 R235) -/
  bad    : Option Nat
  /-- the ck of its completion; none while the unit is stopped, with the ck left (08 R232, R233) -/
  done   : Option Nat
  left   : Nat
  /-- the ck that the instruction takes (08 R232) -/
  time   : Nat
  deriving DecidableEq, Repr

/-- The states of a line that an L1 holds (10 R240); an Invalid line is not held. -/
inductive Moesi where
  | modified | owned | exclusive | shared
  deriving DecidableEq, Repr

/-- A line of an L1 data cache, by its DRAM line number, with the physical line and the virtual device that it belongs to (00 R5, 10 R240). -/
structure L1Line where
  line : Nat
  vd   : Nat
  cls  : Nat
  st   : Moesi
  deriving DecidableEq, Repr

/-- A core: of the array by its absolute Hilbert index, of the mill column as 4096 + row, of the spare column as 4160 + row (00 R3,
02 R39, R44, R55). -/
structure Core where
  slots    : Vector (Option Thread) 4
  lastSlot : Nat
  /-- YIELDs that still count: the slot that yielded and the slots that have issued since (05 R144) -/
  yielded  : List (Nat × List Nat)
  tiles    : Vector Tile 8
  press    : List PressOp
  wm       : Option WmOp
  /-- slots whose instructions wait for the unit, oldest first -/
  wmWait   : List (Nat × WmReq)
  /-- plan store (11 R279) -/
  plan     : List Byte
  sent     : BitVec 32
  recv     : BitVec 32
  black    : Bool
  /-- groups that GMEM lists, ascending (02 R54) -/
  groups   : List Nat
  bound    : Option Nat
  /-- an early arrival waits for an entry (13 R316) -/
  early    : Bool
  /-- the stream and entry that the core's arrival is recorded in (13 R316) -/
  matched  : Option (Nat × Nat)
  halted   : Bool
  /-- the ck at which the stop tree halts the core, and CLK at its last stop (13 R327, 17 R371) -/
  stopAt   : Option Nat
  stopClk  : Nat
  /-- the ck from which its engines are settled (07 R212, 08 R233) -/
  settled  : Nat
  /-- L1 data cache, and lines of the L1 instruction cache (00 R5, 10 R240) -/
  l1d      : List L1Line
  l1i      : List Nat
  deriving DecidableEq, Repr

/-! ## Kernel work -/

/-- One entry of a node's group table: member indices h, ascending, and the level tag (02 R53). -/
structure Group where
  members : List Nat
  level   : Nat
  deriving DecidableEq, Repr

/-- The states of a node (13 R308). -/
inductive NodeSt where
  | pending | ready | running | displaced | completed | failed
  deriving DecidableEq, Repr

/-- The steps of the pre-emption ladder (13 R326); Killed is the end of its node. -/
inductive Ladder where
  | running | soft | stopping | saving | saved
  deriving DecidableEq, Repr

/-- A kernel instance or a copy node of a replay, or a self-test node (02 R55, 13 R308, 17 R384). -/
structure Node where
  vd      : Fin 8
  /-- the context of 16 R344 -/
  ctx     : Nat
  /-- node index, mould handle and replay slot (17 R367) -/
  index   : Nat
  mould   : Nat
  replay  : Nat
  /-- order of its PULL's acceptance (13 R309) -/
  age     : Nat
  queue   : Nat
  desc    : NodeDesc
  /-- the descriptor of a copy node -/
  copy    : Option (List Byte)
  /-- the tests of a self-test node, and CLK at their start -/
  test    : Option (SelfTest × Nat)
  st      : NodeSt
  count   : Nat
  /-- the replay's private argument block (02 R57) -/
  args    : List Byte
  /-- quire-relative range h to k of the .entry -/
  hLo     : Nat
  hHi     : Nat
  /-- virtual address and length of the code image (13 R303) -/
  codeVa  : Word
  codeLen : Nat
  /-- virtual address and length of the whole mould image, read-only while the node runs (03 R71) -/
  imgVa   : Word
  imgLen  : Nat
  /-- group table as its SETs have left it (02 R53) -/
  groups  : Tab Group
  /-- the launch writes are complete -/
  launched : Bool
  stream  : Option Nat
  ladder  : Ladder
  /-- a context switch, not a displacement -/
  switch  : Bool
  /-- cores that the ladder saves -/
  victims : List Nat
  /-- the ck at which the cores that are not saved resume (13 R310) -/
  resumeAt : Option Nat
  /-- the ck at which the kill timer of its stop expires (13 R325) -/
  killAt : Option Nat
  /-- cores whose restore is under way -/
  restoring : List Nat
  deriving DecidableEq, Repr

/-- A core from the beginning of its Saving on (17 R370 to R372, R376): its state but for the scratchpad, which is in the image, the place
of the image, how many of its lines the handler has passed, and what of the scratchpad is discarded or poisoned. -/
structure Saved where
  core  : Core
  /-- lines of the image that count as written (17 R374) -/
  lines : Nat
  /-- virtual address of the core image -/
  image : Word
  /-- scratchpad lines that were discarded and that no redirected access has written (17 R375, R376) -/
  drop  : List Nat
  /-- what its handler has marked poisoned in the image: offset and bytes of scratchpad units, lanes and words of the plan store (17 R383) -/
  bad   : List (Nat × Nat)
  deriving DecidableEq, Repr

/-! ## The Deckle -/

/-- FIRE, PHASE with IDL, and SET with the members of its group before and after it (13 R314, R315). -/
inductive Rec where
  | fire
  | phase (idl : Bool)
  | set (old new : List Nat)
  deriving DecidableEq, Repr

/-- An unfired entry of a deckle buffer: its number in the stream, its gid, and its members (of a SET: those for which it has not
taken effect), as quire indices (13 R313 to R318). -/
structure Entry where
  num     : Nat
  kind    : Rec
  gid     : Nat
  members : List Nat
  /-- felt probe or idle tree has reported -/
  report  : Bool
  /-- consecutive quiet passes of the felt probe -/
  quiet   : Nat
  /-- its probe is running -/
  probing : Bool
  /-- its firing is due -/
  due     : Bool
  deriving DecidableEq, Repr

/-- A deckle stream that is bound to a node (13 R313). -/
structure Stream where
  node    : Nat
  /-- record words that the fetcher has read, and the number of the next entry -/
  pos     : Nat
  next    : Nat
  /-- the fetcher's copy of the group table (13 R315) -/
  groups  : Tab Group
  buf     : List Entry
  /-- END is buffered -/
  ended   : Bool
  /-- the opening PHASE has fired -/
  opened  : Bool
  /-- entries that have fired and not yet released: number and members -/
  firing  : Tab (List Nat)
  /-- the ck since which every idle wire is high (13 R322), and the number that the next operation had when the wires were last looked at
  (the model's own) -/
  idle    : Option Nat
  seen    : Nat
  deriving DecidableEq, Repr

/-! ## Command processors -/

/-- An INDIRECT buffer in work: its address, its words and the next word (13 R300). -/
structure Frm where
  addr  : Word
  words : Nat
  next  : Nat
  deriving DecidableEq, Repr

/-- What holds a queue (13 R297). -/
inductive Hold where
  | value (addr : Word) (cmp : WaitCmp) (val mask : Word)
  | fence
  deriving DecidableEq, Repr

/-- A hardware queue (13 R296, 17 R373): RPTR and WPTR count words; the innermost buffer stands first in the chain. -/
structure Queue where
  ring  : Word
  en    : Bool
  pri   : Nat
  size  : Nat
  rptr  : Nat
  wptr  : Nat
  erra  : Word
  err   : Bool
  depth : Nat
  code  : Nat
  chain : List Frm
  hold  : Option Hold
  deriving DecidableEq, Repr

/-- A loaded mould (13 R303, R306). -/
structure Loaded where
  va    : Word
  len   : Nat
  body  : Mould
  vlast : Nat
  deriving DecidableEq, Repr

/-- A REAM-LOAD that is accepted and unfinished (13 R299). -/
structure Loading where
  body  : ReamLoad
  queue : Nat
  ctx   : Nat
  deriving DecidableEq, Repr

/-! ## Virtual devices -/

/-- A translation that a TLB holds: the TLB (a core's by its number, a Vat slice's as 8192 + slice), the virtual page, in 4 KiB units, of
a leaf and the leaf's entry (16 R345, R347). -/
structure TlbEntry where
  place : Nat
  vd    : Nat
  ctx   : Nat
  page  : Nat
  level : Nat
  leaf  : Word
  deriving DecidableEq, Repr

/-- An entry of the context table as the device caches it (17 R369). -/
structure Ctx where
  s1root  : Nat
  qmask   : Word
  savea   : Word
  savelen : Word
  dlist   : Word
  dcount  : Nat
  abortw  : Word
  deriving DecidableEq, Repr

/-- A context on the pre-emption ladder: asked to leave, or switched out (13 R326). -/
inductive CtxSt where
  | soft | switched
  deriving DecidableEq, Repr

/-- A virtual device (16 R336). -/
structure Vd where
  en      : Bool
  busy    : Bool
  err     : Nat
  spare   : Bool
  qbase   : Nat
  qlen    : Nat
  /-- CHMASK: the channels, one bit each -/
  chmask  : BitVec 64
  /-- REAMK: Ream share in units of 64 KiB -/
  reamk   : Nat
  vways   : BitVec 16
  s2base  : Nat
  s2lim   : Nat
  dsq     : Nat
  walkq   : Nat
  tlbq    : Nat
  sprw    : Nat
  /-- CLS0 to CLS7 (16 R351) -/
  cls     : Vector Word 8
  /-- DDSTAT (16 R353) -/
  tags    : Nat
  pulp    : Nat
  /-- TLBINV (16 R348) -/
  invVpn  : Word
  invKind : Nat
  invCtx  : Nat
  invDone : Bool
  /-- the ck by which DONE returns, and the next operation's number when the invalidation dropped its entries; it waits for the global accesses before -/
  invBy   : Nat
  invOps  : Option Nat
  queues  : Vector Queue 64
  /-- queue served last, and packets of its slice (13 R297) -/
  lastQ   : Nat
  slice   : Nat
  /-- PULLs accepted (13 R309) -/
  pulls   : Nat
  pdrop   : Bool
  mdone   : Bool
  mhandle : Nat
  mstat   : Nat
  moulds  : Tab Loaded
  /-- service table and its token buckets (13 R311) -/
  service : Vector (BitVec 256) 64
  tokens  : Vector Nat 64
  grace   : Nat
  dgrace  : Nat
  killt   : Nat
  ctxs    : Tab Ctx
  ctxSt   : Tab CtxSt
  /-- FSID (17 R366) -/
  fsid    : Word
  /-- resident handler of its cores, 16 KiB (17 R363); the steps of R364, R365 and R389 stand for its code (DESIGN CHOICE, log 8) -/
  handlerCode : List Byte
  /-- contexts for which its fault server keeps the stream policy (18 R390) -/
  policy  : List Nat
  /-- replays that completed with error status: mould handle and order of the PULL (13 R308) -/
  errored : List (Nat × Nat)
  /-- FBIND (19 R396): bound devices and the virtual device there; unlisted: 0xF -/
  bind    : Tab Nat
  /-- peers whose reset was noticed (17 R380) -/
  resetPeers : List Nat
  loads   : Tab Loading
  /-- Headbox entries answer status 1 until the next formation (17 R379) -/
  headOff : Bool
  deriving DecidableEq, Repr

/-! ## The device -/

/-- A machine-check bank (17 R381). -/
structure Bank where
  status : Word
  addr   : Word
  misc   : Word
  count  : Word
  deriving DecidableEq, Repr

/-- A Tvedten port (19 R395). -/
structure Port where
  up      : Bool
  retries : Nat
  paused  : Vector Bool 4
  deriving DecidableEq, Repr

/-- A tag of the Vat: the line by virtual device and by DRAM line number, its place, its age, its class, whether DRAM is behind it, its pulp
entry (none: the zero marker), and the clusters that may hold it in an L1 (10 R240, 16 R349 to R352). -/
structure VatTag where
  vd      : Nat
  line    : Nat
  slice   : Nat
  set     : Nat
  way     : Nat
  age     : Nat
  cls     : Nat
  dirty   : Bool
  pulp    : Option Nat
  sharers : List Nat
  deriving DecidableEq, Repr

/-- A pulp entry of the Vat: its place, its fibre hash, its 128 bytes, its reference count, and whether it stands in its hash's chain
(16 R352, 10 R263). -/
structure Pulp where
  vd    : Nat
  slice : Nat
  way   : Nat
  hash  : Nat
  bytes : List Byte
  refs  : Nat
  chain : Bool
  deriving DecidableEq, Repr

/-- The Vat: its tags, its pulp entries by number, and the writes to DRAM that stand in its slices' queues, one queue per slice and virtual
device: slice, virtual device and DRAM line, oldest first (16 R349 to R354). -/
structure Vat where
  tags   : List VatTag
  pulps  : Tab Pulp
  next   : Nat
  queues : List (Nat × Nat × Nat)
  deriving DecidableEq, Repr

/-- The spare-slot state of a link or of a Vat bank port: the buckets, and the virtual device that took the last spare slot (16 R342). -/
structure Link where
  tokens : Vector Nat 8
  last   : Nat
  deriving DecidableEq, Repr

/-- FWCFG of a boundary router (16 R355). -/
structure FwCfg where
  pass : BitVec 8
  lock : Bool
  deriving DecidableEq, Repr

/-- DEVSTAT.STATE (19 R402). -/
inductive DevSt where
  | booting | ready | recovery | stopped
  deriving DecidableEq, Repr

/-- What the device sends out (DESIGN CHOICE, log 16): fault records with their sequence numbers, MSI-X messages by function (8: the physical one),
fabric requests and replies, the answers of a Headbox with the status of the primitive and that of 13 R312, member-reset notices, forwarded frames, the
fatal-error report, and the answer of a host read. -/
inductive Sent where
  | record (seq dev : Nat) (r : FaultRec)
  | msix (fn vec : Nat)
  | request (dev : Nat) (id : Nat) (r : FabricReq)
  | service (dev : Nat) (id : Nat) (r : HeadboxReq)
  | reply (dev : Nat) (r : FabricReq) (status : Nat) (data : List Byte)
  | answer (dev : Nat) (r : HeadboxReq) (refused : Nat) (status : Nat)
  | notice (dev : Nat) (vd : Fin 8)
  | forward (port : Nat) (f : Frame)
  | fatalReport
  | hostData (data : List Byte)
  deriving DecidableEq, Repr

/-- A byte of a register that a store has written while an operation of the register's thread owes it: the thread's node, the byte's key, and
the number of the next operation then (02 R48; the model's own). -/
structure Late where
  node : Nat
  key  : Nat
  next : Nat
  deriving DecidableEq, Repr

structure State where
  /-- CLK (02 R68) -/
  clk     : Nat
  /-- the next core to steer in this ck, and the thread whose instruction executes (DESIGN CHOICE, log 3) -/
  turn    : Nat
  curCore : Nat
  curSlot : Nat
  /-- steps that are due, each with its ck (DESIGN CHOICE, log 3) -/
  agenda  : List (Nat × Instr)
  /-- number of free values drawn (DESIGN CHOICE, log 4) -/
  fresh   : Nat
  /-- number of the next operation, and of the next node or REAM-LOAD (DESIGN CHOICE, log 4) -/
  nextOp  : Nat
  nextId  : Nat
  spad    : Memory
  ream    : Memory
  dram    : Memory
  /-- poisoned data units: 8-byte units of scratchpad, 64-byte units of Ream, 128-byte lines of DRAM (17 R383) -/
  poisonS : List Nat
  poisonR : List Nat
  poisonD : List Nat
  /-- poisoned accumulator lanes by core × 8192 + tile × 1024 + lane, and words of plan stores by core × 512 + word (17 R383) -/
  poisonT : List Nat
  poisonP : List Nat
  cores   : Tab Core
  ops     : Tab Op
  nodes   : Tab Node
  /-- saved cores by node × 8192 + core (17 R370) -/
  saved   : Tab Saved
  /-- deckle streams that are bound, by number (13 R313) -/
  streams : Tab Stream
  vds     : Vector Vd 8
  tlb     : List TlbEntry
  /-- CAL0 to CAL3 (16 R341): owners as written, and those in force -/
  cal     : Vector Nat 64
  calNow  : Vector Nat 64
  /-- spare-slot buckets (16 R342): those of every link and bank port at which no spare slot was taken, and those of the others -/
  buckets : Vector Nat 8
  links   : Tab Link
  /-- Vat (16 R349 to R354) -/
  vat     : Vat
  /-- bytes of registers that an operation still owes and that a store has written since (02 R48; the model's own) -/
  late    : List Late
  /-- FAILMAP, SPMAP and the cores for which a spare stands in (17 R385, R386) -/
  failmap : List Nat
  spmap   : Vector (BitVec 16) 64
  standIn : List Nat
  /-- ROUTE (19 R397), by device; unlisted: 0 -/
  route   : Tab Word
  msglim  : Nat
  devid   : Nat
  fwver   : BitVec 32
  devSt   : DevSt
  devReady : Bool
  /-- FWSTAGE.GO, FWSTAGE.STAT and the staged contents (19 R401) -/
  fwgo    : Bool
  fwstat  : Nat
  staged  : List Byte × List Byte
  /-- the firmware image that runs since bring-up; image and configuration table in flash, and the fused rollback counter (19 R399, R401) -/
  running : List Byte
  flash   : List Byte × List Byte
  fused   : Nat
  /-- FWCFG of the boundary routers (16 R355): row r of the boundary between columns 63 and 64 is number r, of that between 64 and 65
  number 64 + r; unlisted: the reset value -/
  fw      : Tab FwCfg
  /-- mill width of the table in force (19 R400) -/
  millWidth : Nat
  banks   : Tab Bank
  ports   : Tab Port
  /-- failing cores and trained ports that a bring-up under way has found -/
  boot    : Option (List Nat × List Nat)
  /-- fault record sequence number (17 R367) -/
  seq     : BitVec 16
  /-- fabric messages that wait for a paused lane: device, lane and message, oldest first (19 R395) -/
  egress  : List (Nat × Nat × Sent)
  /-- requests of other devices that wait at this one for an engine's bytes, oldest first (10 R257, R262) -/
  inbox   : List Instr
  outbox  : List Sent
  /-- 3.0 GHz (19 R403) -/
  throttled : Bool
  deriving DecidableEq, Repr

/-- The answer of one step. -/
abbrev Out := Host.Outcome State Fault Refusal

/-! ## Reset -/

namespace Counters
def zero : Counters := ⟨0, 0, 0, 0, 0⟩
end Counters

/-- A tile after reset and at launch (07 R193). -/
def Tile.reset : Tile := ⟨[], .fp32, none⟩

/-- A core after reset (INVENTORY.md, DESIGN CHOICE, log 2). -/
def Core.reset : Core where
  slots := Vector.replicate 4 none
  lastSlot := 3
  yielded := []
  tiles := Vector.replicate 8 Tile.reset
  press := []
  wm := none
  wmWait := []
  plan := []
  sent := 0
  recv := 0
  black := false
  groups := []
  bound := none
  early := false
  matched := none
  halted := false
  stopAt := none
  stopClk := 0
  settled := 0
  l1d := []
  l1i := []

/-- A node table reads as this where it holds no node. -/
def Node.none : Node where
  vd := 0
  ctx := 0
  index := 0
  mould := 0
  replay := 0
  age := 0
  queue := 0
  desc := default
  copy := Option.none
  test := Option.none
  st := .completed
  count := 0
  args := []
  hLo := 0
  hHi := 0
  codeVa := 0
  codeLen := 0
  imgVa := 0
  imgLen := 0
  groups := []
  launched := false
  stream := Option.none
  ladder := .running
  switch := false
  victims := []
  resumeAt := Option.none
  killAt := Option.none
  restoring := []

/-- A queue after reset (13 R296). -/
def Queue.reset : Queue where
  ring := 0
  en := false
  pri := 0
  size := 12
  rptr := 0
  wptr := 0
  erra := 0
  err := false
  depth := 0
  code := 0
  chain := []
  hold := none

/-- A virtual device after reset (13 R303, R311, R325, 16 R336 to R353, 17 R366, 19 R396). -/
def Vd.reset : Vd where
  en := false
  busy := false
  err := 0
  spare := false
  qbase := 0
  qlen := 1
  chmask := 0
  reamk := 0
  vways := 0
  s2base := 0
  s2lim := 0
  dsq := 1
  walkq := 1
  tlbq := 1
  sprw := 0
  cls := Vector.replicate 8 0xFFFF22
  tags := 0
  pulp := 0
  invVpn := 0
  invKind := 0
  invCtx := 0
  invDone := true
  invBy := 0
  invOps := none
  queues := Vector.replicate 64 Queue.reset
  lastQ := 63
  slice := 0
  pulls := 0
  pdrop := false
  mdone := false
  mhandle := 0
  mstat := 0
  moulds := []
  service := Vector.replicate 64 0
  tokens := Vector.replicate 64 0
  grace := 800000
  dgrace := 0
  killt := 8000000
  ctxs := []
  ctxSt := []
  fsid := 0
  handlerCode := []
  policy := []
  errored := []
  bind := []
  resetPeers := []
  loads := []
  headOff := false

/-- A machine-check bank after reset: no virtual device (17 R381). -/
def Bank.reset : Bank := ⟨0xFF0000000000, 0, 0, 0⟩

/-- A port before training (DESIGN CHOICE, log 2). -/
def Port.reset : Port := ⟨false, 0, Vector.replicate 4 false⟩

/-- FWCFG after reset (16 R355). -/
def FwCfg.reset : FwCfg := ⟨0x38, false⟩

/-- The Vat after reset: it holds no line (DESIGN CHOICE, log 2). -/
def Vat.empty : Vat := ⟨[], [], 0, []⟩

/-- The device right after reset. -/
def State.reset : State where
  clk := 0
  turn := 0
  curCore := 0
  curSlot := 0
  agenda := []
  fresh := 0
  nextOp := 0
  nextId := 0
  spad := []
  ream := []
  dram := []
  poisonS := []
  poisonR := []
  poisonD := []
  poisonT := []
  poisonP := []
  cores := []
  ops := []
  nodes := []
  saved := []
  streams := []
  vds := Vector.replicate 8 Vd.reset
  tlb := []
  cal := Vector.replicate 64 15
  calNow := Vector.replicate 64 15
  buckets := Vector.replicate 8 0
  links := []
  vat := Vat.empty
  late := []
  failmap := []
  spmap := Vector.replicate 64 0
  standIn := []
  route := []
  msglim := 16
  devid := 0
  fwver := 0
  devSt := .booting
  devReady := false
  fwgo := false
  fwstat := 0
  staged := ([], [])
  running := []
  flash := ([], [])
  fused := 0
  fw := []
  millWidth := 1
  banks := []
  ports := []
  boot := none
  seq := 0
  egress := []
  inbox := []
  outbox := []
  throttled := false

end Sys2Proof.Machine
end

