-- ==== Sys2Proof/Machine/Ordering.lean ====
section
/-!
DEFINITION. The ordering matrices of 10_ordering_model.md (R248 to R254) and what they demand of two operations of one
thread: the pair is performed in program order when a release or an acquire asks it, or some scope from core to system keeps it.
-/
namespace Sys2Proof.Machine

/-- A cell of an ordering matrix (01 R34): kept, free, or kept under a note of 10 R248. -/
inductive Cell where
  | kept | free
  | note (n : Nat)
  deriving DecidableEq, Repr

/-- The cells of the core matrix (10 R250). -/
def coreCell (e l : OrdClass) : Cell :=
  match e, l with
  | .sl, .sl => .kept | .sl, .ss => .kept | .sl, .rs => .note 1 | .sl, .ga => .note 1 | .sl, .aq => .note 1
  | .sl, .rl => .note 3 | .sl, .fn => .note 5 | .sl, .en => .kept | .sl, .wt => .kept | .sl, .xr => .kept
  | .ss, .sl => .note 1 | .ss, .ss => .kept | .ss, .rs => .free | .ss, .ga => .free | .ss, .aq => .free
  | .ss, .rl => .note 3 | .ss, .fn => .note 5 | .ss, .en => .kept | .ss, .wt => .kept | .ss, .xr => .kept
  | .rs, .sl => .free | .rs, .ss => .note 1 | .rs, .rs => .note 2 | .rs, .ga => .note 1 | .rs, .aq => .note 1
  | .rs, .rl => .note 3 | .rs, .fn => .note 5 | .rs, .en => .kept | .rs, .wt => .kept | .rs, .xr => .kept
  | .ga, .sl => .free | .ga, .ss => .note 1 | .ga, .rs => .note 1 | .ga, .ga => .note 1 | .ga, .aq => .note 1
  | .ga, .rl => .note 3 | .ga, .fn => .note 5 | .ga, .en => .kept | .ga, .wt => .kept | .ga, .xr => .kept
  | .aq, .sl => .note 4 | .aq, .ss => .note 4 | .aq, .rs => .note 4 | .aq, .ga => .note 4 | .aq, .aq => .note 4
  | .aq, .rl => .kept | .aq, .fn => .note 5 | .aq, .en => .kept | .aq, .wt => .kept | .aq, .xr => .kept
  | .rl, .sl => .free | .rl, .ss => .free | .rl, .rs => .free | .rl, .ga => .note 1 | .rl, .aq => .note 1
  | .rl, .rl => .note 3 | .rl, .fn => .note 5 | .rl, .en => .kept | .rl, .wt => .kept | .rl, .xr => .kept
  | .fn, .fn => .kept | .fn, .wt => .kept | .fn, _ => .note 5
  | .en, .fn => .note 5 | .en, _ => .kept
  | .wt, _ => .kept
  | .xr, .fn => .note 5 | .xr, .wt => .kept | .xr, .xr => .note 7 | .xr, _ => .note 8

/-- The cell of a pair in the matrix of a scope (10 R249 to R254): at thread scope all is kept but the XR row; the group
matrix is the core matrix; from quire scope on, WAIT keeps only toward the cores of its group. -/
def cell (sc : Scope) (e l : OrdClass) : Cell :=
  match sc with
  | .thread =>
    match e, l with
    | .xr, .fn => .note 5 | .xr, .wt => .kept | .xr, .xr => .note 7 | .xr, _ => .note 8
    | _, _ => .kept
  | .core => coreCell e l
  | .group => coreCell e l
  | _ => if e = .wt ∨ l = .wt then .note 6 else coreCell e l

/-- Width of a scope, narrowest first (10 R246). -/
def scopeRank : Scope → Nat
  | .thread => 0 | .core => 1 | .group => 2 | .quire => 3 | .device => 4 | .system => 5

/-- What the ordering rules ask about an operation: its classes (an acquire-release atomic has two, 10 R247), the scope it
carries, whether it reads or writes, its bytes and, for a remote access, its home core. -/
structure OrdView where
  classes : List OrdClass
  scope   : Scope
  reads   : Bool
  writes  : Bool
  locs    : List Loc
  home    : Option Nat
  deriving DecidableEq, Repr

/-- The two operations touch a common byte. -/
def overlaps (a b : List Loc) : Bool := a.any (fun x => b.contains x)

/-- Note 1 of 10 R248. -/
def note1 (e l : OrdView) : Bool := (e.reads && l.writes) || overlaps e.locs l.locs

/-- A cell demands the order of two operations that no FENCE, WAITC or WAIT separates (10 R248); a FENCE, a WAITC and a
WAIT act by stalling their thread (10 R255, R245), so notes 5, 6 and 8 demand nothing here. -/
def cellHolds (sc : Scope) (c : Cell) (e l : OrdView) : Bool :=
  match c with
  | .kept => true
  | .free => false
  | .note 1 => note1 e l
  | .note 2 => (e.home.isSome && e.home == l.home) || note1 e l
  | .note 3 => scopeRank sc ≤ scopeRank l.scope || note1 e l
  | .note 4 => scopeRank sc ≤ scopeRank e.scope || note1 e l
  | .note _ => false

/-- The earlier operation is performed before the later one: a release comes after every earlier access and every earlier registration,
an acquire before every later access, whatever scope they carry (10 R255, 11 R267); otherwise some scope of observers keeps the pair.
Every write is seen by all observers at one point (10 R242), so one order serves every scope. -/
def mustPrecede (e l : OrdView) : Bool :=
  (l.classes.contains .rl && !e.classes.contains .xr) || e.classes.contains .aq ||
    [Scope.core, .group, .quire, .device, .system].any (fun sc =>
      e.classes.any (fun ce => l.classes.any (fun cl => cellHolds sc (cell sc ce cl) e l)))

end Sys2Proof.Machine
end

