-- ==== Sys2Proof/Machine/Hilbert.lean ====
section
/-!
DEFINITION. The Hilbert curve over the 64 × 64 array (16 R339): position of an index and index of a position.
-/
namespace Sys2Proof.Machine

/-- The four states of the curve. -/
inductive HState where
  | i | x | a | t
  deriving DecidableEq, Repr

/-- STATE(st, q): (dx, dy) and the next state (16 R339). -/
def hilbertStep (st : HState) (q : Nat) : Nat × Nat × HState :=
  match st, q with
  | .i, 0 => (0, 0, .x) | .i, 1 => (0, 1, .i) | .i, 2 => (1, 1, .i) | .i, _ => (1, 0, .a)
  | .x, 0 => (0, 0, .i) | .x, 1 => (1, 0, .x) | .x, 2 => (1, 1, .x) | .x, _ => (0, 1, .t)
  | .a, 0 => (1, 1, .t) | .a, 1 => (0, 1, .a) | .a, 2 => (0, 0, .a) | .a, _ => (1, 0, .i)
  | .t, 0 => (1, 1, .a) | .t, 1 => (1, 0, .t) | .t, 2 => (0, 0, .t) | .t, _ => (0, 1, .x)

/-- The digits of weight below 4^lv, walked from a state. -/
def hposFrom (h : Nat) : Nat → HState → Nat × Nat
  | 0, _ => (0, 0)
  | lv + 1, st =>
    let (dx, dy, st') := hilbertStep st ((h >>> (2 * lv)) % 4)
    let (c, r) := hposFrom h lv st'
    (dx * 2 ^ lv + c, dy * 2 ^ lv + r)

/-- Column and row of an absolute Hilbert index (16 R339). -/
def hpos (h : Nat) : Nat × Nat := hposFrom h 6 .i

/-- The index of a position, walked from a state. -/
def hindexFrom (c r : Nat) : Nat → HState → Nat
  | 0, _ => 0
  | lv + 1, st =>
    let bx := (c >>> lv) % 2
    let by' := (r >>> lv) % 2
    let q := ((List.range 4).find? (fun q => ((hilbertStep st q).1 == bx) && ((hilbertStep st q).2.1 == by'))).getD 0
    q * 4 ^ lv + hindexFrom c r lv (hilbertStep st q).2.2

/-- The absolute Hilbert index of a column and row. -/
def hindex (c r : Nat) : Nat := hindexFrom c r 6 .i

/-- Column and row of a core: of the array, of the mill column (4096 + row) or of the spare column (4160 + row) (00 R3, 02 R39). -/
def corePos (c : Nat) : Nat × Nat := if c < 4096 then hpos c else if c < 4160 then (64, c - 4096) else (65, c - 4160)

/-- HABS: the absolute Hilbert index that a core reports; 0 of a mill core and of an unused spare core (02 R39). -/
def habsOf (c : Nat) : Nat := if c < 4096 then c else 0

/-- CID of a core whose quire-relative index is h (02 R39). A spare core that stands in for an array core is that core. -/
def cidWord (core h : Nat) : Word :=
  let (c, r) := corePos core
  BitVec.ofNat 64 ((if core < 4096 then 2 ^ 37 + h else 0) + c * 2 ^ 30 + r * 2 ^ 24 + habsOf core * 2 ^ 12)

/-- REFC.PHASE of a core at a ck (02 R68). -/
def refcPhase (clk core : Nat) : Nat := (clk + 4 * habsOf core) % 16384

/-- REFC (02 R68). -/
def refcWord (clk core : Nat) : Word :=
  let p := refcPhase clk core
  BitVec.ofNat 64 (p + (if p < 96 then 2 ^ 14 else 0))

end Sys2Proof.Machine
end

