-- ==== Sys2Proof/Machine/Translate.lean ====
section
/-!
DEFINITION. Address translation (16 R344, R345): the four-level stage-1 walk, the stage-2 window, the channel interleave and
what a TLB may hold.
-/
namespace Sys2Proof.Machine

/-- The virtual device is formed: EN is 1 and BUSY is 0 (16 R356). -/
def Vd.formed (v : Vd) : Bool := v.en && !v.busy

/-- The channels of a virtual device, ascending (16 R336, R345). -/
def Vd.channels (v : Vd) : List Nat := (List.range 64).filter (fun i => v.chmask.getLsbD i)

/-- Stage 2: the physical address of an intermediate address (16 R345). -/
def Vd.stage2 (v : Vd) (ia : Nat) : Option Nat := if ia < 65536 * v.s2lim then some (65536 * v.s2base + ia) else none

/-- The DRAM byte of a physical address: its channel × 2^33 plus its place in the channel (16 R345). -/
def Vd.dramKey (v : Vd) (pa : Nat) : Option Nat :=
  let chs := v.channels
  match chs[(pa >>> 12) % chs.length]? with
  | none => none
  | some ch => some (ch * 2 ^ 33 + (pa >>> 12) / chs.length * 4096 + pa % 4096)

/-- The DRAM byte of an intermediate address. -/
def Vd.iaKey (v : Vd) (ia : Nat) : Option Nat := (v.stage2 ia).bind v.dramKey

/-- An entry of a table (16 R344). -/
def Vd.entryAt (v : Vd) (m : Memory) (table idx : Nat) : Option Word :=
  (v.iaKey (table + 8 * idx)).map (fun k => BitVec.ofNat 64 (leNat (memBytes m k 8)))

/-- Bits that must be zero in every entry (16 R344): 63:60, 56:48, 11:8, 6 and 2. -/
def pteRes : Word := 0xF1FF000000000F44

/-- log₂ of the page that a leaf of this level maps (16 R344). -/
def pageBits (level : Nat) (e : Word) : Nat :=
  if level = 2 then 30 else if level = 3 then 21 else if e[7] then 16 else 12

/-- ADDR of an entry (16 R344). -/
def pteAddr (e : Word) : Nat := (e.extractLsb' 12 36).toNat <<< 12

/-- The entry is valid, its reserved bits are zero, and its LEAF and C64 are allowed at the level (16 R344). -/
def pteOk (level : Nat) (e : Word) : Bool :=
  e[0] && (e &&& pteRes == 0) && (if level = 1 then !e[1] else if level = 4 then e[1] else true)
    && (!e[7] || (level == 4 && e[1])) && (!e[1] || pteAddr e % 2 ^ pageBits level e == 0)

/-- The walk from a table at a level: the leaf and its level. `n` is the number of levels left. -/
def Vd.walkFrom (v : Vd) (m : Memory) (va : Nat) : Nat → Nat → Option (Word × Nat)
  | 0, _ => none
  | n + 1, table =>
    let level := 4 - n
    match v.entryAt m table ((va >>> (12 + 9 * n)) % 512) with
    | none => none
    | some e => if !pteOk level e then none else if e[1] then some (e, level) else v.walkFrom m va n (pteAddr e)

/-- An entry of the context table as memory holds it, where it is valid and its reserved bits are zero (17 R369). -/
def Vd.readCtx (v : Vd) (m : Memory) (c : Nat) : Option Ctx :=
  let w (i : Nat) : Word := (v.entryAt m (64 * c) i).getD 0
  if c < 256 && (w 0)[0] && (w 0 &&& 0xFFFF000000000FFE == 0) && decide ((w 5).toNat ≤ 64) && w 7 == 0 then
    some ⟨(w 0).toNat / 4096 * 4096, w 1, w 2, w 3, w 4, (w 5).toNat, w 6⟩
  else none

/-- An entry of the context table: the cached one, or that of memory (17 R369). -/
def Vd.ctx (v : Vd) (m : Memory) (c : Nat) : Option Ctx :=
  match tabGet v.ctxs c with
  | some k => some k
  | none => v.readCtx m c

/-- The stage-1 walk of an address for a context (16 R344). -/
def Vd.walk (v : Vd) (m : Memory) (ctx va : Nat) : Option (Word × Nat) :=
  match v.ctx m ctx with
  | none => none
  | some c => v.walkFrom m va 4 c.s1root

/-- The virtual device a number names. -/
def State.vd (s : State) (n : Fin 8) : Vd := s.vds[n]

/-- What a TLB entry covers: the whole page of its leaf (16 R345). -/
def TlbEntry.covers (t : TlbEntry) (vd ctx va : Nat) : Bool :=
  t.vd == vd && t.ctx == ctx && va >>> pageBits t.level t.leaf == (t.page <<< 12) >>> pageBits t.level t.leaf

/-- The leaves by which an access may translate: that of the walk and those that TLBs hold (16 R345, R348). -/
def State.leaves (s : State) (vd : Fin 8) (ctx va : Nat) : List (Option (Word × Nat)) :=
  let w := (s.vd vd).walk s.dram ctx va
  let held := (s.tlb.filter (fun t => t.covers vd.val ctx va)).map (fun t => some (t.leaf, t.level))
  w :: held.filter (fun x => x != w)

/-- The leaf of an access: the only one, or one that is left open among those that differ (16 R345, DESIGN CHOICE, log 10). -/
def State.leaf (s : State) (vd : Fin 8) (ctx va : Nat) : Option (Word × Nat) :=
  match s.leaves vd ctx va with
  | [] => none
  | [x] => x
  | x :: t => (x :: t).getD (Config.freeNat s.fresh % (t.length + 1)) x

/-- What an access asks of its page (16 R344). -/
structure Need where
  r : Bool
  w : Bool
  x : Bool
  deriving DecidableEq, Repr

/-- The answer of a translation. -/
inductive Xlat where
  | ok (key : Nat)
  | tfault
  | pfault
  deriving DecidableEq, Repr

/-- A leaf allows the access (16 R344). -/
def leafAllows (e : Word) (n : Need) : Bool := (!n.r || e[3]) && (!n.w || e[4]) && (!n.x || e[5])

/-- An address translated by a leaf. -/
def Vd.byLeaf (v : Vd) (e : Word) (level va : Nat) (n : Need) : Xlat :=
  match v.iaKey (pteAddr e + va % 2 ^ pageBits level e) with
  | none => .tfault
  | some k => if leafAllows e n then .ok k else .pfault

/-- Bits 63:48 equal bit 47 (02 R61). -/
def canonical (va : Word) : Bool := (va.extractLsb' 0 48 : BitVec 48).signExtend 64 == va

/-- The mould images of a virtual device of which a node runs: context, virtual base and length. A Displaced node counts as one that runs, which
03 R71 leaves open (DESIGN CHOICE, log 84). -/
def State.images (s : State) (vd : Fin 8) : List (Nat × Word × Nat) :=
  (s.nodes.filter (fun n => n.2.vd == vd && (n.2.st == .running || n.2.st == .displaced))).map (fun n => (n.2.ctx, n.2.imgVa, n.2.imgLen))

/-- A DRAM byte lies in the image of a mould of which a node runs (03 R71). -/
def State.inImage (s : State) (vd : Fin 8) (key : Nat) : Bool :=
  (s.images vd).any (fun (ctx, va, len) =>
    let base := va.toNat % 2 ^ 48
    (List.range (len / 4096 + 2)).any (fun p =>
      let lo := max base ((base / 4096 + p) * 4096)
      let hi := min (base + len) ((base / 4096 + p + 1) * 4096)
      decide (lo < hi) &&
        (match (s.vd vd).walk s.dram ctx lo with
        | none => false
        | some (e, l) =>
          match (s.vd vd).byLeaf e l lo ⟨false, false, false⟩ with
          | .ok k => decide (k ≤ key ∧ key < k + (hi - lo))
          | _ => false)))

/-- A virtual address translated for a context of a formed virtual device, with the page's permission and, for a write, the read-only
rule of running mould images (16 R335, R344 to R346, R356, 03 R71). -/
def State.translate (s : State) (vd : Fin 8) (ctx : Nat) (va : Word) (n : Need) : Xlat :=
  let a := va.toNat % 2 ^ 48
  if !(s.vd vd).formed then .tfault
  else
    match s.leaf vd ctx a with
    | none => .tfault
    | some (e, level) =>
      match (s.vd vd).byLeaf e level a n with
      | .ok k => if n.w && s.inImage vd k then .pfault else .ok k
      | x => x

/-! ## TLBs (16 R347) -/

/-- The place of the TLBs of the Vat slices; which slice an entry lies in follows from its virtual device and page. -/
def sliceTlb : Nat := 8192

/-- Entries of a core's TLB, and of one virtual device in a slice's TLB. -/
def coreTlbSize : Nat := 64
def Vd.sliceQuota (v : Vd) : Nat := 16 * v.tlbq

/-- Two entries lie in one TLB and belong to one virtual device. -/
def TlbEntry.rival (a b : TlbEntry) : Bool :=
  a.place == b.place && a.vd == b.vd &&
    (a.place != sliceTlb || Config.tlbSlice a.vd a.page % 4096 == Config.tlbSlice b.vd b.page % 4096)

/-- An entry enters its TLB; where the quota is used up, an entry of the same virtual device leaves, and which is left open. -/
def tlbPut (f cap : Nat) (l : List TlbEntry) (t : TlbEntry) : List TlbEntry :=
  if l.contains t then l
  else if l.length < 16 then t :: l
  else
    let rivals := l.filter t.rival
    if rivals.length < cap then t :: l else t :: l.erase (rivals.getD (Config.freeNat f % rivals.length) t)

/-- The leaf of an address loaded into a slice's TLB, and by a core's access into the core's too. -/
def State.tlbLoad (s : State) (core : Option Nat) (vd : Fin 8) (ctx : Nat) (va : Word) : State :=
  let a := va.toNat % 2 ^ 48
  match s.leaf vd ctx a with
  | none => s
  | some (e, level) =>
    let t : TlbEntry := ⟨sliceTlb, vd.val, ctx, a >>> 12, level, e⟩
    let l := tlbPut s.fresh (s.vd vd).sliceQuota s.tlb t
    { s with tlb := match core with
               | none => l
               | some c => tlbPut (s.fresh + 1) coreTlbSize l { t with place := c },
             fresh := s.fresh + 3 }

end Sys2Proof.Machine
end

