-- ==== Sys2Proof/Machine/Vat.lean ====
section
/-!
DEFINITION. The Vat and the L1 data caches (00 R5; 10 R240, R241, R263, R406; 11 R269; 16 R349 to R354): tags, ways, classes and ages, pulp
entries with their chains and zero markers, the MOESI states, and the write queues. Every value lies in `State.dram`: what stands here
decides where a line is, and no value (10 R263).
-/
namespace Sys2Proof.Machine

/-! ## Places (10 R240, R406) -/

/-- The home slice of a line by its physical address and the number of its virtual device (10 R406). -/
def homeSlice (pa n : Nat) : Nat :=
  Nat.xor (Nat.xor (Nat.xor (pa / 2 ^ 7 % 4096) (pa / 2 ^ 19 % 4096)) (Nat.xor (pa / 2 ^ 31 % 4096) (pa / 2 ^ 43 % 32))) (n * 2 ^ 9 % 4096)

/-- The physical address of a DRAM byte of a virtual device (16 R345). -/
def Vd.paOf (v : Vd) (key : Nat) : Nat :=
  let off := key % 2 ^ 33
  (off / 4096 * v.channels.length + v.channels.findIdx (· == key / 2 ^ 33)) * 4096 + off % 4096

/-- The cluster of 64 cores that holds a core: blocks of 8 × 8 by row of blocks (DESIGN CHOICE, log 58), the mill column, the spare column
(10 R240). -/
def clusterOf (c : Nat) : Nat :=
  if c < 4096 then
    let (col, row) := hpos c
    row / 8 * 8 + col / 8
  else if c < 4160 then 64
  else 65

/-! ## Classes (16 R350, R351) -/

/-- The ways that a mask names. -/
def waysOf (m : BitVec 16) : List Nat := (List.range 16).filter (fun w => m.getLsbD w)

/-- A class register of a virtual device. -/
def Vd.clsReg (v : Vd) (cls : Nat) : Word := (v.cls[cls]?).getD 0

/-- The ways that a class may fill. -/
def Vd.fillWays (v : Vd) (cls : Nat) : List Nat :=
  let m : BitVec 16 := (v.clsReg cls).extractLsb' 8 16 &&& v.vways
  waysOf (if m = 0 then v.vways else m)

def Vd.dd (v : Vd) (cls : Nat) : Bool := (v.clsReg cls)[5]
def Vd.wpol (v : Vd) (cls : Nat) : Nat := ((v.clsReg cls).extractLsb' 3 2).toNat
def Vd.newAge (v : Vd) (cls : Nat) : Nat := ((v.clsReg cls).extractLsb' 0 2).toNat

/-! ## Pulp entries (16 R352, 10 R263) -/

/-- Pulp entries of one way of a slice: 256 KiB in 16 ways of 128-byte entries. -/
def pulpsPerWay : Nat := 128

/-- A pulp entry gives up one reference; at zero it is freed. -/
def Vat.unref (v : Vat) (p : Option Nat) : Vat :=
  match p.bind (fun i => (tabGet v.pulps i).map (fun e => (i, e))) with
  | none => v
  | some (i, e) => { v with pulps := if e.refs ≤ 1 then tabErase v.pulps i else tabSet v.pulps i { e with refs := e.refs - 1 } }

/-- A tag leaves the Vat: its entry's count falls, and a dirty line goes to its write queue. -/
def Vat.evict (v : Vat) (t : VatTag) : Vat :=
  let u := v.unref t.pulp
  { u with tags := u.tags.filter (fun x => !(x.vd == t.vd && x.line == t.line))
           queues := if t.dirty then u.queues ++ [(t.slice, t.vd, t.line)] else u.queues }

/-- Room in a way of a slice. -/
def Vat.room (v : Vat) (slice way : Nat) : Bool :=
  decide ((v.pulps.filter (fun (_, e) => e.slice == slice && e.way == way)).length < pulpsPerWay)

/-- The ways of a virtual device in a slice have room for an entry, after an entry in them and the lines that share it have left where they had none;
which entry leaves is left open (DESIGN CHOICE, log 58). -/
def Vat.makeRoom (v : Vat) (vd slice : Nat) (ways : List Nat) (f : Nat) : Vat :=
  if ways.any (v.room slice) then v
  else
    let es := v.pulps.filter (fun (_, e) => e.vd == vd && e.slice == slice && ways.contains e.way)
    match es[Config.freeNat f % es.length]? with
    | none => v
    | some (i, _) =>
      let u := (v.tags.filter (fun t => t.pulp == some i)).foldl (fun u t => u.evict t) v
      { u with pulps := tabErase u.pulps i }

/-- Where the content of a line goes: the zero marker, an equal entry of its chain, or an entry of its own. -/
def Vat.place (v : Vat) (vd : Nat) (ways : List Nat) (dd : Bool) (bytes : List Byte) (f : Nat) : Vat × Option Nat :=
  if dd && bytes.all (· == 0) then (v, none)
  else
    let hash := Config.fibreHash vd bytes % 2 ^ 48
    let chain := v.pulps.filter (fun (_, e) => e.vd == vd && e.hash == hash && e.chain)
    match if dd then chain.find? (fun (_, e) => e.bytes == bytes && decide (e.refs < 1023)) else none with
    | some (i, e) => ({ v with pulps := tabSet v.pulps i { e with refs := e.refs + 1 } }, some i)
    | none =>
      let full := if dd then chain.find? (fun (_, e) => e.bytes == bytes) else none
      let u := v.makeRoom vd (hash % 4096) ways f
      let free := ways.filter (u.room (hash % 4096))
      let e : Pulp := ⟨vd, hash % 4096, free.getD (Config.freeNat (f + 1) % free.length) 0, hash, bytes, 1,
        dd && (full.isSome || decide (chain.length < 4))⟩
      let kept := match full with
        | none => u.pulps
        | some (i, x) => if (tabGet u.pulps i).isSome then tabSet u.pulps i { x with chain := false } else u.pulps
      ({ u with pulps := tabSet kept u.next e, next := u.next + 1 }, some u.next)

/-! ## Tags (16 R349, R351) -/

def Vat.tag (v : Vat) (vd line : Nat) : Option VatTag := v.tags.find? (fun t => t.vd == vd && t.line == line)

def Vat.setTag (v : Vat) (t : VatTag) : Vat :=
  { v with tags := v.tags.map (fun x => if x.vd == t.vd && x.line == t.line then t else x) }

/-- The tag that stands in a way. -/
def Vat.atWay (v : Vat) (slice set way : Nat) : Option VatTag := v.tags.find? (fun t => t.slice == slice && t.set == set && t.way == way)

/-- Age of a way; an empty way counts as the oldest (DESIGN CHOICE, log 58). -/
def Vat.ageAt (v : Vat) (slice set way : Nat) : Nat := ((v.atWay slice set way).map (·.age)).getD 3

/-- The ages of the mask's ways raised together until one of them is 3. -/
def Vat.raise (v : Vat) (slice set : Nat) (ways : List Nat) : Vat :=
  let up := 3 - (ways.map (v.ageAt slice set)).foldl max 0
  { v with tags := v.tags.map (fun t => if t.slice == slice && t.set == set && ways.contains t.way then { t with age := t.age + up } else t) }

/-- A fill: the lowest way of the mask whose age is 3 gives up its line, and the new line takes the class's age (16 R351). -/
def Vat.fill (v : Vat) (d : Vd) (vd cls line : Nat) (bytes : List Byte) (f : Nat) : Vat :=
  let slice := homeSlice (d.paOf (128 * line)) vd
  let set := Config.vatSet line % 256
  let ways := d.fillWays cls
  let r := v.raise slice set ways
  match ways.find? (fun w => r.ageAt slice set w == 3) with
  | none => v
  | some w =>
    let u := match r.atWay slice set w with
      | none => r
      | some t => r.evict t
    let (x, p) := u.place vd (waysOf d.vways) (d.dd cls) bytes f
    { x with tags := ⟨vd, line, slice, set, w, d.newAge cls, cls, false, p, []⟩ :: x.tags }

/-- A read at the home slice: a hit makes the line young, a miss fills it. -/
def Vat.read (v : Vat) (d : Vd) (vd cls line : Nat) (bytes : List Byte) (f : Nat) : Vat :=
  match v.tag vd line with
  | some t => v.setTag { t with age := 0 }
  | none => v.fill d vd cls line bytes f

/-- A tag after a write: dirty, or written through. -/
def Vat.noteWrite (v : Vat) (d : Vd) (t : VatTag) : Vat :=
  let through := d.wpol t.cls = 1
  { v.setTag { t with dirty := t.dirty || !through } with
    queues := if through then v.queues ++ [(t.slice, t.vd, t.line)] else v.queues }

/-- A write of a line's new content into its tag: the line is un-shared first, and its tag names no entry while the new content takes its place
(10 R263). -/
def Vat.rewrite (v : Vat) (d : Vd) (t : VatTag) (bytes : List Byte) (f : Nat) : Vat :=
  let (u, p) := ((v.unref t.pulp).setTag { t with pulp := none }).place t.vd (waysOf d.vways) (d.dd t.cls) bytes f
  u.noteWrite d { t with age := 0, pulp := p }

/-- A write at the home slice by the class's policy: write-back, write-through, or past a Vat that does not hold the line. A line that it fills takes the
class's age (16 R351). -/
def Vat.write (v : Vat) (d : Vd) (vd cls line : Nat) (bytes : List Byte) (f : Nat) : Vat :=
  match v.tag vd line with
  | some t => v.rewrite d t bytes f
  | none =>
    if d.wpol cls = 2 then { v with queues := v.queues ++ [(homeSlice (d.paOf (128 * line)) vd, vd, line)] }
    else
      let u := v.fill d vd cls line bytes f
      match u.tag vd line with
      | none => u
      | some t => u.noteWrite d t

/-- Clusters that may hold a line in an L1. -/
def Vat.share (v : Vat) (vd line : Nat) (cs : List Nat) : Vat :=
  match v.tag vd line with
  | none => v
  | some t => v.setTag { t with sharers := cs.foldl setInsert t.sharers }

/-- Tags and pulp entries of a virtual device in use (16 R353). -/
def Vat.tagsOf (v : Vat) (vd : Nat) : Nat := (v.tags.filter (fun t => t.vd == vd)).length
def Vat.pulpsOf (v : Vat) (vd : Nat) : Nat := (v.pulps.filter (fun (_, e) => e.vd == vd)).length

/-- Every line of a virtual device is dropped without write-back (16 R338). -/
def Vat.dropVd (v : Vat) (vd : Nat) : Vat :=
  { v with tags := v.tags.filter (fun t => t.vd != vd), pulps := v.pulps.filter (fun (_, e) => e.vd != vd)
           queues := v.queues.filter (fun q => q.2.1 != vd) }

/-! ## L1 data caches (00 R5, 10 R240) -/

/-- Ways of an L1 set, and its sets. -/
def l1Ways : Nat := 8
def l1Sets : Nat := 16

/-- The line's 128 bytes as they stand. -/
def State.lineBytes (s : State) (line : Nat) : List Byte := memBytes s.dram (128 * line) 128

/-- A line that an L1 gives up goes back to the Vat where it is modified or owned. -/
def State.writeBack (s : State) (x : L1Line) : State :=
  match x.st with
  | .exclusive => s
  | .shared => s
  | _ => { s with vat := s.vat.write (s.vd (Fin.ofNat 8 x.vd)) x.vd x.cls x.line (s.lineBytes x.line) s.fresh }

/-- Core c's L1 line. -/
def Core.l1Line (k : Core) (line : Nat) : Option L1Line := k.l1d.find? (fun x => x.line == line)

/-- The clusters that may hold a line, once every L1 but that of one core has given it up. -/
def Vat.soleSharer (v : Vat) (line : Nat) (but : Option Nat) : Vat :=
  { v with tags := v.tags.map (fun t => if t.line = line then { t with sharers := (but.map clusterOf).toList } else t) }

/-- Every L1 but that of one core gives up a line: an invalidation, or a recall by an engine (10 R240, R256). -/
def State.recall (s : State) (but : Option Nat) (line : Nat) : State :=
  let held := s.cores.filterMap (fun (c, k) => if some c = but then none else k.l1Line line)
  let t := held.foldl State.writeBack s
  { t with
    vat := t.vat.soleSharer line but
    cores := t.cores.map (fun (c, k) => (c, if some c = but then k else { k with l1d := k.l1d.filter (fun x => x.line != line) })) }

/-- The other holders of a line that a core reads go to a state of sharing (10 R240). -/
def L1Line.toShared (x : L1Line) : L1Line :=
  { x with st := match x.st with
    | .modified => .owned
    | .owned => .owned
    | _ => .shared }

def State.sharedRead (s : State) (but line : Nat) : State :=
  { s with cores := s.cores.map (fun (c, k) => (c, if c = but then k else { k with l1d := k.l1d.map (fun x =>
      if x.line = line then x.toShared else x) })) }

/-- The line that leaves a core's L1 for another: none while its set has room, else one that is left open (DESIGN CHOICE, log 58). -/
def Core.l1Victim (k : Core) (line f : Nat) : Option L1Line :=
  let rivals := k.l1d.filter (fun y => y.line != line && y.line % l1Sets == line % l1Sets)
  if rivals.length < l1Ways then none else rivals[Config.freeNat f % rivals.length]?

/-- A line enters a core's L1, and another may leave it. -/
def State.l1Put (s : State) (c : Nat) (x : L1Line) : State :=
  let k := (tabGet s.cores c).getD Core.reset
  let l := k.l1d.filter (fun y => y.line != x.line)
  match k.l1Victim x.line (s.fresh + 4) with
  | none => { s with cores := tabSet s.cores c { k with l1d := x :: l } }
  | some y =>
    let t := s.writeBack y
    { t with cores := tabSet t.cores c { k with l1d := x :: l.filter (fun z => z != y) } }

/-- A core reads a line: from its L1, or from the Vat into it. -/
def State.l1Read (s : State) (c : Nat) (vd : Fin 8) (cls line : Nat) : State :=
  let k := (tabGet s.cores c).getD Core.reset
  match k.l1Line line with
  | some _ => s
  | none =>
    let alone := s.cores.all (fun (_, k) => (k.l1Line line).isNone)
    let t := s.sharedRead c line
    let u : State := { t with vat := (t.vat.read (t.vd vd) vd.val cls line (t.lineBytes line) t.fresh).share vd.val line [clusterOf c] }
    u.l1Put c ⟨line, vd.val, cls, if alone then .exclusive else .shared⟩

/-- A core writes a line: it holds it alone, and modified (10 R240, R241). -/
def State.l1Write (s : State) (c : Nat) (vd : Fin 8) (cls line : Nat) : State :=
  let t := (s.l1Read c vd cls line).recall (some c) line
  { t with cores := t.cores.map (fun (i, k) => (i, if i = c then { k with l1d := k.l1d.map (fun x =>
      if x.line = line then { x with st := .modified } else x) } else k)) }

/-- A core gives a line up (11 R269). -/
def State.l1Flush (s : State) (c line : Nat) : State :=
  match ((tabGet s.cores c).getD Core.reset).l1Line line with
  | none => s
  | some x =>
    let t := s.writeBack x
    { t with cores := t.cores.map (fun (i, k) => (i, if i = c then { k with l1d := k.l1d.filter (fun y => y.line != line) } else k)) }

/-! ## Performed accesses (10 R241) -/

/-- An agent that is not a core reads or writes a line at its home slice. -/
def State.vatLine (s : State) (vd : Fin 8) (cls : Nat) (wr : Bool) (line : Nat) : State :=
  let t := s.recall none line
  let b := t.lineBytes line
  { t with vat := if wr then t.vat.write (t.vd vd) vd.val cls line b t.fresh else t.vat.read (t.vd vd) vd.val cls line b t.fresh }

/-- DRAM lines of the global ones among places. -/
def linesOf (ls : List Loc) : List Nat := ((ls.filter (·.glob)).map (fun l => l.key / 128)).eraseDups

/-- CLS of the leaf that maps a virtual address; 0 where none does (16 R344, R351). -/
def State.clsOf (s : State) (vd : Fin 8) (ctx : Nat) (va : Word) : Nat :=
  match (s.vd vd).walk s.dram ctx (va.toNat % 2 ^ 48) with
  | none => 0
  | some (e, _) => (e.extractLsb' 57 3).toNat

/-- Performed accesses of a core's threads to global places (10 R241). -/
def State.coreTouch (s : State) (c : Nat) (vd : Fin 8) (cls : Nat) (wr : Bool) (ls : List Loc) : State :=
  (linesOf ls).foldl (fun st l => { (if wr then st.l1Write c vd cls l else st.l1Read c vd cls l) with fresh := st.fresh + 8 }) s

/-- Performed accesses of an engine, the host, the fabric or a command processor to global places (10 R241, R256). -/
def State.vatTouch (s : State) (vd : Fin 8) (cls : Nat) (wr : Bool) (ls : List Loc) : State :=
  (linesOf ls).foldl (fun st l => { st.vatLine vd cls wr l with fresh := st.fresh + 8 }) s

/-- What is left of the write queues when some of the oldest writes of each have drained: one queue per slice and virtual device, and how many of its
writes is left open (16 R354). -/
def drained (q : List (Nat × Nat × Nat)) (f : Nat) : List (Nat × Nat × Nat) :=
  ((q.map (fun e => (e.1, e.2.1))).eraseDups.zipIdx).flatMap (fun (k, i) =>
    let own := q.filter (fun e => (e.1, e.2.1) == k)
    own.drop (Config.freeNat (f + i) % (own.length + 1)))

/-- The writes of the slices' queues that reach DRAM in a ck. -/
def State.drainVat (s : State) : State :=
  match s.vat.queues with
  | [] => s
  | q => { s with vat := { s.vat with queues := drained q s.fresh }, fresh := s.fresh + q.length }

/-! ## Walks (16 R344, R347) -/

/-- The places of the table entries that a walk reads, n levels from the end. -/
def Vd.walkKeys (v : Vd) (m : Memory) (va : Nat) : Nat → Nat → List Nat
  | 0, _ => []
  | n + 1, table =>
    let idx := (va >>> (12 + 9 * n)) % 512
    match v.iaKey (table + 8 * idx), v.entryAt m table idx with
    | some k, some e => k :: (if !pteOk (4 - n) e || e[1] then [] else v.walkKeys m va n (pteAddr e))
    | _, _ => []

/-- A walk reads its table entries through the Vat, as lines of class 0: no leaf names a class for them (16 R344; DESIGN CHOICE, log 58). -/
def State.walkTouch (s : State) (vd : Fin 8) (ctx va : Nat) : State :=
  match (s.vd vd).ctx s.dram ctx with
  | none => s
  | some c => s.vatTouch vd 0 false (((s.vd vd).walkKeys s.dram va 4 c.s1root).map (fun k => ⟨true, k⟩))

/-- The state after an access to an address has loaded its leaf into a slice's TLB, and a core's access into the core's too, and drawn its choice of
leaf; where no TLB held it, it has walked. -/
def State.tlbFill (s : State) (core : Option Nat) (vd : Fin 8) (ctx : Nat) (va : Word) : State :=
  let a := va.toNat % 2 ^ 48
  let t := s.tlbLoad core vd ctx va
  if s.tlb.any (fun e => e.covers vd.val ctx a) then t else t.walkTouch vd ctx a

end Sys2Proof.Machine
end

