-- ==== Sys2Proof/Machine/Ops.lean ====
section
/-!
DEFINITION. The named operations over the state: threads and cores, registers in the workspace, memories, code fetch, traps,
blocking, retirement, and the operations in flight.
-/
namespace Sys2Proof.Machine

/-! ## Cores and threads -/

/-- Core c, by absolute Hilbert index. -/
def State.core (s : State) (c : Nat) : Core := (tabGet s.cores c).getD Core.reset

def State.setCore (s : State) (c : Nat) (k : Core) : State := { s with cores := tabSet s.cores c k }

def State.modCore (s : State) (c : Nat) (f : Core → Core) : State := s.setCore c (f (s.core c))

/-- The thread in slot t of a core. -/
def Core.thread (k : Core) (t : Nat) : Option Thread := (k.slots[t]?).join

def Core.setThread (k : Core) (t : Nat) (th : Option Thread) : Core := { k with slots := k.slots.setIfInBounds t th }

def State.thread (s : State) (c t : Nat) : Option Thread := (s.core c).thread t

/-- The messages that carry n bytes: MSGLIM.LIM flits of 32 bytes each at most (19 R394, 13 R327; DEDUCED, log 61). -/
def State.msgs (s : State) (n : Nat) : Nat := max 1 ((n + 32 * s.msglim - 1) / (32 * s.msglim))

/-- Messages that a core's network interface has sent (13 R320). -/
def State.msgSent (s : State) (c n : Nat) : State :=
  if n = 0 then s else s.modCore c (fun k => { k with sent := k.sent + BitVec.ofNat 32 n })

/-- A core that has received n messages is black (13 R320). -/
def Core.received (k : Core) (n : Nat) : Core := if n = 0 then k else { k with recv := k.recv + BitVec.ofNat 32 n, black := true }

/-- Messages that a core's network interface has received (13 R320). -/
def State.msgRecv (s : State) (c n : Nat) : State := s.modCore c (·.received n)

def State.setThread (s : State) (c t : Nat) (th : Thread) : State := s.modCore c (·.setThread t (some th))

/-- A change of the thread in a slot; nothing when the slot is empty. -/
def State.modThread (s : State) (c t : Nat) (f : Thread → Thread) : State :=
  match s.thread c t with
  | none => s
  | some th => s.setThread c t (f th)

/-- The thread whose instruction executes. -/
def State.cur (s : State) : Option Thread := s.thread s.curCore s.curSlot

def State.setCur (s : State) (th : Thread) : State := s.setThread s.curCore s.curSlot th

def State.modCur (s : State) (f : Thread → Thread) : State := s.modThread s.curCore s.curSlot f

/-- The resident threads of a core with their slots. -/
def Core.threads (k : Core) : List (Nat × Thread) :=
  (List.range 4).filterMap (fun t => (k.thread t).map (fun th => (t, th)))

def State.node (s : State) (n : Nat) : Node := (tabGet s.nodes n).getD Node.none

def State.setNode (s : State) (n : Nat) (x : Node) : State := { s with nodes := tabSet s.nodes n x }

/-- A change of a node; nothing when there is no such node. -/
def State.modNode (s : State) (n : Nat) (f : Node → Node) : State :=
  match tabGet s.nodes n with
  | none => s
  | some x => s.setNode n (f x)

def State.modVd (s : State) (n : Fin 8) (f : Vd → Vd) : State := { s with vds := s.vds.set n (f s.vds[n]) }

/-- The virtual device of a thread's node. -/
def State.vdOf (s : State) (th : Thread) : Vd := s.vd (s.node th.node).vd

/-- Quire-relative index of a core (02 R37, R39). -/
def State.hOf (s : State) (th : Thread) (core : Nat) : Nat := core - (s.vdOf th).qbase

/-! ## Free values (DESIGN CHOICE, log 4) -/

def State.drawn (s : State) : State := { s with fresh := s.fresh + 1 }

/-- A ck from 1 to `bound` after now, left open by the spec (DESIGN CHOICE, log 6). -/
def State.later (s : State) (bound : Nat) : Nat := s.clk + 1 + Config.freeNat s.fresh % bound

/-- A step put on the agenda for a ck. -/
def State.due (s : State) (ck : Nat) (i : Instr) : State := { s with agenda := s.agenda ++ [(ck, i)] }

/-- A step put on the agenda for a ck that the spec leaves open within a bound. -/
def State.dueWithin (s : State) (bound : Nat) (i : Instr) : State := (s.due (s.later bound) i).drawn

/-! ## Scratchpad bytes -/

/-- The key of a scratchpad byte: core and offset. -/
def spadKey (core off : Nat) : Nat := core * 2 ^ 18 + off

/-- The threads that are Parked on the 128-byte unit of a byte are woken by a performed write, 4 ck on (11 R272, R273). -/
def State.wakeUnit (s : State) (l : Loc) : State :=
  { s with agenda := s.agenda ++ (s.cores.flatMap (fun (c, k) => k.threads.filterMap (fun (t, th) =>
      if th.run = .parked l.glob (l.key / 128) && !s.agenda.any (fun e => e.2 == .parkWake c t) then some (s.clk + 4, Instr.parkWake c t) else none))) }

def unitsOf (ls : List Loc) : List Loc := (ls.map (fun l => { l with key := l.key / 128 * 128 })).eraseDups

/-- Wakes for every unit that a performed write touches. -/
def State.wake (s : State) (ls : List Loc) : State := (unitsOf ls).foldl State.wakeUnit s

/-- A data unit that a write replaces whole loses its poison (17 R383). -/
def clearPoison (l : List Nat) (size : Nat) (keys : List Nat) : List Nat :=
  l.filter (fun u => !(List.range size).all (fun i => keys.contains (u * size + i)))

/-- The byte at a place. -/
def State.readLoc (s : State) (l : Loc) : Byte := if l.glob then memRead s.dram l.key else memRead s.spad l.key

/-- One byte written at a place. -/
def State.putLoc (s : State) (l : Loc) (b : Byte) : State :=
  if l.glob then { s with dram := memWrite s.dram l.key b } else { s with spad := memWrite s.spad l.key b }

def State.putLocs (s : State) : List (Loc × Byte) → State
  | [] => s
  | (l, b) :: t => (s.putLoc l b).putLocs t

/-- WP (02 R66). -/
def Thread.wp (th : Thread) : Nat := th.blk.toNat * 1024

/-- The register that an operation in flight writes when it completes. -/
def Op.regDest (o : Op) : Dest :=
  match o.kind with
  | .access a => a.dest
  | .coll c => c.dest
  | .fab f => f.dest
  | .copy _ => .none

/-- Offset in the workspace and bytes of a destination register (02 R46). -/
def Dest.area : Dest → Option (Nat × Nat)
  | .w i => some (8 * i, 8)
  | .v i => some (256 + 128 * i, 128)
  | _ => Option.none

/-- A scratchpad byte lies in a destination register of a thread. -/
def Thread.destHolds (th : Thread) (core : Nat) (d : Dest) (key : Nat) : Bool :=
  match d.area with
  | none => false
  | some (off, n) => decide (spadKey core (th.wp + off) ≤ key ∧ key < spadKey core (th.wp + off) + n)

/-- The key of a node's saved core. -/
def savedKey (node core : Nat) : Nat := node * 8192 + core

/-- The thread that issued an operation is not resident, because its core is saved (17 R374, R376). -/
def State.away (s : State) (o : Op) : Bool := (tabGet s.saved (savedKey o.node o.core)).isSome

/-- The thread that issued an operation: in its slot, or as its saved core holds it. -/
def State.issuer (s : State) (o : Op) : Option Thread :=
  match tabGet s.saved (savedKey o.node o.core) with
  | none => s.thread o.core o.slot
  | some sv => sv.core.thread o.slot

/-- The instruction in a core's Watermark unit will write a byte. -/
def Core.wmHolds (k : Core) (c key : Nat) : Option Nat :=
  match k.wm with
  | none => none
  | some w =>
    match w.dest, k.thread w.slot with
    | some (d, _), some th => if d.toNat < 32 ∧ !th.handler ∧ th.destHolds c (.w d.toNat) key then some th.node else none
    | _, _ => none

/-- The nodes of the threads to whose registers a byte belongs and that an operation in flight will write there: resident ones, or with `img` those
of one node whose cores are saved. -/
def State.awaitedBy (s : State) (img : Option Nat) (key : Nat) : List Nat :=
  let mine (o : Op) : Bool := match img with
    | none => !s.away o
    | some n => s.away o && o.node == n
  ((s.ops.filter (fun (_, o) => mine o && ((s.issuer o).map (fun th => th.destHolds o.core o.regDest key)).getD false)).map (·.2.node) ++
    (match img with
    | none => s.cores.filterMap (fun (c, k) => k.wmHolds c key)
    | some n => s.saved.filterMap (fun (x, sv) => if x / 8192 = n then sv.core.wmHolds (x % 8192) key else none))).eraseDups

/-- A store that reaches a register which an operation still owes takes effect after that operation's instruction: the register's
later value leaves its bytes alone (02 R48). -/
def State.noteLate (s : State) (img : Option Nat) (keys : List Nat) : State :=
  { s with late := s.late ++ keys.flatMap (fun k => (s.awaitedBy img k).map (fun n => ⟨n, k, s.nextOp⟩)) }

/-- A performed write of bytes: their values, the poison of units replaced whole, the registers that they overtake, and the wakes (02 R48,
11 R272, 17 R383). -/
def State.storeLocs (s : State) (ws : List (Loc × Byte)) : State :=
  let t := s.putLocs ws
  let sk := (ws.filter (fun w => !w.1.glob)).map (·.1.key)
  let gk := (ws.filter (fun w => w.1.glob)).map (·.1.key)
  (({ t with poisonS := clearPoison t.poisonS 8 sk, poisonD := clearPoison t.poisonD 128 gk } : State).noteLate none sk).wake (ws.map (fun w => w.1))

/-- A byte lies in a poisoned data unit (17 R383). -/
def State.poisoned (s : State) (l : Loc) : Bool :=
  if l.glob then s.poisonD.contains (l.key / 128) else s.poisonS.contains (l.key / 8)

/-- n consecutive scratchpad bytes of a core from an offset. -/
def spadLocs (core off n : Nat) : List Loc := (List.range n).map (fun i => ⟨false, spadKey core (off + i)⟩)

/-! ## Registers: the bytes of the workspace (02 R46, R48) -/

/-- The key of a byte of the current thread's workspace. -/
def State.wsKey (s : State) (off : Nat) : Nat :=
  match s.cur with
  | none => 0
  | some th => spadKey s.curCore (th.wp + off)

def State.wsRead (s : State) (off n : Nat) : Nat := leNat (memBytes s.spad (s.wsKey off) n)

/-- Bytes of the workspace written; a word that they replace whole loses its poison (17 R383). -/
def State.wsWrite (s : State) (off n v : Nat) : State :=
  let lo := s.wsKey off
  { s with
    spad := memPut s.spad lo (leBytes n v)
    poisonS := s.poisonS.filter (fun u => !decide (lo ≤ 8 * u ∧ 8 * u + 8 ≤ lo + n)) }

/-- Bytes of a register that operation number id owes, but for those that a later store has written (02 R48). -/
def State.wsDeliver (s : State) (id off : Nat) (bs : List Byte) : State :=
  let lo := s.wsKey off
  let node := (s.cur.map (·.node)).getD 0
  let newer (k : Nat) : Bool := s.late.any (fun e => e.node == node && e.key == k && decide (id < e.next))
  let t := if s.late.isEmpty then s.wsWrite off bs.length (leNat bs)
    else { s with spad := bs.zipIdx.foldl (fun m (b, i) => if newer (lo + i) then m else memWrite m (lo + i) b) s.spad }
  { t with late := t.late.filter (fun e => !(e.node == node && decide (lo ≤ e.key ∧ e.key < lo + bs.length))) }

/-- w register i: the workspace word, or in handler mode the handler bank (17 R363). -/
def State.getW (s : State) (i : Nat) : Word :=
  match s.cur with
  | none => 0
  | some th => if th.handler then (th.bank[i]?).getD 0 else BitVec.ofNat 64 (s.wsRead (8 * i) 8)

/-- w register i written by an instruction. -/
def State.setW (s : State) (i : Nat) (x : Word) : State :=
  match s.cur with
  | none => s
  | some th =>
    if th.handler then s.setCur { th with bank := th.bank.setIfInBounds i x } else s.wsWrite (8 * i) 8 x.toNat

/-- v register i. -/
def State.getV (s : State) (i : Nat) : Vec := BitVec.ofNat 1024 (s.wsRead (256 + 128 * i) 128)

def State.setV (s : State) (i : Nat) (x : Vec) : State := s.wsWrite (256 + 128 * i) 128 x.toNat

/-- m register i. -/
def State.getM (s : State) (i : Nat) : BitVec 128 := BitVec.ofNat 128 (s.wsRead (2304 + 16 * i) 16)

def State.setM (s : State) (i : Nat) (x : BitVec 128) : State := s.wsWrite (2304 + 16 * i) 16 x.toNat

/-- Shape record i as its 256-bit value (07 R195). -/
def State.getS (s : State) (i : Nat) : BitVec 256 := BitVec.ofNat 256 (s.wsRead (2432 + 32 * i) 32)

/-! ## Code fetch (03 R70) -/

/-- Offset in the resident handler's code of a pc of handler mode (17 R363). -/
def handlerOff (x : Word) : Nat := (x - Config.handlerEntry).toNat

/-- A word of the code image, in handler mode of the resident handler, or the kind of the trap that its fetch raises. -/
def State.fetchWord (s : State) (th : Thread) (x : Word) : Except Nat Word32 :=
  let n := s.node th.node
  if th.handler then
    (if handlerOff x + 4 > (s.vd n.vd).handlerCode.length then .error 4
    else .ok (BitVec.ofNat 32 (leNat (((s.vd n.vd).handlerCode.drop (handlerOff x)).take 4))))
  else if x.toNat + 4 > n.codeLen then .error 4
  else
    let va := n.codeVa + x
    if !canonical va then .error 4
    else
      match s.translate n.vd n.ctx va ⟨false, false, true⟩ with
      | .tfault => .error 6
      | .pfault => .error 7
      | .ok k => if s.poisonD.contains (k / 128) then .error 8 else .ok (BitVec.ofNat 32 (leNat (memBytes s.dram k 4)))

/-- The words that follow a base word; none beyond the length. -/
def State.fetchRest (s : State) (th : Thread) (x : Word) : Nat → Except Nat (List Word32)
  | 0 => .ok []
  | n + 1 =>
    match s.fetchWord th x with
    | .error k => .error k
    | .ok w =>
      match s.fetchRest th (x + 4) n with
      | .error k => .error k
      | .ok ws => .ok (w :: ws)

/-- What the fetch and decode of an instruction give: the instruction, or the kind of the trap raised. -/
noncomputable def State.fetch (s : State) (th : Thread) : Except Nat Instr :=
  if th.pc.toNat % 4 ≠ 0 then .error 5
  else
    match s.fetchWord th th.pc with
    | .error k => .error k
    | .ok w =>
      match s.fetchRest th (th.pc + 4) (lenWords (lenOf w) - 1) with
      | .error k => .error k
      | .ok ws =>
        match decode w (ws.getD 0 0) (ws.getD 1 0) (ws.getD 2 0) (ws.getD 3 0) with
        | .error _ => .error 1
        | .ok i => .ok i

/-- The base word at a code offset, 0 where no word can be fetched (17 R360, TINFO.WORD). At an offset that is no multiple of 4 it is the four bytes
from there, which 03 R70 and 17 R360 leave open (DESIGN CHOICE, log 85). -/
def State.baseWord (s : State) (th : Thread) (x : Word) : Word32 :=
  match s.fetchWord th x with
  | .ok w => w
  | .error _ => 0

/-- A code offset lies in the code image (03 R70, 05 R166). -/
def State.inCode (s : State) (th : Thread) (x : Word) : Bool :=
  if th.handler then handlerOff x + 4 ≤ (s.vdOf th).handlerCode.length else x.toNat + 4 ≤ (s.node th.node).codeLen

/-! ## Traps (17 R358 to R363) -/

/-- KIND (17 R358). -/
def Trap.kind : Trap → Nat
  | .illegalInstruction => 1 | .illegalOperand => 2 | .privilege => 3 | .addressFault => 4 | .misaligned => 5
  | .translation => 6 | .permission => 7 | .dataError => 8 | .reamWrite => 9 | .controlFlow => 10 | .gang => 11
  | .software => 12 | .asyncFault => 13 | .shape => 14 | .watermark => 15 | .copy => 16 | .collective => 17
  | .fabric => 18 | .deckle => 19

/-- TSTAT at trap entry (17 R360). -/
def tstatOf (rpc : Word) (kind code : Nat) : Word := (rpc <<< 32) ||| BitVec.ofNat 64 (kind % 256 * 65536 + code % 65536)

/-- TINFO at trap entry (17 R360). -/
def tinfoOf (tag cls sub : Nat) (word : Word32) : Word :=
  BitVec.ofNat 64 (tag % 65536 * 2 ^ 48 + cls % 8 * 2 ^ 45 + sub % 256 * 2 ^ 32 + word.toNat)

/-- The fault record of a thread (17 R367): RKIND 1 for a trap, 2 for a halt. -/
def State.recordOf (s : State) (rkind core slot : Nat) (th : Thread) : FaultRec :=
  let n := s.node th.node
  ⟨rkind, n.vd, n.ctx, s.hOf th core, slot, th.tstat, th.taddr, th.tinfo, s.clk, n.index, n.mould, n.replay, 0, 0, false⟩

/-- The ck at which the last record of the same core and ck arrives that is on its way; a later one does not pass it (17 R365). -/
def State.recordAfter (s : State) (r : FaultRec) : Nat :=
  (s.agenda.map (fun e => match e.2 with
    | .faultRecord q => if q.vd = r.vd ∧ q.h = r.h ∧ q.clk = r.clk then e.1 else 0
    | _ => 0)).foldl max 0

/-- A fault record on its way to the fault server of its virtual device: within 2,000 ck to the own mill role, within 40,000 to a peer;
records of threads of one core that trap in one ck go in the order in which they are sent (17 R365 to R367). -/
def State.sendRecord (s : State) (r : FaultRec) : State :=
  (s.due (max (s.later (if (s.vd r.vd).fsid[11] then 40000 else 2000)) (s.recordAfter r)) (.faultRecord r)).drawn

/-- A record that is sent at a ck which the spec leaves open within a bound. -/
def State.sendWithin (s : State) (bound : Nat) (r : FaultRec) : State :=
  (s.dueWithin (bound + (if (s.vd r.vd).fsid[11] then 40000 else 2000)) (.faultRecord r))

/-- HALT: every resident thread of the core Stopped, and a halt record to the fault server, whose action the thread then awaits
(05 R156). -/
def State.haltCore (s : State) (c t : Nat) : State :=
  match s.thread c t with
  | none => s
  | some th =>
    ((s.modCore c (fun k => { k with slots := k.slots.map (·.map (fun x => { x with stopped := true })), halted := true })).modThread c t
      (fun x => { x with awaiting := true })).sendRecord (s.recordOf 2 c t th)

/-- TAKING A TRAP (17 R363): RPC, KIND and CODE into TSTAT, the address into TADDR, the information into TINFO, handler mode, the
handler bank in place of w0 to w31, and the pc at the entry of the resident handler. A trap raised in handler mode halts the core.
`resume` is the resume point; every other effect of the instruction has been left out by the caller. -/
def State.enterTrap (s : State) (c t : Nat) (k : Trap) (code : Nat) (addr resume : Word) (tag cls sub : Nat) : State :=
  match s.thread c t with
  | none => s
  | some th =>
    if th.handler then s.haltCore c t
    else s.setThread c t { th with
      tstat := tstatOf resume k.kind code
      taddr := addr
      tinfo := tinfoOf tag cls sub (s.baseWord th resume)
      handler := true
      codeFault := false
      pc := Config.handlerEntry
      run := .ready }

/-- A trap of the thread in a slot whose TADDR is a place of the code image (03 R70, 17 R360, R364). -/
def State.atCode (s : State) (c t : Nat) : State := s.modThread c t (fun th => { th with codeFault := true })

/-- THE RETURN FROM A TRAP (05 R156): out of handler mode, at the resume point that TSTAT.RPC holds. -/
def State.leaveTrap (s : State) (c t : Nat) : State :=
  s.modThread c t (fun th => { th with handler := false, pc := th.tstat >>> 32, run := .ready })

/-- A synchronous trap of the current thread at its instruction (17 R359, R360: TAG 0, CLASS 7, SUB 0). -/
def State.trapCur (s : State) (k : Trap) (code : Nat) (addr : Word) : State :=
  match s.cur with
  | none => s
  | some th => s.enterTrap s.curCore s.curSlot k code addr th.pc 0 7 0

/-- The answer of an instruction that traps. -/
def trap (k : Trap) (code : Nat) (addr : Word) (s : State) : Out := .next (s.trapCur k code addr)

/-- The same, where the address is a place of the code image. -/
def trapCode (k : Trap) (addr : Word) (s : State) : Out := .next ((s.trapCur k 0 addr).atCode s.curCore s.curSlot)

/-! ## Blocking and retiring -/

/-- The answer of an instruction that must wait: its thread Blocked, nothing else changed (02 R44). -/
def block (why : Why) (s : State) : Out := .next (s.modCur (fun th => { th with run := .blocked why }))

/-- Pop positions of the four load-data queues (01 R14). -/
abbrev Pend := Vector Nat 4

def noPend : Pend := #v[0, 0, 0, 0]

/-- Retirement: the pops take effect and the pc moves past the instruction's words (01 R14, 03 R69). -/
def Thread.retire (th : Thread) (p : Pend) (words : Nat) : Thread :=
  { th with lq := Vector.zipWith (fun l n => l.drop n) th.lq p, pc := th.pc + BitVec.ofNat 64 (4 * words), run := .ready }

def State.retire (s : State) (p : Pend) (words : Nat) : State := s.modCur (·.retire p words)

/-- The same with a control transfer: the pops take effect and the pc takes the target. -/
def State.retireTo (s : State) (p : Pend) (target : Word) : State := s.modCur (fun th => { th.retire p 0 with pc := target })

/-- An instruction of the current thread; without a thread the machine is stuck. -/
def withThread (s : State) (f : Thread → Out) : Out :=
  match s.cur with
  | none => .fault .noThread
  | some th => f th

/-! ## Counters (02 R63) -/

def Counters.get (c : Counters) : Cls → Nat
  | .ld => c.ld | .st => c.st | .cp => c.cp | .pr => c.pr | .cr => c.cr

def Counters.set (c : Counters) (k : Cls) (n : Nat) : Counters :=
  match k with
  | .ld => { c with ld := n } | .st => { c with st := n } | .cp => { c with cp := n } | .pr => { c with pr := n }
  | .cr => { c with cr := n }

/-- Largest counts (02 R63). -/
def largest : Cls → Nat
  | .ld => 30 | .st => 30 | .cp => 120 | .pr => 14 | .cr => 6

/-- Number of a class in TINFO.CLASS (17 R360). -/
def clsCode : Cls → Nat
  | .ld => 0 | .st => 1 | .cp => 2 | .pr => 3 | .cr => 4

def Thread.up (th : Thread) (k : Cls) : Thread := { th with cnt := th.cnt.set k (th.cnt.get k + 1) }

def Thread.down (th : Thread) (k : Cls) : Thread := { th with cnt := th.cnt.set k (th.cnt.get k - 1) }

/-- An operation of the class would raise its counter above the largest count (02 R63). -/
def Thread.full (th : Thread) (k : Cls) : Bool := th.cnt.get k ≥ largest k

/-- CNT (02 R64). -/
def Thread.cntWord (th : Thread) : Word :=
  BitVec.ofNat 64 (th.cnt.ld + th.cnt.st * 2 ^ 5 + th.cnt.cp * 2 ^ 10 + th.cnt.pr * 2 ^ 17 + th.cnt.cr * 2 ^ 21)

/-- The operation tag (PC >> 2)[15:0] (17 R362). -/
def Thread.tag (th : Thread) : Nat := (th.pc.toNat >>> 2) % 65536

/-! ## Operations in flight -/

/-- An operation of the current thread issues: it takes the next number and its class counter rises (02 R63). -/
def State.issue (s : State) (o : Op) : State :=
  ({ s with ops := tabSet s.ops s.nextOp o, nextOp := s.nextOp + 1 } : State).modThread o.core o.slot (·.up o.cls)


/-! ## Thread records and the image of a saved core (17 R372, R376) -/

/-- State code of a thread record: the order of 02 R44. -/
def Thread.stateCode (th : Thread) : Nat :=
  if th.awaiting then 4
  else match th.run with
    | .ready => 0
    | .blocked _ => 1
    | .parked _ _ => 2
    | .waiting => 3

/-- The value of a queue entry in the image. -/
def LqEntry.word : LqEntry → Word
  | .data x => x
  | .owed _ _ => 0

/-- The values at the head of a load-data queue whose data have arrived, counted without a gap: Count(q) (02 R43). -/
def arrived : List LqEntry → List Word
  | .data x :: t => x :: arrived t
  | _ => []

def padTo (n : Nat) (bs : List Byte) : List Byte := (bs ++ List.replicate n 0).take n

def wordBytes (ws : List Word) : List Byte := ws.flatMap (fun x => leBytes 8 x.toNat)

/-- A part of an image for which the spec gives the words that it holds and no places: an open layout, padded with zeros (DESIGN CHOICE, log
12). -/
def openPart (part n : Nat) (ws : List Word) : List Byte := padTo n (Config.imageLayout part ws)

/-- A number as a word. -/
def wordOf (n : Nat) : Word := BitVec.ofNat 64 n

/-- A thread record: 8 KiB (17 R372). A queue is stored from its head, at index 0; the places of head, Count and pend within a queue's word are
open (DESIGN CHOICE, log 12). -/
def threadRecord (th : Thread) : List Byte :=
  padTo 256 (wordBytes [wordOf (th.stateCode + (if th.handler then 8 else 0) + (if th.awaiting then 16 else 0)),
      th.pc, wordOf th.wp, th.fmt.setWidth 64, th.rnd.setWidth 64, th.seed.setWidth 64, th.sigd, th.frb.setWidth 64, th.cntWord,
      th.tstat, th.taddr, th.tinfo, th.gangWord] ++
    (th.lq.toList.zip th.pend.toList).flatMap (fun (q, p) => openPart 4 8 [0, wordOf (arrived q).length, wordOf p]) ++
    th.sq.toList.flatMap (fun q => openPart 5 8 [0, wordOf q.length])) ++
    wordBytes th.bank.toList ++
    (th.lq.toList.flatMap (fun q => padTo 256 (wordBytes (q.map (·.word))))) ++
    padTo 512 (th.sq.toList.flatMap (fun q => padTo 256 (wordBytes q))) ++
    padTo 6144 (th.faults.flatMap (fun a =>
      wordBytes [tstatOf 0 13 a.code ||| tinfoOf a.tag (clsCode a.cls) a.sub 0, a.addr]))

/-- The status block (02 R47): PC, FMT, RND, SEED, SIGD, FRB, CNT and nine reserved words of zero. -/
def Thread.statusBytes (th : Thread) : List Byte :=
  ([th.pc, th.fmt.setWidth 64, th.rnd.setWidth 64, th.seed.setWidth 64, th.sigd, th.frb.setWidth 64, th.cntWord].flatMap (fun x => leBytes 8 x.toNat))
    ++ List.replicate 72 0

/-- Places of a virtual range that translate, with the bytes for them. -/
def State.imagePlaces (s : State) (node : Nat) (sv : Saved) (bs : List (Nat × Byte)) : List (Loc × Byte) :=
  let n := s.node node
  bs.filterMap (fun (off, b) =>
    match s.translate n.vd n.ctx (sv.image + wordOf off) ⟨false, false, false⟩ with
    | .ok k => some (⟨true, k⟩, b)
    | _ => none)

/-- Bytes of a saved core's image rewritten by the device, by their offsets, where they translate. -/
def State.imageWrite (s : State) (node : Nat) (sv : Saved) (bs : List (Nat × Byte)) : State := s.putLocs (s.imagePlaces node sv bs)

/-- The bytes of a record from an offset on that differ from an earlier one's. -/
def changedBytes (off : Nat) (old new : List Byte) : List (Nat × Byte) :=
  ((old.zip new).zipIdx).filterMap (fun (x, i) => if x.1 = x.2 then none else some (off + i, x.2))

/-- Offset of a slot's thread record in a core image (17 R370). -/
def recordOff (slot : Nat) : Nat := 0x41000 + 0x2000 * slot

/-- What a thread's change changes in its core's image: bytes of its record, and of its status block (02 R47, 17 R370, R372). -/
def Thread.imageBytes (th new : Thread) (slot : Nat) : List (Nat × Byte) :=
  changedBytes (th.wp + 2688) th.statusBytes new.statusBytes ++ changedBytes (recordOff slot) (threadRecord th) (threadRecord new)

/-- A thread of a saved core changes, and with it the lines of its image that are written already (17 R376). -/
def State.modSaved (s : State) (node core slot : Nat) (f : Thread → Thread) : State :=
  match tabGet s.saved (savedKey node core) with
  | none => s
  | some sv =>
    match sv.core.thread slot with
    | none => s
    | some th =>
      ({ s with saved := tabSet s.saved (savedKey node core) { sv with core := sv.core.setThread slot (some (f th)) } } : State).imageWrite
        node sv ((th.imageBytes (f th) slot).filter (fun x => decide (x.1 / 128 < sv.lines)))

/-- The thread that issued an operation changes, where it stands. -/
def State.modIssuer (s : State) (o : Op) (f : Thread → Thread) : State :=
  if s.away o then s.modSaved o.node o.core o.slot f else s.modThread o.core o.slot f

/-- A fault of an asynchronous operation waits to be reported (05 R165). -/
def State.noteFault (s : State) (id : Nat) (o : Op) (k : Trap) (code : Nat) (addr : Word) : State :=
  s.modIssuer o (fun th => { th with faults := th.faults ++ [⟨id, o.cls, o.tag, k.kind, code, addr⟩] })

/-- An access reads memory. -/
def AccessAct.reads : AccessAct → Bool
  | .load _ => true | .vload _ => true | .store _ => false | .atomic _ _ _ => true

/-- An access writes memory. -/
def AccessAct.writes : AccessAct → Bool
  | .load _ => false | .vload _ => false | .store _ => true | .atomic _ _ _ => true

/-- What the ordering rules ask about an operation in flight (10 R247). -/
def Op.view (o : Op) : OrdView :=
  match o.kind with
  | .access a => ⟨o.ords, o.scope, a.act.reads, a.act.writes, a.locs, a.home⟩
  | _ => ⟨o.ords, o.scope, true, true, [], none⟩

/-- The operation is settled for later ones: performed, or registered (10 R241, R256). -/
def Op.settled (o : Op) : Bool :=
  match o.kind with
  | .access a => a.performed
  | .copy c => c.registered
  | _ => true

/-- The operations in flight that the thread in a slot has issued, oldest first. -/
def State.opsOf (s : State) (c t : Nat) : List (Nat × Op) :=
  match s.thread c t with
  | none => []
  | some th => s.ops.filter (fun (_, o) => o.core == c && o.slot == t && o.node == th.node)

/-- The operations in flight of the thread that issued one, resident or saved, oldest first. -/
def State.siblings (s : State) (o : Op) : List (Nat × Op) :=
  s.ops.filter (fun (_, e) => e.core == o.core && e.slot == o.slot && e.node == o.node)

/-- Some earlier operation of the thread must be performed before an operation of this view, which comes after all that it
has issued (10 R248). -/
def State.mustWait (s : State) (c t : Nat) (v : OrdView) : Bool :=
  (s.opsOf c t).any (fun (_, o) => !o.settled && mustPrecede o.view v)

/-- Every earlier access of the thread is performed and every engine operation registered (10 R244, R255). -/
def State.allSettled (s : State) (c t : Nat) : Bool := (s.opsOf c t).all (fun (_, o) => o.settled)

/-! ## Arrivals and completion (02 R63, 05 R148, 10 R245, 13 R316) -/

/-- The stop tree has halted the core (13 R327). -/
def Core.treeStopped (k : Core) (clk : Nat) : Bool :=
  match k.stopAt with
  | none => false
  | some t => decide (t ≤ clk)

/-- The threads of a node that are resident on a core. -/
def Core.ofNode (k : Core) (node : Nat) : List (Nat × Thread) := k.threads.filter (fun x => x.2.node == node)

/-- Every resident thread of the node on the core is Waiting, and there is one. -/
def Core.allWaiting (k : Core) (node : Nat) : Bool :=
  !(k.ofNode node).isEmpty && (k.ofNode node).all (fun x => x.2.run == .waiting)

/-- The core arrives: every resident thread of the node on it is Waiting, with its earlier accesses performed and its counters at zero. -/
def State.arrives (s : State) (core node : Nat) : Bool :=
  (s.core core).allWaiting node && ((s.core core).ofNode node).all (fun x => x.2.cnt == Counters.zero && s.allSettled core x.1)

/-- The core's arrival, when it has come about. -/
def State.arrivalTry (s : State) (core node : Nat) : State :=
  if s.arrives core node then s.due s.clk (.coreArrival core) else s

/-- An operation is complete: it leaves the table and its class counter falls; a core may arrive with it. -/
def State.finish (s : State) (id : Nat) (o : Op) : State :=
  (({ s with ops := tabErase s.ops id } : State).modIssuer o (·.down o.cls)).arrivalTry o.core o.node

/-! ## Registered bytes (10 R257, R258, 07 R209, 08 R224) -/

/-- The bytes that a copy in flight has registered for writing, and those for reading that it has not moved yet. -/
def Op.heldLocs (o : Op) : List Loc :=
  match o.kind with
  | .copy c => (c.chunks.flatMap id).map (·.1)
  | _ => []

def Op.readLocs (o : Op) : List Loc :=
  match o.kind with
  | .copy c => c.srcs.flatMap id
  | _ => []

/-- The bytes of a core's scratchpad that its Press and its Watermark unit have registered for writing, and for reading. -/
def Core.heldKeys (k : Core) : List Nat :=
  k.press.flatMap (fun p => p.writes) ++ (match k.wm with | none => [] | some w => w.writes.map (·.1))

def Core.readKeys (k : Core) : List Nat :=
  k.press.flatMap (fun p => p.reads) ++ (match k.wm with | none => [] | some w => w.reads)

/-- The scratchpad of a core is saved, or its saving is under way, so that an image stands in for it toward its node (17 R376). -/
def State.imaged (s : State) (node : Nat) (l : Loc) : Bool := !l.glob && (tabGet s.saved (savedKey node (l.key / 2 ^ 18))).isSome

/-- An operation is a load of a register that has its value, which is on its way to a byte (02 R48, 10 R241). -/
def State.arriving (s : State) (o : Op) (key : Nat) : Bool :=
  match o.kind with
  | .access a => a.performed && a.words == 0 && ((s.issuer o).map (fun th => th.destHolds o.core a.dest key)).getD false
  | _ => false

/-- A place is registered for writing by an engine, so that every access to it is held, as an access is to a register whose value is on its way
(02 R48). A copy's registration of a place for which an image stands in holds the image's place, not the core's (17 R376). -/
def State.held (s : State) (l : Loc) : Bool :=
  s.ops.any (fun (_, o) => o.heldLocs.contains l && !s.imaged o.node l) ||
    (!l.glob && (s.cores.any (fun (_, k) => k.heldKeys.contains l.key) || s.ops.any (fun (_, o) => !s.away o && s.arriving o l.key)))

/-- A place is registered for reading, so that a write to it is held. -/
def State.readHeld (s : State) (l : Loc) : Bool :=
  s.ops.any (fun (_, o) => o.readLocs.contains l && !s.imaged o.node l) || (!l.glob && s.cores.any (fun (_, k) => k.readKeys.contains l.key))

def State.anyHeld (s : State) (ls : List Loc) : Bool := ls.any s.held

/-- A write to some of these places is held. -/
def State.anyHeldW (s : State) (ls : List Loc) : Bool := ls.any (fun l => s.held l || s.readHeld l)

/-- An engine of the node has registered one of the places, wherever they stand now: for writing, or for a write (`wr`) for reading too. A
saved core's own engines are suspended with their registrations (07 R212, 08 R233, 17 R376). -/
def State.nodeHolds (s : State) (node : Nat) (wr : Bool) (ls : List Loc) : Bool :=
  s.ops.any (fun (_, o) => o.node == node && ls.any (fun l => o.heldLocs.contains l || (wr && o.readLocs.contains l) ||
    (!l.glob && s.away o && s.arriving o l.key))) ||
    ls.any (fun l => !l.glob && (match tabGet s.saved (savedKey node (l.key / 2 ^ 18)) with
      | none => false
      | some sv => sv.core.heldKeys.contains l.key || (wr && sv.core.readKeys.contains l.key)))

/-- An engine has registered bytes of a thread's register area for writing: the thread waits (02 R44, R48, 10 R257; log 5). -/
def State.regsHeld (s : State) (core : Nat) (th : Thread) : Bool :=
  let lo := spadKey core th.wp
  let inArea (k : Nat) : Bool := decide (lo ≤ k ∧ k < lo + Config.registerBytes)
  s.ops.any (fun (_, o) => o.heldLocs.any (fun l => !l.glob && inArea l.key && !s.imaged o.node l)) ||
    (s.core core).heldKeys.any inArea

/-! ## Saved cores (17 R376) -/

/-- A step of a copy in flight; while its core is saved it is suspended (17 R376). -/
def unlessAway (o : Op) (again : Instr) (s : State) (k : Out) : Out := if s.away o then .next (s.due (s.clk + 1) again) else k

/-- Where an access of a node's agents to a place is performed: in the image line that stands in for a saved core's scratchpad; none
until that line has been written (17 R376). -/
def State.homeLoc (s : State) (node : Nat) (l : Loc) : Option Loc :=
  if l.glob then some l
  else
    match tabGet s.saved (savedKey node (l.key / 2 ^ 18)) with
    | none => some l
    | some sv =>
      if l.key % 2 ^ 18 / 128 ≥ sv.lines then none
      else
        let n := s.node node
        match s.translate n.vd n.ctx (sv.image + BitVec.ofNat 64 (l.key % 2 ^ 18)) ⟨false, false, false⟩ with
        | .ok k => some ⟨true, k⟩
        | _ => none

def State.homeLocs (s : State) (node : Nat) (ls : List Loc) : Option (List Loc) :=
  let hs := ls.filterMap (s.homeLoc node)
  if hs.length = ls.length then some hs else none

/-- The counts of a core are those of a node: it holds the node's binding, or is one of its saved cores (13 R320, 17 R371). -/
def State.counts (s : State) (node c : Nat) : Bool := (tabGet s.saved (savedKey node c)).isSome || (s.core c).bound == some node

/-- The messages in which n bytes of a node go to a core; those that no core of the node will count are none of its messages (13 R320;
DEDUCED, log 61). -/
def State.msgsTo (s : State) (node dst n : Nat) : Nat := if s.counts node dst then s.msgs n else 0

/-- The line of a core image that holds the core header (17 R370, R371). -/
def headerLine : Nat := 2048

/-- Messages of a node reach a core: they count in its saved image, or in the core that the node holds; the counts of a core are those of
its own node (13 R320, 17 R376). -/
def State.nodeRecv (s : State) (node c n : Nat) : State :=
  if n = 0 then s
  else match tabGet s.saved (savedKey node c) with
  | some sv =>
    let k := sv.core.received n
    let t : State := { s with saved := tabSet s.saved (savedKey node c) { sv with core := k } }
    if sv.lines > headerLine then t.imageWrite node sv ((leBytes 4 k.recv.toNat).zipIdx.map (fun (b, i) => (0x4000C + i, b))) else t
  | none => if (s.core c).bound = some node then s.msgRecv c n else s

/-- A redirected write takes its lines out of the discarded ones (17 R376). -/
def State.noteLines (s : State) (node : Nat) (ls : List Loc) : State :=
  let ks := (ls.filter (fun l => !l.glob)).map (·.key)
  (ks.map (fun k => k / 2 ^ 18)).eraseDups.foldl (fun st c =>
    match tabGet st.saved (savedKey node c) with
    | none => st
    | some sv =>
      let lines := (ks.filter (fun k => k / 2 ^ 18 == c)).map (fun k => k % 2 ^ 18 / 128)
      { st with saved := tabSet st.saved (savedKey node c) { sv with drop := sv.drop.filter (fun x => !lines.contains x) } }) s

/-- Cores that hold the scratchpad places of a list. -/
def homesOf (ls : List Loc) : List Nat := ((ls.filter (fun l => !l.glob)).map (fun l => l.key / 2 ^ 18)).eraseDups

/-- n messages of a node have reached each of the cores of some places (13 R320, 17 R376). -/
def State.noteHome (s : State) (node n : Nat) (ls : List Loc) : State := (homesOf ls).foldl (fun st c => st.nodeRecv node c n) s

/-- CLS of the page at which a place stands: of the image of a saved core, or of the access itself (16 R351). -/
def State.homeCls (s : State) (node cls : Nat) (l : Loc) : Nat :=
  if l.glob then cls
  else
    match tabGet s.saved (savedKey node (l.key / 2 ^ 18)) with
    | none => cls
    | some sv => s.clsOf (s.node node).vd (s.node node).ctx (sv.image + wordOf (l.key % 2 ^ 18))

/-- An agent of a node has performed an access to places `ls`, which stand at `hs`: the lines of DRAM among them at the Vat (10 R241, 17 R376). -/
def State.homeTouch (s : State) (node cls : Nat) (wr : Bool) (ls hs : List Loc) : State :=
  (linesOf hs).foldl (fun st x => match (ls.zip hs).find? (fun p => p.2.glob && p.2.key / 128 == x) with
    | none => st
    | some p => st.vatTouch (s.node node).vd (s.homeCls node cls p.1) wr [p.2]) s

/-- A redirected write of a register's bytes that an operation of the node's saved thread still owes (02 R48, 17 R376). -/
def State.imageLate (s : State) (node : Nat) (ls : List Loc) : State :=
  s.noteLate (some node) ((ls.filter (s.imaged node)).map (·.key))

/-- Bytes written by an agent of a node at places as it names them: where they stand now, in the image of a saved core where one stands in
(17 R376). `cls` is the class of its global places. -/
def State.homeStore (s : State) (node cls : Nat) (ws : List (Loc × Byte)) : State :=
  match s.homeLocs node (ws.map (·.1)) with
  | none => s
  | some hs => (((s.storeLocs (hs.zip (ws.map (·.2)))).homeTouch node cls true (ws.map (·.1)) hs).noteLines node (ws.map (·.1))).imageLate node
      (ws.map (·.1))

/-- A byte as an agent of a node reads it, and whether it lies in a poisoned unit. -/
def State.homeByte (s : State) (node : Nat) (l : Loc) : Byte × Bool :=
  match s.homeLoc node l with
  | none => (0, false)
  | some h => (s.readLoc h, s.poisoned h)

end Sys2Proof.Machine
end

