-- ==== Sys2Proof/Machine/Operands.lean ====
section
/-!
DEFINITION. Every operand form: register-field codes of the scalar and the vector scheme (01 R13, R14, 03 R77, R78), the
load-data and store-data queues (02 R43), address formation (05 R158, 11 R264), and the shapes of reading and writing that
the meanings share.
-/
namespace Sys2Proof.Machine

/-! ## Codes -/

/-- A scalar source code (01 R14). -/
def legalSrc (r : Code) : Bool := r.toNat < 40 || r.toNat == 42

/-- A scalar destination code (01 R14). -/
def legalDst (r : Code) : Bool := r.toNat < 32 || r.toNat == 40 || r.toNat == 41 || r.toNat == 42

/-- A destination that is read too (05 R133). -/
def legalBoth (r : Code) : Bool := r.toNat < 32 || r.toNat == 42

/-- A vector source code (03 R77). -/
def legalVSrc (r : Code) : Bool := r.toNat < 16 || (32 ≤ r.toNat && r.toNat < 40) || r.toNat == 42

/-- A vector destination code (03 R77). -/
def legalVDst (r : Code) : Bool := r.toNat < 16 || r.toNat == 40 || r.toNat == 41 || r.toNat == 42

/-- A vector destination that is read too (06 R189, VINS). -/
def legalVBoth (r : Code) : Bool := r.toNat < 16 || r.toNat == 42

/-- A load-data queue as a load's destination (02 R43). -/
def isLq (r : Code) : Bool := 32 ≤ r.toNat && r.toNat < 36

/-- A store-data queue (02 R43). -/
def isSq (r : Code) : Bool := r.toNat == 40 || r.toNat == 41

/-- A mask, shape or accumulator number (03 R78). -/
def legalNum (r : Code) : Bool := r.toNat < 8

/-! ## Queues (02 R43) -/

/-- The entries of a load-data queue. -/
def Thread.lqOf (th : Thread) (q : Nat) : List LqEntry := (th.lq[q]?).getD []

/-- The entries of a store-data queue. -/
def Thread.sqOf (th : Thread) (j : Nat) : List Word := (th.sq[j]?).getD []

/-- Entries of each queue. -/
def queueSize : Nat := 32

/-- n more entries fit into a load-data queue. -/
def Thread.lqRoom (th : Thread) (q n : Nat) : Bool := (th.lqOf q).length + n ≤ queueSize

def Thread.sqRoom (th : Thread) (j n : Nat) : Bool := (th.sqOf j).length + n ≤ queueSize

def Thread.lqAppend (th : Thread) (q : Nat) (es : List LqEntry) : Thread :=
  { th with lq := th.lq.setIfInBounds q (th.lqOf q ++ es) }

def Thread.sqAppend (th : Thread) (j : Nat) (xs : List Word) : Thread :=
  { th with sq := th.sq.setIfInBounds j (th.sqOf j ++ xs) }

def Thread.sqTake (th : Thread) (j n : Nat) : Thread := { th with sq := th.sq.setIfInBounds j ((th.sqOf j).drop n) }

/-- The queue's pop count. -/
def Pend.at (p : Pend) (q : Nat) : Nat := (p[q]?).getD 0

/-- The 16 queue entries of a vector value, lane bytes 0 to 7 first. -/
def vecWords (v : Vec) : List Word := (List.range 16).map (fun i => v.extractLsb' (64 * i) 64)

/-- The vector value of 16 queue entries. -/
def wordsVec (ws : List Word) : Vec :=
  BitVec.ofNat 1024 ((List.range 16).foldr (fun i acc => (ws.getD i 0).toNat + acc * 2 ^ 64) 0)

/-! ## Reading (01 R14) -/

/-- A register is owed by an operation in flight (02 R41). -/
def Thread.owes (th : Thread) (r : OwedReg) : Bool := th.owed.any (fun o => o.1 == r)

/-- The w register that a thread's instruction names: of its workspace, or in handler mode of the handler bank (17 R363). -/
def Thread.wReg (th : Thread) (i : Nat) : OwedReg := if th.handler then .h i else .w i

/-- Read of a legal scalar code: the value and the advanced pops, or what it must wait for. -/
def State.read (s : State) (r : Code) (p : Pend) : Except Why (Word × Pend) :=
  match s.cur with
  | none => .error .retry
  | some th =>
    let n := r.toNat
    if n < 32 then (if th.owes (th.wReg n) then .error .retry else .ok (s.getW n, p))
    else if n < 40 then
      let q := n % 4
      match (arrived (th.lqOf q))[p.at q]? with
      | none => .error (.lq q (p.at q + 1))
      | some x => .ok (x, if n < 36 then p else p.setIfInBounds q (p.at q + 1))
    else .ok (0, p)

/-- Read of a legal vector code (03 R77). -/
def State.readVec (s : State) (r : Code) (p : Pend) : Except Why (Vec × Pend) :=
  match s.cur with
  | none => .error .retry
  | some th =>
    let n := r.toNat
    if n < 16 then (if th.owes (.v n) then .error .retry else .ok (s.getV n, p))
    else if n < 40 then
      let q := n % 4
      let xs := (arrived (th.lqOf q)).drop (p.at q)
      if xs.length < 16 then .error (.lq q (p.at q + 16))
      else .ok (wordsVec (xs.take 16), if n < 36 then p else p.setIfInBounds q (p.at q + 16))
    else .ok (0, p)

/-! ## Writing (01 R14) -/

/-- Write to a legal scalar code, or none while it must wait: a full store-data queue, or a register that is still owed. -/
def State.write (s : State) (d : Code) (x : Word) : Option State :=
  match s.cur with
  | none => none
  | some th =>
    let n := d.toNat
    if n < 32 then (if th.owes (th.wReg n) then none else some (s.setW n x))
    else if n < 42 then
      (if !th.owes (.sq (n - 40)) && th.sqRoom (n - 40) 1 then some (s.setCur (th.sqAppend (n - 40) [x])) else none)
    else some s

/-- Write to a legal vector code. -/
def State.writeVec (s : State) (d : Code) (v : Vec) : Option State :=
  match s.cur with
  | none => none
  | some th =>
    let n := d.toNat
    if n < 16 then (if th.owes (.v n) then none else some (s.setV n v))
    else if n < 42 then
      (if !th.owes (.sq (n - 40)) && th.sqRoom (n - 40) 16 then some (s.setCur (th.sqAppend (n - 40) (vecWords v))) else none)
    else some s

/-! ## Shapes -/

/-- The codes of an instruction are legal, or it takes the illegal-operand trap before any operand is read (01 R14). -/
def checked (ok : Bool) (s : State) (k : Thread → Out) : Out :=
  withThread s (fun th => if ok then k th else trap .illegalOperand 0 0 s)

/-- A read that may have to wait. -/
def reading {α : Type} (r : Except Why (α × Pend)) (s : State) (k : α → Pend → Out) : Out :=
  match r with
  | .error w => block w s
  | .ok (x, p) => k x p

/-- A write and the retirement, or a wait. -/
def writing (t : Option State) (p : Pend) (words : Nat) (s : State) : Out :=
  match t with
  | none => block .retry s
  | some u => .next (u.retire p words)

/-- d := f(a, b) on scalars: the shape of 05 R131. -/
def scalar2 (d a b : Code) (f : Word → Word → Word) (s : State) : Out :=
  checked (legalDst d && legalSrc a && legalSrc b) s (fun _ =>
    reading (s.read a noPend) s (fun x p =>
      reading (s.read b p) s (fun y p => writing (s.write d (f x y)) p 1 s)))

/-- d := f(a) on scalars, in an instruction of the given length. -/
def scalar1 (words : Nat) (d a : Code) (f : Word → Word) (s : State) : Out :=
  checked (legalDst d && legalSrc a) s (fun _ =>
    reading (s.read a noPend) s (fun x p => writing (s.write d (f x)) p words s))

/-- d := f(a, b, old d), with d read after a and b (05 R133). -/
def scalar3 (d a b : Code) (f : Word → Word → Word → Word) (s : State) : Out :=
  checked (legalBoth d && legalSrc a && legalSrc b) s (fun _ =>
    reading (s.read a noPend) s (fun x p =>
      reading (s.read b p) s (fun y p =>
        reading (s.read d p) s (fun z p => writing (s.write d (f x y z)) p 1 s))))

/-- d := a constant. -/
def scalar0 (words : Nat) (d : Code) (x : Word) (s : State) : Out :=
  checked (legalDst d) s (fun _ => writing (s.write d x) noPend words s)

/-! ## Addresses -/

/-- b as an index: under LEN 0b10 code 63 is no register (03 R77). -/
def legalIdx (x : Bool) (b : Code) : Bool := legalSrc b || (x && b.toNat == 63)

/-- The index value (05 R158, 11 R264). -/
def State.readIdx (s : State) (b : Code) (p : Pend) : Except Why (Word × Pend) :=
  if b.toNat = 63 then .ok (0, p) else s.read b p

/-- A signed 12-bit offset as a 64-bit value. -/
def off64 (o : BitVec 12) : Word := o.signExtend 64

/-- A scratchpad address decoded for the current thread, n bytes (02 R59): home core and offset, or the failing address. -/
def State.spadDecode (s : State) (th : Thread) (ea : BitVec 32) (n : Nat) : Except Word (Nat × Nat) :=
  let kind := (ea.extractLsb' 30 2).toNat
  let h := (ea.extractLsb' 18 12).toNat
  let off := (ea.extractLsb' 0 18).toNat
  let v := s.vdOf th
  let core : Option Nat :=
    if kind = 0 then (if h < v.qlen then some (v.qbase + h) else none)
    else if kind = 1 then (if h = 0 then some s.curCore else none)
    else none
  match core with
  | none => .error (ea.setWidth 64)
  | some c => if off + n ≤ Config.spadBytes then .ok (c, off) else .error ((ea + BitVec.ofNat 32 (Config.spadBytes - off)).setWidth 64)

end Sys2Proof.Machine
end

