-- ==== Sys2Proof/Machine/Float.lean ====
section
/-!
DEFINITION. Scalar floating point (06_isa_vector_float.md R173 to R177): major 0x20.
-/
namespace Sys2Proof.Machine

/-- The rounding mode and the generator of a thread (02 R67). -/
def Thread.rounding (th : Thread) : Rnd := ⟨RMode.ofCode th.rnd.toNat, th.seed⟩

/-- The generator after an instruction's rounding calls (04 R118). -/
def State.setSeed (s : State) (r : Rnd) : State := s.modCur (fun th => { th with seed := r.seed })

/-- A write, the generator's new state and the retirement, or a wait. -/
def writingSeed (t : Option State) (r : Rnd) (p : Pend) (words : Nat) (s : State) : Out :=
  match t with
  | none => block .retry s
  | some u => .next ((u.setSeed r).retire p words)

/-- The format of a scalar float instruction: FMTO, or FP32 (06 R173). -/
def scalarFmt (fmto : BitVec 5) : FloatFmt :=
  match Fmt.ofCode fmto.toNat with
  | some (.flt f) => f
  | _ => fp32

/-- The low W bits of a register. -/
def lowBits (f : FloatFmt) (x : Word) : Nat := x.toNat % 2 ^ f.width

/-- One operand. -/
def fps1 (words : Nat) (d a : Code) (s : State) (f : Rnd → Word → Word × Rnd) : Out :=
  checked (legalDst d && legalSrc a) s (fun th =>
    reading (s.read a noPend) s (fun x p =>
      let (z, r) := f th.rounding x
      writingSeed (s.write d z) r p words s))

/-- Two operands, a then b. -/
def fps2 (words : Nat) (d a b : Code) (s : State) (f : Rnd → Word → Word → Word × Rnd) : Out :=
  checked (legalDst d && legalSrc a && legalSrc b) s (fun th =>
    reading (s.read a noPend) s (fun x p =>
      reading (s.read b p) s (fun y p =>
        let (z, r) := f th.rounding x y
        writingSeed (s.write d z) r p words s)))

/-- Three operands, a, b, then C. -/
def fps3 (words : Nat) (d a b c : Code) (s : State) (f : Rnd → Word → Word → Word → Word × Rnd) : Out :=
  checked (legalDst d && legalSrc a && legalSrc b && legalSrc c) s (fun th =>
    reading (s.read a noPend) s (fun x p =>
      reading (s.read b p) s (fun y p =>
        reading (s.read c p) s (fun z p =>
          let (w, r) := f th.rounding x y z
          writingSeed (s.write d w) r p words s))))

/-- One rounding of an exact result, as a register value (06 R173). -/
def roundWord (f : FloatFmt) (r : Rnd) (v : Ext) : Word × Rnd :=
  let (e, r') := r.call (.flt f) v
  (BitVec.ofNat 64 e, r')

/-- The exact value of a scalar operand. -/
def floatOf (f : FloatFmt) (x : Word) : Ext := f.decode (lowBits f x)

/-- FMIN and FMAX on encodings (06 R174): an operand unchanged, or the NaN of the format. -/
def fminEnc (f : FloatFmt) (x y : Nat) : Nat :=
  if (f.decode x).isNan || (f.decode y).isNan then f.nanEnc else if (f.decode y).below (f.decode x) then y else x
def fmaxEnc (f : FloatFmt) (x y : Nat) : Nat :=
  if (f.decode x).isNan || (f.decode y).isNan then f.nanEnc else if (f.decode x).below (f.decode y) then y else x

def fadd (f : FloatFmt) (r : Rnd) (x y : Word) : Word × Rnd := roundWord f r (Ext.add r.mode (floatOf f x) (floatOf f y))
def fsub (f : FloatFmt) (r : Rnd) (x y : Word) : Word × Rnd :=
  roundWord f r (Ext.add r.mode (floatOf f x) (floatOf f y).negate)
def fmul (f : FloatFmt) (r : Rnd) (x y : Word) : Word × Rnd := roundWord f r (Ext.mul (floatOf f x) (floatOf f y))
def fdiv (f : FloatFmt) (r : Rnd) (x y : Word) : Word × Rnd := roundWord f r (Ext.div (floatOf f x) (floatOf f y))
def fsqrt (f : FloatFmt) (r : Rnd) (x : Word) : Word × Rnd := roundWord f r (floatOf f x).sqrt
def fmin (f : FloatFmt) (r : Rnd) (x y : Word) : Word × Rnd := (BitVec.ofNat 64 (fminEnc f (lowBits f x) (lowBits f y)), r)
def fmax (f : FloatFmt) (r : Rnd) (x y : Word) : Word × Rnd := (BitVec.ofNat 64 (fmaxEnc f (lowBits f x) (lowBits f y)), r)
def fcmp (p : FPred) (f : FloatFmt) (r : Rnd) (x y : Word) : Word × Rnd :=
  (boolWord (fpredHolds p (floatOf f x) (floatOf f y)), r)
def fcls (f : FloatFmt) (r : Rnd) (x : Word) : Word × Rnd := (classWord f x.toNat, r)

/-- FCVT (06 R176): an integer result is extended by its signedness, any other zero-extended. -/
def fcvt (fmto fmtd : BitVec 5) (r : Rnd) (x : Word) : Word × Rnd :=
  let src := (Fmt.ofCode fmto.toNat).getD (.flt fp32)
  let dst := (Fmt.ofCode fmtd.toNat).getD (.flt fp32)
  let (e, r') := convElem src dst false r x.toNat
  (match dst with
    | .int w => BitVec.ofInt 64 (Fmt.signedOf w e)
    | _ => BitVec.ofNat 64 e, r')

def execFadd (d a b : Code) (s : State) : Out := fps2 1 d a b s (fadd fp32)
def execFaddX (d a b : Code) (fmto : BitVec 5) (s : State) : Out := fps2 3 d a b s (fadd (scalarFmt fmto))
def execFsub (d a b : Code) (s : State) : Out := fps2 1 d a b s (fsub fp32)
def execFsubX (d a b : Code) (fmto : BitVec 5) (s : State) : Out := fps2 3 d a b s (fsub (scalarFmt fmto))
def execFmul (d a b : Code) (s : State) : Out := fps2 1 d a b s (fmul fp32)
def execFmulX (d a b : Code) (fmto : BitVec 5) (s : State) : Out := fps2 3 d a b s (fmul (scalarFmt fmto))
/-- FFMA: one rounding of the exact x × y + z (06 R173). -/
def execFfma (d a b c : Code) (fmto : BitVec 5) (s : State) : Out :=
  let f := scalarFmt fmto
  fps3 3 d a b c s (fun r x y z => roundWord f r (Ext.add r.mode (Ext.mul (floatOf f x) (floatOf f y)) (floatOf f z)))
def execFdiv (d a b : Code) (s : State) : Out := fps2 1 d a b s (fdiv fp32)
def execFdivX (d a b : Code) (fmto : BitVec 5) (s : State) : Out := fps2 3 d a b s (fdiv (scalarFmt fmto))
def execFsqrt (d a : Code) (s : State) : Out := fps1 1 d a s (fsqrt fp32)
def execFsqrtX (d a : Code) (fmto : BitVec 5) (s : State) : Out := fps1 3 d a s (fsqrt (scalarFmt fmto))
def execFmin (d a b : Code) (s : State) : Out := fps2 1 d a b s (fmin fp32)
def execFminX (d a b : Code) (fmto : BitVec 5) (s : State) : Out := fps2 3 d a b s (fmin (scalarFmt fmto))
def execFmax (d a b : Code) (s : State) : Out := fps2 1 d a b s (fmax fp32)
def execFmaxX (d a b : Code) (fmto : BitVec 5) (s : State) : Out := fps2 3 d a b s (fmax (scalarFmt fmto))
def execFcmp (p : FPred) (d a b : Code) (s : State) : Out := fps2 1 d a b s (fcmp p fp32)
def execFcmpX (p : FPred) (d a b : Code) (fmto : BitVec 5) (s : State) : Out := fps2 3 d a b s (fcmp p (scalarFmt fmto))
def execFcvt (d a : Code) (fmto fmtd : BitVec 5) (s : State) : Out := fps1 3 d a s (fcvt fmto fmtd)
def execFcls (d a : Code) (s : State) : Out := fps1 1 d a s (fcls fp32)
def execFclsX (d a : Code) (fmto : BitVec 5) (s : State) : Out := fps1 3 d a s (fcls (scalarFmt fmto))

end Sys2Proof.Machine
end

