-- ==== Sys2Proof/Machine/Errors.lean ====
section
/-!
DEFINITION. Machine checks: the banks, the poison of data units, the report of an error, and the errors that a consumer of poisoned
data logs (17_recovery.md R381 to R383; 07 R214, 08 R235, 11 R265).
-/
namespace Sys2Proof.Machine

/-- A message-signalled interrupt of a function (19 R392); 8 is the physical function. -/
def State.msix (s : State) (fn vec : Nat) : State := { s with outbox := s.outbox ++ [.msix fn vec] }

/-- Indices that name a bank (17 R381). -/
def bankListed (i : Nat) : Bool := decide (i ≤ 0x41A0 ∨ (0x41C0 ≤ i ∧ i ≤ 0x41DF))

/-- A bank; other indices read as zero. -/
def State.bank (s : State) (i : Nat) : Bank := if bankListed i then (tabGet s.banks i).getD Bank.reset else ⟨0, 0, 0, 0⟩

def State.setBank (s : State) (i : Nat) (b : Bank) : State := if bankListed i then { s with banks := tabSet s.banks i b } else s

/-- CLASS (17 R381). -/
def mcCode : McClass → Nat
  | .corrected => 1
  | .contained => 2
  | .fatal => 3

/-- COUNT after an error of a class; a fatal one has no field. -/
def Bank.counted (b : Bank) (k : McClass) : Word :=
  let corr := b.count.toNat % 65536
  let cont := b.count.toNat / 65536 % 65536
  match k with
  | .corrected => BitVec.ofNat 64 (cont * 65536 + min 65535 (corr + 1))
  | .contained => BitVec.ofNat 64 (min 65535 (cont + 1) * 65536 + corr)
  | .fatal => b.count

/-- STATUS of a new record. -/
def mcStatus (e : McEvent) (ovf : Bool) : Word :=
  BitVec.ofNat 64 (2 ^ 63 + (if ovf then 2 ^ 62 else 0) + mcCode e.cls * 2 ^ 60 + (if e.addr.isSome then 2 ^ 59 else 0)
    + (if e.misc.isSome then 2 ^ 58 else 0) + e.src % 256 * 2 ^ 48 + (match e.vd with
      | none => 0xFF
      | some v => v.val) * 2 ^ 40)

/-- The bank after an error: COUNT rises; STATUS is taken when VAL is 0 or the class is higher than the one held, else OVF is set. -/
def Bank.log (b : Bank) (e : McEvent) : Bank :=
  let c := { b with count := b.counted e.cls }
  if !b.status[63] || decide ((b.status.extractLsb' 60 2).toNat < mcCode e.cls) then
    { c with status := mcStatus e (b.status[63] && b.status[62]), addr := e.addr.getD 0, misc := e.misc.getD 0 }
  else { c with status := b.status ||| 0x4000000000000000 }

/-- A poisoned entry of a load-data queue (0 to 3) or of a store-data queue (4, 5) reads as zero (DEDUCED, log 63: as 11 R265 fills the
entry of a load that met an uncorrectable error). -/
def Thread.spoilQueue (th : Thread) (q idx : Nat) : Thread :=
  if q < 4 then
    match (th.lq[q]?).getD [] with
    | l => match l[idx]? with
      | some (.data _) => { th with lq := th.lq.setIfInBounds q (l.set idx (.data 0)) }
      | _ => th
  else { th with sq := th.sq.setIfInBounds (q - 4) (((th.sq[q - 4]?).getD []).set idx 0) }

/-- Its fault waits for a WAITC that covers LD, or for EXIT (DEDUCED, log 63). -/
def Thread.noteBad (th : Thread) (op : Nat) : Thread := { th with faults := th.faults ++ [⟨op, .ld, 0, Trap.dataError.kind, 0, 0⟩] }

/-- A data unit is poisoned (17 R383). -/
def State.poison (s : State) : DataUnit → State
  | .spad core off => { s with poisonS := setInsert s.poisonS (spadKey core off / 8) }
  | .ream core off => { s with poisonR := setInsert s.poisonR ((core * Config.reamBytes + off) / 64) }
  | .dram key => { s with poisonD := setInsert s.poisonD (key / 128) }
  | .tile core acc lane => { s with poisonT := setInsert s.poisonT (core * 8192 + acc % 8 * 1024 + lane % 1024) }
  | .plan core off => { s with poisonP := setInsert s.poisonP (core * 512 + off % 4096 / 8) }
  | .queue core slot q idx => s.modThread core slot (fun th => (th.spoilQueue q idx).noteBad s.nextOp)

/-- A fatal error stops the device until device reset (17 R383). -/
def State.fatal (s : State) : State := ({ s with devSt := .stopped, outbox := s.outbox ++ [.fatalReport] } : State).msix 8 0

/-- An error is logged in its bank, poisons its units where it is contained, and is reported (17 R381, R383, 19 R392). A record of an error without a virtual device
goes to the server of virtual device 0 (DESIGN CHOICE, log 2), and no action answers it. -/
def State.machineCheck (s : State) (e : McEvent) : State :=
  let l := s.setBank e.bank ((s.bank e.bank).log e)
  let t := if e.cls = .contained then e.poison.foldl (fun st u => st.poison u) l else l
  let misc := e.misc.getD 0
  let r : FaultRec := ⟨7, e.vd.getD 0, (misc.extractLsb' 40 8).toNat, (misc.extractLsb' 28 12).toNat, 0, 0, 0, 0, s.clk, 0, 0, 0,
    BitVec.ofNat 64 (e.bank % 65536 + mcCode e.cls * 65536), 0, e.vd.isNone⟩
  match e.cls with
  | .corrected => t
  | .contained => (t.sendRecord r).msix 8 1
  | .fatal => ((t.sendRecord r).msix 8 1).fatal

/-- The bank of a core (17 R381). -/
def coreBank (c : Nat) : Nat :=
  let (col, row) := corePos c
  col * 64 + row

/-- An uncorrectable error that an operation of a core meets in a data unit, logged as contained: the bank, the detector, the address
in that bank's sense, and the operation's tag, context and quire core (17 R381, R382). The unit is poisoned already. -/
def State.logMet (s : State) (core : Nat) (th : Thread) (tag bank src : Nat) (addr : Word) : State :=
  let n := s.node th.node
  s.machineCheck ⟨bank, src, .contained, some addr,
    some (BitVec.ofNat 64 (tag % 65536 * 2 ^ 48 + n.ctx % 256 * 2 ^ 40 + s.hOf th core % 4096 * 2 ^ 28)), some n.vd, []⟩

end Sys2Proof.Machine
end

