-- ==== Sys2Proof/Machine/Control.lean ====
section
/-!
DEFINITION. Control transfer, SPAWN and gangs (05_isa_scalar_control.md R138 to R152, R155).
-/
namespace Sys2Proof.Machine

/-- A transfer to a target: outside the code image it raises the address-fault trap at the transferring instruction (05 R166). -/
def transfer (p : Pend) (target : Word) (th : Thread) (s t : State) : Out :=
  if s.inCode th target then .next (t.retireTo p target) else trap .addressFault 0 target s

/-- PC + 4 × a signed displacement in words. -/
def target {n : Nat} (pc : Word) (disp : BitVec n) : Word := pc + 4 * disp.signExtend 64

/-- BC and B (05 R138). -/
def branch (c : Cond) (a b : Code) (words : Nat) (dest : Word → Word) (s : State) : Out :=
  checked (legalSrc a && legalSrc b) s (fun th =>
    reading (s.read a noPend) s (fun x p =>
      reading (s.read b p) s (fun y p =>
        if condHolds c x y then transfer p (dest th.pc) th s s else .next (s.retire p words))))

def execBc (c : Cond) (a b : Code) (disp : BitVec 8) (s : State) : Out := branch c a b 1 (fun pc => target pc disp) s
def execB (c : Cond) (a b : Code) (disp : Word32) (s : State) : Out := branch c a b 3 (fun pc => target pc disp) s

/-- LOOP (05 R138): a must be a w register (03 R92). -/
def execLoop (a : Code) (disp : BitVec 8) (s : State) : Out :=
  checked (decide (a.toNat < 32)) s (fun th =>
    reading (s.read a noPend) s (fun x p =>
      match s.write a (x - 1) with
      | none => block .retry s
      | some t => if x - 1 ≠ 0 then transfer p (target th.pc disp) th s t else .next (t.retire p 1)))

def execJ (disp : BitVec 24) (s : State) : Out :=
  withThread s (fun th => transfer noPend (target th.pc disp) th s s)

/-- CALL: w31 := PC + 4, then the jump (05 R139). -/
def execCall (disp : BitVec 24) (s : State) : Out :=
  withThread s (fun th =>
    match s.write 31 (th.pc + 4) with
    | none => block .retry s
    | some t => transfer noPend (target th.pc disp) th s t)

/-- The trap of a failed code fetch at a target (05 R142). -/
def fetchTrap : Nat → Trap
  | 6 => .translation | 7 => .permission | 8 => .dataError | _ => .addressFault

/-- The word at a target must be this landing pad (05 R140, R142). -/
def pad (p : Pend) (t : Word) (want : Word32) (code : Nat) (th : Thread) (s : State) : Out :=
  match s.fetchWord th t with
  | .error k => trapCode (fetchTrap k) t s
  | .ok w => if w = want then .next (s.retireTo p t) else trap .controlFlow code 0 s

/-- RET (05 R142). -/
def execRet (a : Code) (s : State) : Out :=
  checked (legalSrc a) s (fun th =>
    reading (s.read a noPend) s (fun t p =>
      if t.toNat ≥ 2 ^ 32 ∨ t.toNat % 4 ≠ 0 then trap .controlFlow 1 0 s else pad p t 0xFFFF01F4 1 th s))

/-- The view of a local scratchpad access of the current thread (10 R247). -/
def localView (c : OrdClass) (ls : List Loc) : OrdView := ⟨[c], .thread, c == .sl, c == .ss, ls, none⟩

/-- What a local read of the current thread meets: a wait, a poisoned byte by its index, or its bytes. -/
inductive LRead where
  | wait
  | poison (i : Nat)
  | ok (bytes : List Byte)
  deriving DecidableEq, Repr

/-- Some of these places belong to a register of the thread that an operation in flight still owes (02 R41, R48). -/
def Thread.owesLocs (th : Thread) (core : Nat) (ls : List Loc) : Bool :=
  th.owed.any (fun o =>
    let area (off n : Nat) : Bool := ls.any (fun l => !l.glob &&
      decide (spadKey core (th.wp + off) ≤ l.key ∧ l.key < spadKey core (th.wp + off) + n))
    match o.1 with
    | .w i => area (8 * i) 8
    | .v i => area (256 + 128 * i) 128
    | _ => false)

/-- A local read by the current thread must wait: for an engine that holds its bytes, for an earlier operation of the thread that must
precede it, or for a register of its own that is still owed (05 R159, 10 R250, R257, 02 R41, R48). -/
def State.readWaits (s : State) (ls : List Loc) : Bool :=
  s.anyHeld ls || s.mustWait s.curCore s.curSlot (localView .sl ls) || ((s.cur.map (·.owesLocs s.curCore ls)).getD false)

/-- A local read of n bytes. -/
def State.localRead (s : State) (core off n : Nat) : LRead :=
  let ls := spadLocs core off n
  if s.readWaits ls then .wait
  else
    match ls.findIdx? s.poisoned with
    | some i => .poison i
    | none => .ok (memBytes s.spad (spadKey core off) n)

/-- JMPT (05 R141, R142). -/
def execJmpt (a b : Code) (s : State) : Out :=
  checked (legalSrc a && legalSrc b) s (fun th =>
    reading (s.read a noPend) s (fun x p =>
      reading (s.read b p) s (fun i p =>
        let tb : BitVec 32 := x.setWidth 32
        let tbW : Word := tb.setWidth 64
        match s.spadDecode th tb 1 with
        | .error _ => trap .addressFault 0 tbW s
        | .ok (core, off) =>
          if core ≠ s.curCore then trap .addressFault 0 tbW s
          else if tb.toNat % 4 ≠ 0 then trap .misaligned 0 tbW s
          else
            match s.localRead core off 4 with
            | .wait => block .retry s
            | .poison i => trap .dataError 0 (tbW + BitVec.ofNat 64 i) s
            | .ok hb =>
              let hdr := leNat hb
              if hdr / 65536 = 0xFFFF ∨ i.toNat ≥ hdr % 65536 then trap .controlFlow 2 0 s
              else
                let eo := off + 4 + 4 * i.toNat
                let ea : Word := tbW + BitVec.ofNat 64 (4 + 4 * i.toNat)
                if eo + 4 > Config.spadBytes then trap .addressFault 0 ea s
                else
                  match s.localRead core eo 4 with
                  | .wait => block .retry s
                  | .poison i => trap .dataError 0 (ea + BitVec.ofNat 64 i) s
                  | .ok tbytes =>
                    let t := leNat tbytes
                    if t % 4 ≠ 0 then trap .controlFlow 3 0 s
                    else pad p (BitVec.ofNat 64 t) (BitVec.ofNat 32 (hdr / 65536 * 65536 + 0x01F4)) 3 th s)))

/-- A slot yields: threads that have not issued since then go before it (05 R144). -/
def Core.yielding (k : Core) (t : Nat) : Core := { k with yielded := k.yielded.filter (fun y => y.1 != t) ++ [(t, [])] }

/-- YIELD changes no state but the pc and what the steering stage notes (05 R144). -/
def execYield (s : State) : Out :=
  withThread s (fun _ =>
    .next ((s.retire noPend 1).modCore s.curCore (·.yielding s.curSlot)))

/-- TRAP retires, then raises the software trap; its resume point is the next instruction (05 R155). -/
def execTrap (n : BitVec 12) (s : State) : Out :=
  withThread s (fun th => .next (s.enterTrap s.curCore s.curSlot .software n.toNat 0 (th.pc + 4) 0 7 0))

/-! ## SPAWN (05 R145) -/

/-- Two workspaces overlap. -/
def wsOverlap (a b : Nat) : Bool := decide (a < b + Config.workspaceBytes ∧ b < a + Config.workspaceBytes)

/-- A range of the core's scratchpad overlaps what its Watermark unit has registered (08 R224). -/
def State.wmHolds (s : State) (core off n : Nat) : Bool :=
  match (s.core core).wm with
  | none => false
  | some w => (w.reads ++ w.writes.map (·.1)).any (fun k => spadKey core off ≤ k && k < spadKey core off + n)

/-- A slot falls free: what the steering stage has noted of it is of another thread (05 R144). -/
def Core.vacate (k : Core) (t : Nat) : Core :=
  { k.setThread t none with yielded := (k.yielded.filter (fun y => y.1 != t)).map (fun y => (y.1, y.2.filter (· != t))) }

/-- The lowest free slot. -/
def Core.freeSlot (k : Core) : Option Nat := (List.range 4).find? (fun t => (k.thread t).isNone)

/-- The thread that SPAWN makes; its registers are the bytes of its workspace as they stand. -/
def Thread.spawned (th : Thread) (pc0 : Word) (blk : BitVec 8) (seed : BitVec 32) : Thread :=
  { th with blk := blk, pc := pc0, seed := seed, cnt := Counters.zero, tstat := 0, taddr := 0, tinfo := 0, handler := false,
            awaiting := false, bank := Vector.replicate 32 0, lq := Vector.replicate 4 [], sq := Vector.replicate 2 [],
            run := .blocked .start, stopped := false, owed := [], faults := [], gang := .none, gangWord := 0, pend := noPend,
            codeFault := false, eret := none }

/-- The launch seed of thread t of quire core h (02 R50). -/
def launchSeed (h t : Nat) : BitVec 32 := 0x5A17C3E5 ^^^ BitVec.ofNat 32 (4 * h + t)

/-- SPAWN (05 R145). TADDR of its address fault is the workspace offset as read: R145 and 17 R360 do not say what it holds (DESIGN CHOICE, log 87). -/
def execSpawn (d a b : Code) (s : State) : Out :=
  checked (legalDst d && legalSrc a && legalSrc b) s (fun th =>
    reading (s.read a noPend) s (fun pc0 p =>
      reading (s.read b p) s (fun wp0 p =>
        let k := s.core s.curCore
        if wp0.toNat % 1024 ≠ 0 ∨ wp0.toNat > 0x3F000 then trap .addressFault 0 wp0 s
        else if k.threads.any (fun x => x.2.gang != .none) then writing (s.write d (-3)) p 1 s
        else
          match k.freeSlot with
          | none => writing (s.write d (-1)) p 1 s
          | some t =>
            if k.threads.any (fun x => wsOverlap wp0.toNat x.2.wp) then writing (s.write d (-2)) p 1 s
            else if s.wmHolds s.curCore wp0.toNat Config.workspaceBytes then block .retry s
            else
              match s.write d (BitVec.ofNat 64 t) with
              | none => block .retry s
              | some u =>
                let nt := th.spawned pc0 (BitVec.ofNat 8 (wp0.toNat / 1024)) (launchSeed (s.hOf th s.curCore) t)
                .next (((u.setThread s.curCore t nt).retire p 1).due (s.clk + 8) (.spawnThreadReady s.curCore t)))))

/-- The new thread is Ready 8 ck after the SPAWN retires (05 R145). -/
def execSpawnThreadReady (core slot : Nat) (s : State) : Out :=
  match s.thread core slot with
  | none => .next s
  | some th => .next (if th.run = .blocked .start then s.setThread core slot { th with run := .ready } else s)

/-! ## Gangs (05 R149 to R152) -/

/-- The columns that a leader's word names from its own column; none when one lies outside 0 to 63. -/
def gangCols (col : Nat) (w : Word) : Option (List Nat) :=
  let c := (w.extractLsb' 0 6).toNat
  if w[6] then (if c ≤ col then some ((List.range c).map (fun i => col - 1 - i)) else none)
  else (if col + c ≤ 63 then some ((List.range c).map (fun i => col + 1 + i)) else none)

/-- The word obeys 05 R149. -/
def gangWordOk (w : Word) : Bool :=
  w.toNat < 256 && (if w[7] then w.extractLsb' 0 7 == 0 else w.extractLsb' 0 6 != 0)

/-- The slot of a core that holds a thread of the kernel Blocked in a joining GANG. -/
def State.joiner (s : State) (core node : Nat) : Option Nat :=
  ((s.core core).threads.find? (fun x => x.2.node == node && x.2.run == .blocked .join && x.2.gangWord[7])).map (·.1)

/-- The cores that a leader's word names. -/
def gangCores (core : Nat) (w : Word) : List Nat :=
  let (col, row) := hpos core
  ((gangCols col w).getD []).map (fun c => hindex c row)

/-- A core lies in the kernel instance of a node. -/
def State.inInstance (s : State) (n : Node) (core : Nat) : Bool :=
  let h := core - (s.vd n.vd).qbase
  decide ((s.vd n.vd).qbase ≤ core ∧ n.hLo ≤ h ∧ h ≤ n.hHi)

/-- A leader Blocked in GANG whose named cores all hold joining threads; one outside the instance is not waited for (05 R150, R151). -/
def State.gangReady (s : State) (core : Nat) (th : Thread) : Bool :=
  th.run == .blocked .join && !th.gangWord[7] && (gangCores core th.gangWord).all (fun c =>
    !s.inInstance (s.node th.node) c || (s.joiner c th.node).isSome)

/-- The formations that the last join makes possible, 4 ck on (05 R150). -/
def State.gangTry (s : State) : State :=
  s.cores.foldl (fun st (c, k) => k.threads.foldl (fun st (t, th) =>
    if s.gangReady c th && !st.agenda.any (fun e => e.2 == .gangForm c t) then st.due (s.clk + 4) (.gangForm c t) else st) st) s

/-- GANG: the word and the columns are tested at once, the rest at formation (05 R149 to R151). -/
def execGang (a : Code) (s : State) : Out :=
  checked (legalSrc a) s (fun _ =>
    reading (s.read a noPend) s (fun w p =>
      if !gangWordOk w then trap .gang 1 0 s
      else if !w[7] && (gangCols (hpos s.curCore).1 w).isNone then trap .gang 2 0 s
      else .next (s.modCur (fun th => { th with run := .blocked .join, gangWord := w, pend := p })).gangTry))

/-- The resident threads of a kernel on a core. -/
def State.kernelThreads (s : State) (core node : Nat) : Nat := ((s.core core).threads.filter (fun x => x.2.node == node)).length

/-- The members of a thread's gang, leader first; the thread alone where it is in none. -/
def State.gangMembers (s : State) (c t : Nat) : List (Nat × Nat) :=
  match (s.thread c t).map Thread.gang with
  | some (.leader fs) => (c, t) :: fs
  | some (.follower lc lt) =>
    (match (s.thread lc lt).map Thread.gang with
    | some (.leader fs) => if fs.contains (c, t) then (lc, lt) :: fs else [(c, t)]
    | _ => [(c, t)])
  | _ => [(c, t)]

/-- A member of a gang has taken a synchronous trap at a GANG: the others are Stopped at the same instruction (02 R52). -/
def State.gangHalt (s : State) (c t : Nat) : State :=
  ((s.gangMembers c t).filter (· != (c, t))).foldl (fun st (a, b) =>
    st.modThread a b (fun th => { th with stopped := true, run := .ready })) s

/-- The gang trap of a thread at formation. -/
def State.gangTrap (s : State) (c t code : Nat) : State :=
  match s.thread c t with
  | none => s
  | some th => (s.enterTrap c t .gang code 0 th.pc 0 7 0).gangHalt c t

/-- The formation (05 R150, R151). The leader takes the gang trap when it is ganged already, when a core of the gang holds more than one
thread of the kernel, or when a named core lies outside the instance; a joining thread that is ganged already takes it too (DEDUCED,
log 62). Otherwise all joined threads become followers in one ck. -/
def execGangForm (core slot : Nat) (s : State) : Out :=
  match s.thread core slot with
  | none => .next s
  | some th =>
    if !s.gangReady core th then .next s
    else
      let cs := gangCores core th.gangWord
      let fs := cs.map (fun c => (c, (s.joiner c th.node).getD 0))
      if th.gang ≠ .none then .next (s.gangTrap core slot 3)
      else if (core :: cs).any (fun c => decide (s.kernelThreads c th.node > 1)) then .next (s.gangTrap core slot 4)
      else if !cs.all (s.inInstance (s.node th.node)) then .next (s.gangTrap core slot 5)
      else
        match fs.find? (fun f => ((s.thread f.1 f.2).map (fun x => x.gang != .none)).getD false) with
        | some f => .next (s.gangTrap f.1 f.2 3)
        | none =>
          let lead := s.setThread core slot { th.retire th.pend 1 with gang := .leader fs }
          .next (fs.foldl (fun st (c, t) => st.modThread c t (fun x =>
            { x.retire x.pend 1 with pc := th.pc + 4, gang := .follower core slot })) lead)

/-- UNGANG: each member goes on by itself at the next instruction, from the ck in which it executes the UNGANG (05 R152): a follower,
whose ck is its own (02 R52), is Ready from the next one on. -/
def execUngang (s : State) : Out :=
  withThread s (fun th =>
    match th.gang with
    | .follower _ _ =>
      .next (((s.retire noPend 1).modCur (fun th => { th with gang := .none, run := .blocked .start })).due (s.clk + 1)
        (.spawnThreadReady s.curCore s.curSlot))
    | _ => .next ((s.retire noPend 1).modCur (fun th => { th with gang := .none })))

end Sys2Proof.Machine
end

