-- ==== Sys2Proof/Machine/System.lean ====
section
/-!
DEFINITION. Special registers, privileged instructions and WAITC (02 R65 to R68, 05 R153 to R156, R165).
-/
namespace Sys2Proof.Machine

/-- GMEM (02 R54): valid slots fill from slot 0 in ascending gid order. -/
def gmemWord (gs : List Nat) : Word :=
  let g := gs.take 4
  BitVec.ofNat 64 ((2 ^ g.length - 1) * 2 ^ 32 + g.getD 0 0 + g.getD 1 0 * 2 ^ 8 + g.getD 2 0 * 2 ^ 16 + g.getD 3 0 * 2 ^ 24)

/-- The special registers of 02 R65. -/
inductive SReg where
  | wp | pc | fmt | rnd | seed | sigd | frb | cnt | cid | gmem | qbase | qlen | refc | clk | tstat | taddr | tinfo | fsid
  deriving DecidableEq, Repr

/-- The register of a number (02 R65). -/
def SReg.ofNum (n : Nat) : Option SReg :=
  match n with
  | 0x000 => some .wp | 0x001 => some .pc | 0x002 => some .fmt | 0x003 => some .rnd | 0x004 => some .seed
  | 0x005 => some .sigd | 0x006 => some .frb | 0x007 => some .cnt
  | 0x010 => some .cid | 0x011 => some .gmem | 0x012 => some .qbase | 0x013 => some .qlen
  | 0x020 => some .refc | 0x021 => some .clk
  | 0x030 => some .tstat | 0x031 => some .taddr | 0x032 => some .tinfo | 0x033 => some .fsid
  | _ => none

/-- Only handler mode may name the register (02 R65). -/
def SReg.handlerOnly : SReg → Bool
  | .tstat | .taddr | .tinfo | .fsid => true
  | _ => false

/-- The value that RDSR reads (02 R39, R54, R64 to R68). -/
def State.readSReg (s : State) (th : Thread) (r : SReg) : Word :=
  match r with
  | .wp => BitVec.ofNat 64 th.wp
  | .pc => th.pc
  | .fmt => th.fmt.setWidth 64
  | .rnd => th.rnd.setWidth 64
  | .seed => th.seed.setWidth 64
  | .sigd => th.sigd
  | .frb => th.frb.setWidth 64
  | .cnt => th.cntWord
  | .cid => cidWord s.curCore (s.hOf th s.curCore)
  | .gmem => gmemWord (s.core s.curCore).groups
  | .qbase => BitVec.ofNat 64 (s.vdOf th).qbase
  | .qlen => BitVec.ofNat 64 (s.vdOf th).qlen
  | .refc => refcWord s.clk s.curCore
  | .clk => BitVec.ofNat 64 s.clk
  | .tstat => th.tstat
  | .taddr => th.taddr
  | .tinfo => th.tinfo
  | .fsid => (s.vdOf th).fsid

/-- SIGD after a write: a field keeps its value when the new one is not listed (08 R217, 01 R33). -/
def sigdWrite (old new : Word) : Word :=
  let f (lo w : Nat) (x : Word) : Nat := x.toNat / 2 ^ lo % 2 ^ w
  let pick (lo w lo' hi : Nat) : Nat := if lo' ≤ f lo w new ∧ f lo w new ≤ hi then f lo w new else f lo w old
  BitVec.ofNat 64 (pick 32 16 1 65535 * 2 ^ 32 + pick 16 16 0 65535 * 2 ^ 16 + pick 12 4 1 8 * 2 ^ 12 + pick 8 4 1 8 * 2 ^ 8
    + pick 0 8 1 64)

/-- FRB.OFF after a write (08 R218). -/
def frbWrite (old : BitVec 18) (new : Word) : BitVec 18 :=
  let o : BitVec 18 := new.setWidth 18
  if o.toNat % 4 = 0 ∧ o.toNat ≤ 0x3FBFC then o else old

/-- The bits of `new` that a mask names, and the others of `old`. -/
def merge (mask old new : Word) : Word := (new &&& mask) ||| (old &&& ~~~mask)

/-- A kind of 17 R358. -/
def kindListed (k : Nat) : Bool := decide (1 ≤ k ∧ k ≤ 19)

/-- TSTAT after a write: KIND keeps its value when the new one is no kind of 17 R358; bits 31:24 are zero (17 R360, 01 R33). -/
def tstatWrite (old new : Word) : Word :=
  merge (if kindListed (new.extractLsb' 16 8).toNat then 0xFFFFFFFF00FFFFFF else 0xFFFFFFFF0000FFFF) old new &&& 0xFFFFFFFF00FFFFFF

/-- The mask of TINFO's bits that take a written value: CLASS where it is listed, SUB where it is 0 or a kind (17 R360, 01 R33). -/
def tinfoMask (new : Word) : Word :=
  let k := (new.extractLsb' 45 3).toNat
  let b := (new.extractLsb' 32 8).toNat
  0xFFFF0000FFFFFFFF ||| (if k ≤ 4 ∨ k = 7 then 0xE00000000000 else 0) ||| (if b = 0 ∨ kindListed b then 0xFF00000000 else 0)

/-- TINFO after a write: bits 44:40 are zero (17 R360, 01 R33). -/
def tinfoWrite (old new : Word) : Word := merge (tinfoMask new) old new &&& 0xFFFFE0FFFFFFFFFF

/-- The thread after a write of one of its RW registers (02 R65 to R67, 06 R167, 08 R217, R218, 17 R360); WP is not among them. -/
def Thread.writeSReg (th : Thread) (r : SReg) (x : Word) : Thread :=
  match r with
  | .fmt => if (x.setWidth 5 : BitVec 5).toNat ≤ 16 then { th with fmt := x.setWidth 5 } else th
  | .rnd => if (x.setWidth 3 : BitVec 3).toNat ≤ 4 then { th with rnd := x.setWidth 3 } else th
  | .seed => if (x.setWidth 32 : BitVec 32) = 0 then th else { th with seed := x.setWidth 32 }
  | .sigd => { th with sigd := sigdWrite th.sigd x }
  | .frb => { th with frb := frbWrite th.frb x }
  | .tstat => { th with tstat := tstatWrite th.tstat x }
  | .taddr => { th with taddr := x }
  | .tinfo => { th with tinfo := tinfoWrite th.tinfo x }
  | _ => th

/-- RDSR: an unlisted number is illegal, a handler register outside handler mode privileged (02 R65, 05 R153). The register
code is checked first: an entry's own privilege is part of its execution (03 R70; DEDUCED, log 20). -/
def execRdsr (d : Code) (num : BitVec 12) (s : State) : Out :=
  withThread s (fun th =>
    match SReg.ofNum num.toNat with
    | none => trap .illegalInstruction 0 0 s
    | some r =>
      checked (legalDst d) s (fun th =>
        if r.handlerOnly && !th.handler then trap .privilege 0 0 s
        else writing (s.write d (s.readSReg th r)) noPend 1 s))

/-- A w or v register is still owed by an operation in flight, whose value belongs into the present workspace (02 R41, R66). -/
def Thread.owesReg (th : Thread) : Bool :=
  th.owed.any (fun o => match o.1 with
    | .sq _ => false
    | _ => true)

/-- The write-back of the old workspace and the read of the new one must wait as local accesses of the thread do (02 R66, 10 R256, R257). -/
def State.wpWaits (s : State) (th : Thread) (wp : Nat) : Bool :=
  let old := spadLocs s.curCore th.wp Config.registerBytes
  let new := spadLocs s.curCore wp Config.registerBytes
  s.wmHolds s.curCore wp Config.workspaceBytes || th.owesReg || s.anyHeldW old || s.anyHeld new
    || s.mustWait s.curCore s.curSlot (localView .ss old) || s.mustWait s.curCore s.curSlot (localView .sl new)

/-- WRSR WP (02 R66): the register file moves with WP, because the registers are the workspace bytes. -/
def wrsrWp (th : Thread) (x : Word) (p : Pend) (s : State) : Out :=
  let blk : BitVec 8 := x.extractLsb' 10 8
  if blk.toNat > 252 then .next (s.retire p 1)
  else
    let wp := blk.toNat * 1024
    if (s.core s.curCore).threads.any (fun y => y.1 != s.curSlot && wsOverlap wp y.2.wp) then trap .addressFault 0 (BitVec.ofNat 64 wp) s
    else if s.wpWaits th wp then block .retry s
    else .next ((s.modCur (fun th => { th with blk := blk })).retire p 1)

/-- WRSR (05 R153, 02 R65): a write to a read-only register changes nothing. -/
def execWrsr (a : Code) (num : BitVec 12) (s : State) : Out :=
  withThread s (fun th =>
    match SReg.ofNum num.toNat with
    | none => trap .illegalInstruction 0 0 s
    | some r =>
      checked (legalSrc a) s (fun th =>
        if r.handlerOnly && !th.handler then trap .privilege 0 0 s
        else reading (s.read a noPend) s (fun x p =>
          if r = .wp ∧ th.handler then wrsrWp th x p s
          else .next ((s.modCur (fun th => th.writeSReg r x)).retire p 1))))

/-- ERET (05 R156): privileged. -/
def execEret (s : State) : Out :=
  withThread s (fun th => if th.handler then .next (s.leaveTrap s.curCore s.curSlot) else trap .privilege 0 0 s)

/-- HALT (05 R156): privileged. -/
def execHalt (s : State) : Out :=
  withThread s (fun th => if th.handler then .next (s.haltCore s.curCore s.curSlot) else trap .privilege 0 0 s)

/-- The fault of the oldest operation. -/
def oldestFault : List AFault → Option AFault
  | [] => none
  | f :: r => match oldestFault r with
    | none => some f
    | some g => some (if g.op < f.op then g else f)

/-- The oldest unreported fault of the lowest class among those covered (05 R165, 17 R361). -/
def Thread.firstFault (th : Thread) (covers : Cls → Bool) : Option AFault :=
  [Cls.ld, .st, .cp, .pr, .cr].findSome? (fun k => if covers k then oldestFault (th.faults.filter (fun f => f.cls == k)) else none)

/-- The asynchronous-fault trap for a fault, which is then marked reported; WAITC and EXIT are their own resume points
(05 R165, 17 R359 to R361). -/
def reportFault (th : Thread) (f : AFault) (s : State) : Out :=
  .next ((s.modCur (fun th => { th with faults := th.faults.erase f })).enterTrap s.curCore s.curSlot .asyncFault f.code f.addr th.pc
    f.tag (clsCode f.cls) f.sub)

/-- WAITC (05 R165). -/
def execWaitc (ld st : BitVec 5) (cp : BitVec 7) (pr : BitVec 4) (cr : BitVec 3) (s : State) : Out :=
  withThread s (fun th =>
    let lim : Cls → Option Nat := fun k => match k with
      | .ld => if ld = 31 then none else some ld.toNat
      | .st => if st = 31 then none else some st.toNat
      | .cp => if cp = 127 then none else some cp.toNat
      | .pr => if pr = 15 then none else some pr.toNat
      | .cr => if cr = 7 then none else some cr.toNat
    let holds : Cls → Bool := fun k => match lim k with
      | none => true
      | some n => th.cnt.get k ≤ n
    if [Cls.ld, .st, .cp, .pr, .cr].all holds then
      (match th.firstFault (fun k => (lim k).isSome) with
      | some f => reportFault th f s
      | none => .next (s.retire noPend 1))
    else block .retry s)

end Sys2Proof.Machine
end

