-- ==== Sys2Proof/Machine/Access.lean ====
section
/-!
DEFINITION. Memory accesses that threads make: how a value is formed and delivered, local accesses (05 R159 to R163), remote and
global accesses in flight, their performed points and replies (05 R161, 10 R241, 11 R264 to R270).
-/
namespace Sys2Proof.Machine

/-! ## Values -/

/-- A loaded value extended to 64 bits (01 R18). -/
def extendLoad (w : LoadWidth) (bytes : List Byte) : Word :=
  let x : Word := BitVec.ofNat 64 (leNat bytes)
  match w with
  | .w64 => x
  | .s32 => sextFrom 32 x
  | .s16 => sextFrom 16 x
  | .s8 => sextFrom 8 x
  | .z32 => zextFrom 32 x
  | .z16 => zextFrom 16 x
  | .z8 => zextFrom 8 x

/-- The 128 lane bytes as a vector; a lane that the mask turns off takes the old byte (05 R163). -/
def mergeVec (mask : BitVec 128) (old : Vec) (bytes : List Byte) : Vec :=
  BitVec.ofNat 1024 (leNat ((List.range 128).map (fun j =>
    if mask.getLsbD j then bytes.getD j 0 else old.extractLsb' (8 * j) 8)))

/-- The places that an access touches: lanes that a mask turns off are neither read nor written (05 R163). -/
def touched (locs : List Loc) (act : AccessAct) : List Loc :=
  match act with
  | .vload m => ((List.range locs.length).filter (fun j => m.getLsbD j)).filterMap (fun j => locs[j]?)
  | .store d => ((List.range locs.length).filter (fun j => (d.getD j none).isSome)).filterMap (fun j => locs[j]?)
  | _ => locs

/-- The writes of a store: its enabled bytes at their places. -/
def storePairs (locs : List Loc) (d : List (Option Byte)) : List (Loc × Byte) :=
  (locs.zip d).filterMap (fun (l, b) => b.map (fun x => (l, x)))

/-- The data of a scalar store: the low n bytes (05 R159). -/
def storeData (n : Nat) (x : Word) : List (Option Byte) := (leBytes n x.toNat).map some

/-- The data of a vector store under its mask (05 R163). -/
def vstoreData (mask : BitVec 128) (v : Vec) : List (Option Byte) :=
  (List.range 128).map (fun j => if mask.getLsbD j then some (v.extractLsb' (8 * j) 8) else none)

/-- The n-byte signed reading of a number. -/
def signedN (n x : Nat) : Int := Fmt.signedOf (8 * n) x

/-- What an atomic stores: none where AMCAS does not match (11 R270). -/
def atomicNew (op : AtomicOp) (n old v e : Nat) : Option Nat :=
  match op with
  | .add => some ((old + v) % 2 ^ (8 * n))
  | .swp => some v
  | .cas => if old = e then some v else none
  | .min => some (if signedN n v < signedN n old then v else old)
  | .max => some (if signedN n old < signedN n v then v else old)
  | .minu => some (min old v)
  | .maxu => some (max old v)
  | .and => some (Nat.land old v)
  | .or => some (Nat.lor old v)
  | .xor => some (Nat.xor old v)

/-! ## Delivery -/

/-- The state with another thread current: how a step of the device reaches a thread's registers. -/
def State.as (s : State) (c t : Nat) (f : State → State) : State :=
  { f { s with curCore := c, curSlot := t } with curCore := s.curCore, curSlot := s.curSlot }

/-- The entries owed to an operation in a load-data queue take its words (02 R43). -/
def fillLq (id : Nat) (ws : List Word) (l : List LqEntry) : List LqEntry :=
  l.map (fun e => match e with
    | .owed o k => if o = id then .data (ws.getD k 0) else .owed o k
    | .data x => .data x)

/-- The value of a load or atomic as a scalar. -/
def AccessAct.scalar (act : AccessAct) (bytes : List Byte) : Word :=
  match act with
  | .load w => extendLoad w bytes
  | _ => BitVec.ofNat 64 (leNat bytes)

/-- The words that a queue receives: one extended value, or the 16 of a vector with zero in the lanes turned off (05 R163). -/
def AccessAct.queueWords (act : AccessAct) (bytes : List Byte) : List Word :=
  match act with
  | .vload m => vecWords (mergeVec m 0 bytes)
  | _ => [act.scalar bytes]

/-- The lanes that a vector load fills. -/
def AccessAct.mask : AccessAct → BitVec 128
  | .vload m => m
  | _ => BitVec.allOnes 128

/-- What a delivery changes in the thread beside the bytes of its workspace: a register of the handler bank, queue entries, and what is owed
(02 R43, R48, 17 R363). -/
def Thread.took (th : Thread) (id : Nat) (dest : Dest) (act : AccessAct) (bytes : List Byte) : Thread :=
  match dest with
  | .none => th
  | .w i => { th with owed := th.owed.erase (.w i, id) }
  | .h i => { th with bank := th.bank.setIfInBounds i (act.scalar bytes), owed := th.owed.erase (.h i, id) }
  | .v i => { th with owed := th.owed.erase (.v i, id) }
  | .lq q => { th with lq := th.lq.setIfInBounds q (fillLq id (act.queueWords bytes) (th.lqOf q)) }
  | .sq j => { th.sqAppend j (act.queueWords bytes) with owed := th.owed.erase (.sq j, id) }

/-- The result of an operation in flight reaches its destination in the current thread: a w or v register of the workspace, whatever the
mode that the thread is in by then, or one of the handler bank (02 R48, 17 R363). -/
def State.deliverCur (s : State) (id : Nat) (dest : Dest) (act : AccessAct) (bytes : List Byte) : State :=
  match dest with
  | .none => s
  | .w i => (s.wsDeliver id (8 * i) (leBytes 8 (act.scalar bytes).toNat)).modCur (·.took id dest act bytes)
  | .v i => (s.wsDeliver id (256 + 128 * i) (leBytes 128 (mergeVec act.mask (s.getV i) bytes).toNat)).modCur (·.took id dest act bytes)
  | _ => s.modCur (·.took id dest act bytes)

/-- The result of a local load, which the instruction writes itself. -/
def State.place (s : State) (dest : Dest) (act : AccessAct) (bytes : List Byte) : State :=
  match dest with
  | .none => s
  | .w i => s.setW i (act.scalar bytes)
  | .h i => s.setW i (act.scalar bytes)
  | .v i =>
    let m := match act with
      | .vload m => m
      | _ => BitVec.allOnes 128
    s.setV i (mergeVec m (s.getV i) bytes)
  | .lq q => s.modCur (·.lqAppend q ((act.queueWords bytes).map .data))
  | .sq j => s.modCur (·.sqAppend j (act.queueWords bytes))

/-- The places of a destination register of the thread that issued an operation. -/
def State.destLocs (s : State) (o : Op) (d : Dest) : List Loc :=
  match s.issuer o, d.area with
  | some th, some (off, n) => spadLocs o.core (th.wp + off) n
  | _, _ => []

/-- A result that reaches a saved thread: a w or v register in its image, but for the bytes that a later store has written, anything else in its
record (02 R48, 11 R291, 17 R374, R376). -/
def State.deliverSaved (s : State) (o : Op) (id : Nat) (dest : Dest) (act : AccessAct) (bytes : List Byte) : State :=
  let ls := s.destLocs o dest
  let bs := match dest with
    | .v _ => leBytes 128 (mergeVec act.mask (BitVec.ofNat 1024 (leNat (ls.map (fun l => (s.homeByte o.node l).1)))) bytes).toNat
    | _ => leBytes 8 (act.scalar bytes).toNat
  let newer (l : Loc) : Bool := s.late.any (fun e => e.node == o.node && e.key == l.key && decide (id < e.next))
  let t := s.homeStore o.node 0 ((ls.zip bs).filter (fun x => !newer x.1))
  ({ t with late := t.late.filter (fun e => !(e.node == o.node && ls.contains ⟨false, e.key⟩)) } : State).modSaved o.node o.core o.slot
    (·.took id dest act bytes)

/-- The result of an operation reaches the thread that issued it, where it stands. -/
def State.deliver (s : State) (id : Nat) (o : Op) (dest : Dest) (act : AccessAct) (bytes : List Byte) : State :=
  if s.away o then s.deliverSaved o id dest act bytes else s.as o.core o.slot (fun u => u.deliverCur id dest act bytes)

/-- The destination register of a saved thread lies in a line of its image that is not written yet (17 R376). -/
def State.destAway (s : State) (o : Op) (d : Dest) : Bool := (s.homeLocs o.node (s.destLocs o d)).isNone

/-- The destination can take a new result: queue room, and no other operation owing the register (01 R14, 02 R41, R43). -/
def Thread.canTake (th : Thread) (dest : Dest) (n : Nat) : Bool :=
  match dest with
  | .none => true
  | .w i => !th.owes (.w i)
  | .h i => !th.owes (.h i)
  | .v i => !th.owes (.v i)
  | .lq q => th.lqRoom q n
  | .sq j => !th.owes (.sq j) && th.sqRoom j n

/-- The destination is reserved for an operation that issues now: queue entries at the tail, or the register as owed. A store-data queue
that is owed an entry takes no later one before it, so that entries enter in program order (01 R14). -/
def Thread.reserve (th : Thread) (id : Nat) (dest : Dest) (n : Nat) : Thread :=
  match dest with
  | .none => th
  | .w i => { th with owed := th.owed ++ [(.w i, id)] }
  | .h i => { th with owed := th.owed ++ [(.h i, id)] }
  | .v i => { th with owed := th.owed ++ [(.v i, id)] }
  | .lq q => th.lqAppend q ((List.range n).map (fun k => .owed id k))
  | .sq j => { th with owed := th.owed ++ [(.sq j, id)] }

/-- The destination of a scalar code. -/
def scalarDest (d : Code) : Dest :=
  if d.toNat < 32 then .w d.toNat else if d.toNat = 40 then .sq 0 else if d.toNat = 41 then .sq 1 else .none

/-- The same of an instruction of a thread, whose w registers in handler mode are those of the handler bank (17 R363). -/
def Thread.dest (th : Thread) (d : Dest) : Dest :=
  match d with
  | .w i => if th.handler then .h i else .w i
  | d => d

/-- Queue entries that an access fills. -/
def AccessAct.entries : AccessAct → Nat
  | .vload _ => 16
  | _ => 1

/-! ## Issue -/

/-- Bound in ck on the transit of a message between cores (13 R327), and on a global access (DESIGN CHOICE, log 6). -/
def transit (home : Option Nat) : Nat := if home.isSome then 400 else 1024

/-- The messages in which an access of n bytes goes to its home core (13 R320). -/
def State.homeMsgs (s : State) (th : Thread) (home : Option Nat) (n : Nat) : Nat :=
  match home with
  | none => 0
  | some c => if c = s.curCore then 0 else s.msgsTo th.node c n

/-- An access issues. A result for a store-data queue, and one that `sync` marks, holds the instruction until it is there (01 R14,
11 R265); any other instruction retires now and its destination owes the value (02 R41). -/
def issueAccess (cls : Cls) (ords : List OrdClass) (scope : Scope) (home : Option Nat) (addr : Word) (locs : List Loc)
    (act : AccessAct) (into : Dest) (sync : Bool) (p : Pend) (words : Nat) (step : Nat → Instr) (s : State) : Out :=
  withThread s (fun th =>
    let dest := th.dest into
    if th.full cls || !th.canTake dest act.entries then block .retry s
    else
      let id := s.nextOp
      let hold := sync || (match dest with
        | .sq _ => true
        | _ => false)
      let o : Op := ⟨s.curCore, s.curSlot, th.node, cls, th.tag, ords, scope,
        .access ⟨addr, locs, home, act, dest, p, if hold then words else 0, false, [], none, s.homeMsgs th home locs.length⟩⟩
      let t := ((s.issue o).msgSent s.curCore (s.homeMsgs th home locs.length)).dueWithin (transit home) (step id)
      if hold then .next (t.modCur (fun th => { th with run := .blocked (.op id) }))
      else .next ((t.modCur (fun th => th.reserve id dest act.entries)).retire p words))

/-! ## Scratchpad accesses -/

/-- The check of a scratchpad access: address fault, then misalignment (02 R59, 05 R163). -/
def State.spadCheck (s : State) (th : Thread) (ea : BitVec 32) (n align : Nat) : Except (Trap × Word) (Nat × Nat) :=
  match s.spadDecode th ea n with
  | .error a => .error (.addressFault, a)
  | .ok (c, off) => if off % align ≠ 0 then .error (.misaligned, ea.setWidth 64) else .ok (c, off)

/-- The index of the first place that an access touches in a poisoned data unit (17 R360, R383). -/
def State.firstBad (s : State) (locs : List Loc) (act : AccessAct) : Option Nat :=
  let t := touched locs act
  (List.range locs.length).find? (fun i => match locs[i]? with
    | none => false
    | some l => t.contains l && s.poisoned l)

/-- A scratchpad load (05 R159, R161 to R163): local now, remote as a message that counts in CR. A local one is performed when it issues,
so that it comes after every earlier local store of its thread (10 R243 allows more; DEDUCED, log 64). -/
def spadLoad (act : AccessAct) (n align : Nat) (dest : Dest) (ea : BitVec 32) (p : Pend) (words : Nat) (s : State) : Out :=
  withThread s (fun th =>
    match s.spadCheck th ea n align with
    | .error (k, a) => trap k 0 a s
    | .ok (c, off) =>
      let locs := spadLocs c off n
      if c = s.curCore then
        (if s.readWaits (touched locs act) || !th.canTake (th.dest dest) act.entries then block .retry s
         else
           match s.firstBad locs act with
           | some i => trap .dataError 0 ((ea + BitVec.ofNat 32 i).setWidth 64) s
           | none => .next ((s.place dest act (memBytes s.spad (spadKey c off) n)).retire p words))
      else issueAccess .cr [.rs] .thread (some c) (ea.setWidth 64) locs act dest false p words .remoteAccessPerformed s)

/-- A scratchpad store (05 R159, R161, R163). `take` names the store-data queue and the entries that the store consumes. -/
def spadStore (data : List (Option Byte)) (align : Nat) (take : Option (Nat × Nat)) (ea : BitVec 32) (p : Pend) (words : Nat) (s : State) :
    Out :=
  withThread s (fun th =>
    match s.spadCheck th ea data.length align with
    | .error (k, a) => trap k 0 a s
    | .ok (c, off) =>
      let locs := spadLocs c off data.length
      let ls := touched locs (.store data)
      let s' := match take with
        | none => s
        | some (j, n) => s.modCur (·.sqTake j n)
      if c = s.curCore then
        (if s.anyHeldW ls || s.mustWait s.curCore s.curSlot (localView .ss ls) then block .retry s
         else .next ((s'.storeLocs (storePairs locs data)).retire p words))
      else if th.full .cr then block .retry s
      else issueAccess .cr [.rs] .thread (some c) (ea.setWidth 64) locs (.store data) .none false p words .remoteAccessPerformed s')

/-! ## Global accesses -/

/-- The checks of 11 R264 over all bytes, in their order: canonical, aligned, translated, allowed. -/
def State.globalCheck (s : State) (th : Thread) (va : Word) (n align : Nat) (need : Need) : Except (Trap × Word) (List Loc) :=
  let nd := s.node th.node
  let as := (List.range n).map (fun i => va + BitVec.ofNat 64 i)
  match as.find? (fun a => !canonical a) with
  | some a => .error (.addressFault, a)
  | none =>
    if va.toNat % align ≠ 0 then .error (.misaligned, va)
    else
      let xs := as.map (fun a => (a, s.translate nd.vd nd.ctx a need))
      match xs.find? (fun x => x.2 == .tfault) with
      | some x => .error (.translation, x.1)
      | none =>
        match xs.find? (fun x => x.2 == .pfault) with
        | some x => .error (.permission, x.1)
        | none => .ok (xs.filterMap (fun x => match x.2 with
          | .ok k => some ⟨true, k⟩
          | _ => none))

/-- The translations of an access of the current core stand in TLBs from then on (16 R347). -/
def State.fillFor (s : State) (th : Thread) (va : Word) (n : Nat) : State :=
  let nd := s.node th.node
  (s.tlbFill (some s.curCore) nd.vd nd.ctx va).tlbFill (some s.curCore) nd.vd nd.ctx (va + BitVec.ofNat 64 (n - 1))

/-- The classes of a global access (10 R247). -/
def gaClasses (o : Ord) : List OrdClass :=
  match o with
  | .plain => [.ga] | .acquire => [.aq] | .release => [.rl] | .acqrel => [.aq, .rl]

/-- A global load (11 R265, R267): into a queue it retires at issue, else when its data have arrived; so does one that discards its value
(d = 42), of which the spec says that it meets its faults and not when it retires (DEDUCED, log 65). -/
def globalLoad (act : AccessAct) (n align : Nat) (dest : Dest) (ox : OX) (va : Word) (p : Pend) (words : Nat) (s : State) : Out :=
  withThread s (fun th =>
    match s.globalCheck th va n align ⟨true, false, false⟩ with
    | .error (k, a) => trap k 0 a s
    | .ok locs =>
      let sync := match dest with
        | .lq _ => false
        | _ => true
      if th.full .ld || !th.canTake (th.dest dest) act.entries then block .retry s
      else issueAccess .ld (gaClasses ox.ord) ox.scope none va locs act dest sync p words .globalAccessComplete (s.fillFor th va n))

/-- A global store (11 R267). -/
def globalStore (data : List (Option Byte)) (align : Nat) (take : Option (Nat × Nat)) (ox : OX) (va : Word) (p : Pend) (words : Nat)
    (s : State) : Out :=
  withThread s (fun th =>
    match s.globalCheck th va data.length align ⟨false, true, false⟩ with
    | .error (k, a) => trap k 0 a s
    | .ok locs =>
      if th.full .st then block .retry s
      else
        let s' := match take with
          | none => s
          | some (j, n) => s.modCur (·.sqTake j n)
        issueAccess .st (gaClasses ox.ord) ox.scope none va locs (.store data) .none false p words .globalAccessComplete
          (s'.fillFor th va data.length))

/-! ## Performing (10 R241) -/

/-- The access writes memory as things stand: an AMCAS that does not match counts as a load (11 R270). -/
def State.writesNow (s : State) (a : Access) : Bool :=
  match a.act with
  | .atomic op v e => (atomicNew op a.locs.length (leNat (a.locs.map s.readLoc)) v e).isSome
  | act => act.writes

/-- What the ordering rules ask about an access that is to be performed now. -/
def State.viewNow (s : State) (o : Op) (a : Access) : OrdView :=
  let w := s.writesNow a
  { o.view with locs := touched a.locs a.act, writes := w, classes := if w then o.ords else o.ords.filter (· != .ss) }

/-- An access may be performed: no engine holds its bytes, and no earlier unsettled operation of its thread must precede it; a
release waits for every earlier access and registration (10 R255); messages of one core to one home core arrive in order (02 R60). -/
def State.mayPerform (s : State) (id : Nat) (o : Op) (a : Access) : Bool :=
  let v := s.viewNow o a
  !(if v.writes then s.anyHeldW v.locs else s.anyHeld v.locs) &&
    !(a.home.isSome && s.ops.any (fun (j, e) => decide (j < id) && !e.settled && e.core == o.core && e.node == o.node && e.view.home == a.home)) &&
    !(s.siblings o).any (fun (j, e) => decide (j < id) && !e.settled && mustPrecede e.view v)

/-- The action at the performed point: the bytes read, the first poisoned byte met, and the state with the write done. -/
def State.performAt (s : State) (a : Access) : List Byte × Option Nat × State :=
  let bytes := a.locs.map s.readLoc
  let bad := s.firstBad a.locs a.act
  match a.act with
  | .load _ => (bytes, bad, s)
  | .vload _ => (bytes, bad, s)
  | .store d => ([], none, s.storeLocs (storePairs a.locs d))
  | .atomic op v e =>
    if bad.isSome then (bytes, bad, s)
    else
      match atomicNew op a.locs.length (leNat bytes) v e with
      | none => (bytes, none, s)
      | some x => (bytes, none, s.storeLocs (a.locs.zip (leBytes a.locs.length x)))

/-- What an access that met a poisoned unit delivers: zero to a queue and from an atomic (11 R265, R270, 05 R165); what a remote
load leaves in a register or pushes is left open (DESIGN CHOICE, log 18). -/
def badBytes (s : State) (a : Access) (bytes : List Byte) : List Byte :=
  match a.act, a.dest with
  | .atomic _ _ _, _ => bytes.map (fun _ => 0)
  | _, .lq _ => bytes.map (fun _ => 0)
  | _, _ => (List.range bytes.length).map (fun i => (Config.freeWord (s.fresh + i)).setWidth 8)

/-- A global load's uncorrectable error is logged in the bank of the line's DRAM channel (11 R265, 17 R381, R382; DEDUCED, log 21). -/
def State.logLoad (s : State) (o : Op) (a : Access) (i : Nat) : State :=
  match a.locs[i]?, s.issuer o with
  | some l, some th =>
    if l.glob ∧ o.cls = .ld then s.logMet o.core th o.tag (0x3080 + l.key / 2 ^ 33) 3 (BitVec.ofNat 64 l.key) else s
  | _, _ => s

/-- The end of an access: its result, the retirement of the instruction that it holds, and a fault raised there or left to be
reported (11 R265, R270, 05 R165). A global load that holds its instruction takes the data-error trap. -/
def State.settle (s : State) (id : Nat) (o : Op) (a : Access) (bytes : List Byte) (bad : Option Nat) : State :=
  match bad with
  | some i =>
    let addr := a.addr + BitVec.ofNat 64 i
    let s := s.logLoad o a i
    if a.words ≠ 0 ∧ o.cls = .ld then
      match s.thread o.core o.slot with
      | none => s
      | some th => s.enterTrap o.core o.slot .dataError 0 addr th.pc 0 7 0
    else
      let t := (({ s with fresh := s.fresh + bytes.length } : State).deliver id o a.dest a.act (badBytes s a bytes)).noteFault id o .dataError 0 addr
      if a.words ≠ 0 then t.modIssuer o (·.retire a.pops a.words) else t
  | none =>
    let t := s.deliver id o a.dest a.act bytes
    if a.words ≠ 0 then t.modIssuer o (·.retire a.pops a.words) else t

end Sys2Proof.Machine
end

