-- ==== Sys2Proof/Machine/Local.lean ====
section
/-!
DEFINITION. Scratchpad and Ream instructions (05 R158 to R164): majors 0x10 to 0x12.
-/
namespace Sys2Proof.Machine

/-- a + index + offset, low 32 bits (05 R158), then the access. `x` says that code 63 in b is no register. -/
def withEa (ok : Bool) (x : Bool) (a b : Code) (off : BitVec 12) (s : State) (k : BitVec 32 → Pend → Out) : Out :=
  checked (ok && legalSrc a && legalIdx x b) s (fun _ =>
    reading (s.read a noPend) s (fun base p =>
      reading (if x then s.readIdx b p else s.read b p) s (fun idx p => k ((base + idx + off64 off).setWidth 32) p)))

/-- The data register of a scalar store is read after a and b (05 R158). -/
def withData (d : Code) (s : State) (p : Pend) (k : Word → Pend → Out) : Out := reading (s.read d p) s k

/-- The entries at the head of a store-data queue, or a wait (02 R43). -/
def fromSq (d : Code) (n : Nat) (s : State) (k : Nat → List Word → Out) : Out :=
  withThread s (fun th =>
    let j := d.toNat - 40
    let xs := (th.sqOf j).take n
    if xs.length < n then block .retry s else k j xs)

/-- The lanes that a vector access moves (05 R163). -/
def State.laneMask (s : State) (me : Bool) (msk : BitVec 3) : BitVec 128 :=
  if me then s.getM msk.toNat else BitVec.allOnes 128

/-- The destination of a vector load: a register or a load-data queue. -/
def vecDest (d : Code) : Dest := if d.toNat < 16 then .v d.toNat else .lq (d.toNat - 32)

def legalVld (d : Code) : Bool := d.toNat < 16 || isLq d

/-- Vector store sources: the vector scheme, or a store-data queue (05 R163). -/
def legalVst (d : Code) : Bool := legalVSrc d || isSq d

/-! ## The shared forms -/

def ldForm (x : Bool) (words : Nat) (w : LoadWidth) (d a b : Code) (off : BitVec 12) (s : State) : Out :=
  withEa (legalDst d) x a b off s (fun ea p => spadLoad (.load w) w.bytes w.bytes (scalarDest d) ea p words s)

def stForm (x : Bool) (words : Nat) (w : StoreWidth) (d a b : Code) (off : BitVec 12) (s : State) : Out :=
  withEa (legalSrc d) x a b off s (fun ea p => withData d s p (fun v p =>
    spadStore (storeData w.bytes v) w.bytes none ea p words s))

def ldqForm (x : Bool) (words : Nat) (w : LoadWidth) (d a b : Code) (off : BitVec 12) (s : State) : Out :=
  withEa (isLq d) x a b off s (fun ea p => spadLoad (.load w) w.bytes w.bytes (.lq (d.toNat - 32)) ea p words s)

def stqForm (x : Bool) (words : Nat) (w : StoreWidth) (d a b : Code) (off : BitVec 12) (s : State) : Out :=
  withEa (isSq d) x a b off s (fun ea p => fromSq d 1 s (fun j xs =>
    spadStore (storeData w.bytes (xs.headD 0)) w.bytes (some (j, 1)) ea p words s))

def vldForm (x : Bool) (words : Nat) (d a b : Code) (off : BitVec 12) (me : Bool) (msk : BitVec 3) (s : State) : Out :=
  withEa (legalVld d) x a b off s (fun ea p => spadLoad (.vload (s.laneMask me msk)) 128 8 (vecDest d) ea p words s)

def vstForm (x : Bool) (words : Nat) (d a b : Code) (off : BitVec 12) (me : Bool) (msk : BitVec 3) (s : State) : Out :=
  withEa (legalVst d) x a b off s (fun ea p =>
    if isSq d then fromSq d 16 s (fun j xs =>
      spadStore (vstoreData (s.laneMask me msk) (wordsVec xs)) 8 (some (j, 16)) ea p words s)
    else reading (s.readVec d p) s (fun v p => spadStore (vstoreData (s.laneMask me msk) v) 8 none ea p words s))

/-- LDW (05 R164): 8 bytes of the core's own Ream slice; a read in the refresh window is held (02 R68). -/
def ldwForm (x : Bool) (words : Nat) (d a b : Code) (off : BitVec 12) (s : State) : Out :=
  withEa (legalDst d) x a b off s (fun ea p =>
    withThread s (fun th =>
      let k := (s.vdOf th).reamk * 65536
      if ea.toNat ≥ k then trap .addressFault 0 (ea.setWidth 64) s
      else if ea.toNat % 8 ≠ 0 then trap .misaligned 0 (ea.setWidth 64) s
      else if refcPhase s.clk s.curCore < 96 then block .retry s
      else
        let key := s.curCore * Config.reamBytes + ea.toNat
        if s.poisonR.contains (key / 64) then trap .dataError 0 (ea.setWidth 64) s
        else writing (s.write d (BitVec.ofNat 64 (leNat (memBytes s.ream key 8)))) p words s))

/-! ## The instructions -/

def execLd (w : LoadWidth) (d a b : Code) (s : State) : Out := ldForm false 1 w d a b 0 s
def execLdX (w : LoadWidth) (d a b : Code) (off : BitVec 12) (s : State) : Out := ldForm true 3 w d a b off s
def execLdImm (d a : Code) (imm : BitVec 12) (s : State) : Out := ldForm false 1 .w64 d a 42 imm s
def execSt (w : StoreWidth) (d a b : Code) (s : State) : Out := stForm false 1 w d a b 0 s
def execStX (w : StoreWidth) (d a b : Code) (off : BitVec 12) (s : State) : Out := stForm true 3 w d a b off s
def execStImm (d a : Code) (imm : BitVec 12) (s : State) : Out := stForm false 1 .w64 d a 42 imm s
def execLdq (w : LoadWidth) (d a b : Code) (s : State) : Out := ldqForm false 1 w d a b 0 s
def execLdqX (w : LoadWidth) (d a b : Code) (off : BitVec 12) (s : State) : Out := ldqForm true 3 w d a b off s
def execStq (w : StoreWidth) (d a b : Code) (s : State) : Out := stqForm false 1 w d a b 0 s
def execStqX (w : StoreWidth) (d a b : Code) (off : BitVec 12) (s : State) : Out := stqForm true 3 w d a b off s
def execVld (d a b : Code) (s : State) : Out := vldForm false 1 d a b 0 false 0 s
def execVldX (d a b : Code) (off : BitVec 12) (me : Bool) (msk : BitVec 3) (s : State) : Out := vldForm true 3 d a b off me msk s
def execVst (d a b : Code) (s : State) : Out := vstForm false 1 d a b 0 false 0 s
def execVstX (d a b : Code) (off : BitVec 12) (me : Bool) (msk : BitVec 3) (s : State) : Out := vstForm true 3 d a b off me msk s
def execLdw (d a b : Code) (s : State) : Out := ldwForm false 1 d a b 0 s
def execLdwX (d a b : Code) (off : BitVec 12) (s : State) : Out := ldwForm true 3 d a b off s

end Sys2Proof.Machine
end

