-- ==== Sys2Proof/Machine/Vector.lean ====
section
/-!
DEFINITION. Vector instructions (06_isa_vector_float.md R167 to R172, R178 to R191): majors 0x21 to 0x24.
-/
namespace Sys2Proof.Machine

/-! ## Elements (06 R169, R170) -/

/-- Element i of width w. -/
def elem (v : Vec) (w i : Nat) : Nat := (v.extractLsb' (i * w) w).toNat

/-- The number of elements of a width. -/
def elemCount (w : Nat) : Nat := 1024 / w

/-- Elements packed from element 0 up. -/
def packElems (w : Nat) : List Nat → Nat
  | [] => 0
  | x :: xs => x % 2 ^ w + 2 ^ w * packElems w xs

def vecOfElems (w : Nat) (xs : List Nat) : Vec := BitVec.ofNat 1024 (packElems w xs)

/-- Element i is enabled: the mask bit of its lowest lane byte (06 R170). -/
def enabled (mask : BitVec 128) (w i : Nat) : Bool := mask.getLsbD (i * w / 8)

/-- A loop over elements in ascending order, carrying the generator (04 R118). -/
def elemLoop (f : Nat → Rnd → Nat × Rnd) : List Nat → Rnd → List Nat × Rnd
  | [], r => ([], r)
  | i :: is, r =>
    let (x, r1) := f i r
    let (xs, r2) := elemLoop f is r1
    (x :: xs, r2)

/-- Elements computed where enabled; elsewhere the previous value (06 R170). -/
def maskedLoop (mask : BitVec 128) (w n : Nat) (old : Vec) (r : Rnd) (f : Nat → Rnd → Nat × Rnd) : Vec × Rnd :=
  let (xs, r') := elemLoop (fun i r => if enabled mask w i then f i r else (elem old w i, r)) (List.range n) r
  (vecOfElems w xs, r')

/-- The previous value of a destination: a register's own, zero for a queue (06 R170). -/
def State.oldVec (s : State) (d : Code) : Vec := if d.toNat < 16 then s.getV d.toNat else 0

/-- Operand b: a register code, or the literal of LEN 0b11 (06 R171). -/
inductive BSrc where
  | code (c : Code)
  | lit (x : Word)
  deriving DecidableEq, Repr

def BSrc.legal : BSrc → Bool
  | .code c => legalVSrc c
  | .lit _ => true

/-- A literal broadcast into every element of width w (06 R171). -/
def broadcast (w : Nat) (x : Word) : Vec := vecOfElems w (List.replicate (elemCount w) x.toNat)

def State.readB (s : State) (b : BSrc) (w : Nat) (p : Pend) : Except Why (Vec × Pend) :=
  match b with
  | .code c => s.readVec c p
  | .lit x => .ok (broadcast w x, p)

/-- A scalar operand b or the literal (06 R180). -/
def State.readScalarB (s : State) (b : BSrc) (p : Pend) : Except Why (Word × Pend) :=
  match b with
  | .code c => s.read c p
  | .lit x => .ok (x, p)

/-! ## Shapes -/

/-- The effective format (06 R168). -/
def effective (th : Thread) (fmto : BitVec 5) : Nat := if fmto = 0 then th.fmt.toNat else fmto.toNat

/-- Codes, then the effective format, which must be one that the entry accepts (06 R168). -/
def withFmt (ok : Bool) (fmto : BitVec 5) (okF : Nat → Bool) (s : State) (k : Thread → Fmt → Out) : Out :=
  checked ok s (fun th =>
    if okF (effective th fmto) then
      match Fmt.ofCode (effective th fmto) with
      | some f => k th f
      | none => trap .illegalInstruction 0 0 s
    else trap .illegalInstruction 0 0 s)

/-- An element-wise entry of one vector source (06 R178). -/
def vec1 (words : Nat) (okF : Nat → Bool) (d a : Code) (v : VX) (s : State) (f : Fmt → Rnd → Nat → Nat × Rnd) : Out :=
  withFmt (legalVDst d && legalVSrc a) v.fmto okF s (fun th fm =>
    reading (s.readVec a noPend) s (fun x p =>
      let w := fm.width
      let (z, r) := maskedLoop (s.laneMask v.me v.msk) w (elemCount w) (s.oldVec d) th.rounding (fun i r => f fm r (elem x w i))
      writingSeed (s.writeVec d z) r p words s))

/-- An element-wise entry of two vector sources. -/
def vec2 (words : Nat) (okF : Nat → Bool) (d a : Code) (b : BSrc) (v : VX) (s : State) (f : Fmt → Rnd → Nat → Nat → Nat × Rnd) : Out :=
  withFmt (legalVDst d && legalVSrc a && b.legal) v.fmto okF s (fun th fm =>
    reading (s.readVec a noPend) s (fun x p =>
      reading (s.readB b fm.width p) s (fun y p =>
        let w := fm.width
        let (z, r) := maskedLoop (s.laneMask v.me v.msk) w (elemCount w) (s.oldVec d) th.rounding
          (fun i r => f fm r (elem x w i) (elem y w i))
        writingSeed (s.writeVec d z) r p words s)))

/-- An element-wise entry of three vector sources, a, b, then C. -/
def vec3 (words : Nat) (okF : Nat → Bool) (d a : Code) (b : BSrc) (c : Code) (v : VX) (s : State)
    (f : Fmt → Rnd → Nat → Nat → Nat → Nat × Rnd) : Out :=
  withFmt (legalVDst d && legalVSrc a && b.legal && legalVSrc c) v.fmto okF s (fun th fm =>
    reading (s.readVec a noPend) s (fun x p =>
      reading (s.readB b fm.width p) s (fun y p =>
        reading (s.readVec c p) s (fun z p =>
          let w := fm.width
          let (q, r) := maskedLoop (s.laneMask v.me v.msk) w (elemCount w) (s.oldVec d) th.rounding
            (fun i r => f fm r (elem x w i) (elem y w i) (elem z w i))
          writingSeed (s.writeVec d q) r p words s))))

/-! ## Element functions (06 R178 to R182) -/

/-- wrap of an integer result, or rnd of a float result. -/
def arith (fm : Fmt) (r : Rnd) (i : Int) (e : Ext) : Nat × Rnd := if fm.isInt then (wrapNat fm.width i, r) else r.call fm e

def eAdd (fm : Fmt) (r : Rnd) (x y : Nat) : Nat × Rnd :=
  arith fm r (fm.intVal x + fm.intVal y) (Ext.add r.mode (fm.val x) (fm.val y))
def eSub (fm : Fmt) (r : Rnd) (x y : Nat) : Nat × Rnd :=
  arith fm r (fm.intVal x - fm.intVal y) (Ext.add r.mode (fm.val x) (fm.val y).negate)
def eMul (fm : Fmt) (r : Rnd) (x y : Nat) : Nat × Rnd := arith fm r (fm.intVal x * fm.intVal y) (Ext.mul (fm.val x) (fm.val y))
def eFma (fm : Fmt) (r : Rnd) (x y z : Nat) : Nat × Rnd :=
  arith fm r (fm.intVal x * fm.intVal y + fm.intVal z) (Ext.add r.mode (Ext.mul (fm.val x) (fm.val y)) (fm.val z))
def eMin (fm : Fmt) (r : Rnd) (x y : Nat) : Nat × Rnd :=
  (match fm with
    | .flt g => fminEnc g x y
    | _ => if fm.intVal y < fm.intVal x then y else x, r)
def eMax (fm : Fmt) (r : Rnd) (x y : Nat) : Nat × Rnd :=
  (match fm with
    | .flt g => fmaxEnc g x y
    | _ => if fm.intVal x < fm.intVal y then y else x, r)
def eAbs (fm : Fmt) (r : Rnd) (x : Nat) : Nat × Rnd :=
  (match fm with
    | .flt g => if (g.decode x).isNan then g.nanEnc else x % 2 ^ (g.width - 1)
    | _ => wrapNat fm.width (fm.intVal x).natAbs, r)
def eNeg (fm : Fmt) (r : Rnd) (x : Nat) : Nat × Rnd :=
  (match fm with
    | .flt g => if (g.decode x).isNan then g.nanEnc else Nat.xor x (2 ^ (g.width - 1))
    | _ => wrapNat fm.width (-(fm.intVal x)), r)
def eShl (fm : Fmt) (r : Rnd) (x y : Nat) : Nat × Rnd := ((x <<< (y % fm.width)) % 2 ^ fm.width, r)
def eShr (fm : Fmt) (r : Rnd) (x y : Nat) : Nat × Rnd := (x >>> (y % fm.width), r)
def eSar (fm : Fmt) (r : Rnd) (x y : Nat) : Nat × Rnd := (wrapNat fm.width (Fmt.signedOf fm.width x / (2 ^ (y % fm.width) : Int)), r)
/-- VSCL (06 R180): one KS24 scale on every element. -/
def eScl (sc : Option Nat) (fm : Fmt) (r : Rnd) (x : Nat) : Nat × Rnd :=
  match sc with
  | none => (match fm with
    | .flt g => g.nanEnc
    | _ => 0, r)
  | some _ => r.call fm (scaled (fm.val x) sc)
/-- VRCP, VRSQ, VEX2, VLG2 (06 R181): FP32 results are rounded to nearest onto the set G, the others by rn. -/
def eFun (g : Ext → Ext) (fm : Fmt) (r : Rnd) (x : Nat) : Nat × Rnd :=
  (match fm with
    | .flt f =>
      if (g (f.decode x)).isNan then f.nanEnc
      else if f = fp32 then fpG.round .rn 0 (g (f.decode x)) <<< 2
      else f.round .rn 0 (g (f.decode x))
    | _ => 0, r)

/-! ## Major 0x21 -/

def execVadd (d a b : Code) (s : State) : Out := vec2 1 anyFmtOk d a (.code b) VX.none s eAdd
def execVaddX (d a b : Code) (vx : VX) (s : State) : Out := vec2 3 anyFmtOk d a (.code b) vx s eAdd
def execVaddLit (d a : Code) (lit : Word) (vx : VX) (s : State) : Out := vec2 5 anyFmtOk d a (.lit lit) vx s eAdd
def execVsub (d a b : Code) (s : State) : Out := vec2 1 anyFmtOk d a (.code b) VX.none s eSub
def execVsubX (d a b : Code) (vx : VX) (s : State) : Out := vec2 3 anyFmtOk d a (.code b) vx s eSub
def execVsubLit (d a : Code) (lit : Word) (vx : VX) (s : State) : Out := vec2 5 anyFmtOk d a (.lit lit) vx s eSub
def execVmul (d a b : Code) (s : State) : Out := vec2 1 anyFmtOk d a (.code b) VX.none s eMul
def execVmulX (d a b : Code) (vx : VX) (s : State) : Out := vec2 3 anyFmtOk d a (.code b) vx s eMul
def execVmulLit (d a : Code) (lit : Word) (vx : VX) (s : State) : Out := vec2 5 anyFmtOk d a (.lit lit) vx s eMul
def execVfma (d a b c : Code) (vx : VX) (s : State) : Out := vec3 3 anyFmtOk d a (.code b) c vx s eFma
def execVfmaLit (d a : Code) (lit : Word) (c : Code) (vx : VX) (s : State) : Out := vec3 5 anyFmtOk d a (.lit lit) c vx s eFma
def execVmin (d a b : Code) (s : State) : Out := vec2 1 anyFmtOk d a (.code b) VX.none s eMin
def execVminX (d a b : Code) (vx : VX) (s : State) : Out := vec2 3 anyFmtOk d a (.code b) vx s eMin
def execVminLit (d a : Code) (lit : Word) (vx : VX) (s : State) : Out := vec2 5 anyFmtOk d a (.lit lit) vx s eMin
def execVmax (d a b : Code) (s : State) : Out := vec2 1 anyFmtOk d a (.code b) VX.none s eMax
def execVmaxX (d a b : Code) (vx : VX) (s : State) : Out := vec2 3 anyFmtOk d a (.code b) vx s eMax
def execVmaxLit (d a : Code) (lit : Word) (vx : VX) (s : State) : Out := vec2 5 anyFmtOk d a (.lit lit) vx s eMax
def execVabs (d a : Code) (s : State) : Out := vec1 1 anyFmtOk d a VX.none s eAbs
def execVabsX (d a : Code) (vx : VX) (s : State) : Out := vec1 3 anyFmtOk d a vx s eAbs
def execVneg (d a : Code) (s : State) : Out := vec1 1 anyFmtOk d a VX.none s eNeg
def execVnegX (d a : Code) (vx : VX) (s : State) : Out := vec1 3 anyFmtOk d a vx s eNeg

/-- VAND, VOR, VXOR (06 R179): all 1024 bits, no format, mask bit j governs lane byte j. -/
def vecBits (words : Nat) (d a : Code) (b : BSrc) (v : VX) (s : State) (f : Vec → Vec → Vec) : Out :=
  checked (legalVDst d && legalVSrc a && b.legal) s (fun _ =>
    reading (s.readVec a noPend) s (fun x p =>
      reading (s.readB b 64 p) s (fun y p =>
        let z := mergeLanes (s.laneMask v.me v.msk) (s.oldVec d) (f x y)
        writing (s.writeVec d z) p words s)))
where
  /-- Lane bytes of the new value where the mask enables them. -/
  mergeLanes (mask : BitVec 128) (old new : Vec) : Vec :=
    vecOfElems 8 ((List.range 128).map (fun j => if mask.getLsbD j then elem new 8 j else elem old 8 j))

def execVand (d a b : Code) (s : State) : Out := vecBits 1 d a (.code b) VX.none s (fun x y => x &&& y)
def execVandX (d a b : Code) (vx : VX) (s : State) : Out := vecBits 3 d a (.code b) vx s (fun x y => x &&& y)
def execVandLit (d a : Code) (lit : Word) (vx : VX) (s : State) : Out := vecBits 5 d a (.lit lit) vx s (fun x y => x &&& y)
def execVor (d a b : Code) (s : State) : Out := vecBits 1 d a (.code b) VX.none s (fun x y => x ||| y)
def execVorX (d a b : Code) (vx : VX) (s : State) : Out := vecBits 3 d a (.code b) vx s (fun x y => x ||| y)
def execVorLit (d a : Code) (lit : Word) (vx : VX) (s : State) : Out := vecBits 5 d a (.lit lit) vx s (fun x y => x ||| y)
def execVxor (d a b : Code) (s : State) : Out := vecBits 1 d a (.code b) VX.none s (fun x y => x ^^^ y)
def execVxorX (d a b : Code) (vx : VX) (s : State) : Out := vecBits 3 d a (.code b) vx s (fun x y => x ^^^ y)
def execVxorLit (d a : Code) (lit : Word) (vx : VX) (s : State) : Out := vecBits 5 d a (.lit lit) vx s (fun x y => x ^^^ y)
def execVshl (d a b : Code) (s : State) : Out := vec2 1 intFmtOk d a (.code b) VX.none s eShl
def execVshlX (d a b : Code) (vx : VX) (s : State) : Out := vec2 3 intFmtOk d a (.code b) vx s eShl
def execVshlLit (d a : Code) (lit : Word) (vx : VX) (s : State) : Out := vec2 5 intFmtOk d a (.lit lit) vx s eShl
def execVshr (d a b : Code) (s : State) : Out := vec2 1 intFmtOk d a (.code b) VX.none s eShr
def execVshrX (d a b : Code) (vx : VX) (s : State) : Out := vec2 3 intFmtOk d a (.code b) vx s eShr
def execVshrLit (d a : Code) (lit : Word) (vx : VX) (s : State) : Out := vec2 5 intFmtOk d a (.lit lit) vx s eShr
def execVsar (d a b : Code) (s : State) : Out := vec2 1 intFmtOk d a (.code b) VX.none s eSar
def execVsarX (d a b : Code) (vx : VX) (s : State) : Out := vec2 3 intFmtOk d a (.code b) vx s eSar
def execVsarLit (d a : Code) (lit : Word) (vx : VX) (s : State) : Out := vec2 5 intFmtOk d a (.lit lit) vx s eSar

/-- VSCL: operand b is a scalar scale word (06 R180). -/
def vecScale (words : Nat) (d a : Code) (b : BSrc) (v : VX) (s : State) : Out :=
  let okB := match b with
    | .code c => legalSrc c
    | .lit _ => true
  withFmt (legalVDst d && legalVSrc a && okB) v.fmto anyFmtOk s (fun th fm =>
    reading (s.readVec a noPend) s (fun x p =>
      reading (s.readScalarB b p) s (fun sw p =>
        let w := fm.width
        let (z, r) := maskedLoop (s.laneMask v.me v.msk) w (elemCount w) (s.oldVec d) th.rounding
          (fun i r => eScl (scaleWord sw.toNat) fm r (elem x w i))
        writingSeed (s.writeVec d z) r p words s)))

def execVscl (d a b : Code) (s : State) : Out := vecScale 1 d a (.code b) VX.none s
def execVsclX (d a b : Code) (vx : VX) (s : State) : Out := vecScale 3 d a (.code b) vx s
def execVsclLit (d a : Code) (lit : Word) (vx : VX) (s : State) : Out := vecScale 5 d a (.lit lit) vx s
def execVrcp (d a : Code) (s : State) : Out := vec1 1 arithFmtOk d a VX.none s (eFun Ext.recip)
def execVrcpX (d a : Code) (vx : VX) (s : State) : Out := vec1 3 arithFmtOk d a vx s (eFun Ext.recip)
def execVrsq (d a : Code) (s : State) : Out := vec1 1 arithFmtOk d a VX.none s (eFun Ext.rsqrt)
def execVrsqX (d a : Code) (vx : VX) (s : State) : Out := vec1 3 arithFmtOk d a vx s (eFun Ext.rsqrt)
def execVex2 (d a : Code) (s : State) : Out := vec1 1 arithFmtOk d a VX.none s (eFun Ext.exp2)
def execVex2X (d a : Code) (vx : VX) (s : State) : Out := vec1 3 arithFmtOk d a vx s (eFun Ext.exp2)
def execVlg2 (d a : Code) (s : State) : Out := vec1 1 arithFmtOk d a VX.none s (eFun Ext.log2)
def execVlg2X (d a : Code) (vx : VX) (s : State) : Out := vec1 3 arithFmtOk d a vx s (eFun Ext.log2)

/-- VCVT (06 R182): n elements of the wider format; a narrower destination has its upper bytes zero whatever the mask holds. -/
def execVcvt (d a : Code) (vx : VX) (fmtd : BitVec 5) (s : State) : Out :=
  withFmt (legalVDst d && legalVSrc a) vx.fmto anyFmtOk s (fun th src =>
    reading (s.readVec a noPend) s (fun x p =>
      let dst := (Fmt.ofCode fmtd.toNat).getD src
      let n := 1024 / max src.width dst.width
      let (z, r) := maskedLoop (s.laneMask vx.me vx.msk) dst.width n (s.oldVec d) th.rounding
        (fun i r => convElem src dst false r (elem x src.width i))
      writingSeed (s.writeVec d z) r p 3 s))

/-! ## Major 0x22 -/

/-- VCMP (06 R183): a disabled element writes 0 to its mask bits. -/
def vecCompare (words : Nat) (p : VPred) (d a : Code) (b : BSrc) (v : VX) (s : State) : Out :=
  withFmt (legalNum d && legalVSrc a && b.legal) v.fmto wideFmtOk s (fun _ fm =>
    reading (s.readVec a noPend) s (fun x q =>
      reading (s.readB b fm.width q) s (fun y q =>
        let w := fm.width
        let mask := s.laneMask v.me v.msk
        let bits := (List.range (elemCount w)).map (fun i =>
          if enabled mask w i && (if fm.isInt then vpredInt p (fm.intVal (elem x w i)) (fm.intVal (elem y w i))
            else vpredFloat p (fm.val (elem x w i)) (fm.val (elem y w i))) then 2 ^ (w / 8) - 1 else 0)
        .next ((s.setM d.toNat (BitVec.ofNat 128 (packElems (w / 8) bits))).retire q words))))

def execVcmp (p : VPred) (d a b : Code) (s : State) : Out := vecCompare 1 p d a (.code b) VX.none s
def execVcmpX (p : VPred) (d a b : Code) (vx : VX) (s : State) : Out := vecCompare 3 p d a (.code b) vx s
def execVcmpLit (p : VPred) (d a : Code) (lit : Word) (vx : VX) (s : State) : Out := vecCompare 5 p d a (.lit lit) vx s

/-- VSEL (06 R184): every element is written. -/
def vecSelect (words : Nat) (d a : Code) (b : BSrc) (v : VX) (s : State) : Out :=
  withFmt (legalVDst d && legalVSrc a && b.legal) v.fmto anyFmtOk s (fun _ fm =>
    reading (s.readVec a noPend) s (fun x q =>
      reading (s.readB b fm.width q) s (fun y q =>
        let w := fm.width
        let z := vecOfElems w ((List.range (elemCount w)).map (fun i =>
          if enabled (s.laneMask v.me v.msk) w i then elem x w i else elem y w i))
        writing (s.writeVec d z) q words s)))

def execVsel (d a b : Code) (vx : VX) (s : State) : Out := vecSelect 3 d a (.code b) vx s
def execVselLit (d a : Code) (lit : Word) (vx : VX) (s : State) : Out := vecSelect 5 d a (.lit lit) vx s

/-- Mask logic (06 R185). -/
def maskOp (ok : Bool) (d : Code) (x : BitVec 128) (s : State) : Out :=
  checked (ok && legalNum d) s (fun _ => .next ((s.setM d.toNat x).retire noPend 1))

def execMand (d a b : Code) (s : State) : Out :=
  maskOp (legalNum a && legalNum b) d (s.getM a.toNat &&& s.getM b.toNat) s
def execMor (d a b : Code) (s : State) : Out :=
  maskOp (legalNum a && legalNum b) d (s.getM a.toNat ||| s.getM b.toNat) s
def execMnot (d a : Code) (s : State) : Out := maskOp (legalNum a) d (~~~(s.getM a.toNat)) s

/-! ## Major 0x23 -/

/-- A reduction (06 R186 to R188): the mask selects the elements that take part; the whole destination is written. -/
def vecReduce (words : Nat) (okF : Nat → Bool) (d a : Code) (v : VX) (s : State) (f : Fmt → Rnd → List (Option Nat) → Nat × Rnd) : Out :=
  withFmt (legalVDst d && legalVSrc a) v.fmto okF s (fun th fm =>
    reading (s.readVec a noPend) s (fun x p =>
      let w := fm.width
      let mask := s.laneMask v.me v.msk
      let xs := (List.range (elemCount w)).map (fun i => if enabled mask w i then some (elem x w i) else none)
      let (z, r) := f fm th.rounding xs
      writingSeed (s.writeVec d (BitVec.ofNat 1024 z)) r p words s))

/-- One level of the fixed tree (06 R186). -/
def treeLevel : List (Option Nat) → Rnd → List (Option Nat) × Rnd
  | x :: y :: t, r =>
    let (z, r1) : Option Nat × Rnd := match x, y with
      | none, b => (b, r)
      | a, none => (a, r)
      | some a, some b =>
        let (e, r') := r.call (.flt fp32) (Ext.add r.mode (fp32.decode a) (fp32.decode b))
        (some e, r')
    let (zs, r2) := treeLevel t r1
    (z :: zs, r2)
  | l, r => (l, r)

/-- The tree to its root; n bounds the levels. -/
def treeSum : Nat → List (Option Nat) → Rnd → Option Nat × Rnd
  | 0, l, r => (l.headD none, r)
  | n + 1, l, r =>
    let (l', r') := treeLevel l r
    treeSum n l' r'

/-- The sum of the enabled integers. -/
def intSum (fm : Fmt) (xs : List (Option Nat)) : Int := xs.foldl (fun acc x => acc + (x.elim 0 fm.intVal)) 0

/-- VRED (06 R186): wrap to 64 bits, or the fixed FP32 tree. -/
def redSum (fm : Fmt) (r : Rnd) (xs : List (Option Nat)) : Nat × Rnd :=
  match fm with
  | .flt g =>
    let (z, r') := treeSum 8 (xs.map (·.map (fun x => fp32.round .rn 0 (g.decode x)))) r
    (z.getD 0, r')
  | _ => (wrapNat 64 (intSum fm xs), r)

/-- VRED.sat (06 R187). -/
def redSat (fm : Fmt) (r : Rnd) (xs : List (Option Nat)) : Nat × Rnd := (wrapNat 64 (fm.clamp (intSum fm xs)), r)

/-- x is strictly before y in the order of 06 R188; a NaN is extreme in both directions. -/
def rankBefore (mx : Bool) (fm : Fmt) (x y : Nat) : Bool :=
  match fm with
  | .flt g =>
    if (g.decode y).isNan then false
    else if (g.decode x).isNan then true
    else if mx then (g.decode y).below (g.decode x) else (g.decode x).below (g.decode y)
  | _ => if mx then decide (fm.intVal y < fm.intVal x) else decide (fm.intVal x < fm.intVal y)

/-- The winning element and its index (06 R188). -/
def rankBest (mx : Bool) (fm : Fmt) (xs : List (Option Nat)) : Option (Nat × Nat) :=
  (xs.zipIdx).foldl (fun best (x, i) => match x, best with
    | none, b => b
    | some v, none => some (v, i)
    | some v, some (bv, bi) => if rankBefore mx fm v bv then some (v, i) else some (bv, bi)) none

/-- A selected value as 64 bits: extended by its format, a NaN as the NaN of 04 R113. -/
def rankValue (fm : Fmt) (x : Nat) : Nat :=
  match fm with
  | .flt g => if (g.decode x).isNan then g.nanEnc else x
  | _ => wrapNat 64 (fm.intVal x)

/-- VRMX and VRMN (06 R188): the value in lane bytes 0 to 7, the index in 8 to 11. -/
def redRank (mx : Bool) (fm : Fmt) (r : Rnd) (xs : List (Option Nat)) : Nat × Rnd :=
  (match rankBest mx fm xs with
    | none => 0xFFFFFFFF * 2 ^ 64
    | some (v, i) => rankValue fm v + i * 2 ^ 64, r)

def execVred (d a : Code) (s : State) : Out := vecReduce 1 anyFmtOk d a VX.none s redSum
def execVredX (d a : Code) (vx : VX) (s : State) : Out := vecReduce 3 anyFmtOk d a vx s redSum
def execVredSat (d a : Code) (s : State) : Out := vecReduce 1 intFmtOk d a VX.none s redSat
def execVredSatX (d a : Code) (vx : VX) (s : State) : Out := vecReduce 3 intFmtOk d a vx s redSat
def execVrmx (d a : Code) (s : State) : Out := vecReduce 1 anyFmtOk d a VX.none s (redRank true)
def execVrmxX (d a : Code) (vx : VX) (s : State) : Out := vecReduce 3 anyFmtOk d a vx s (redRank true)
def execVrmn (d a : Code) (s : State) : Out := vecReduce 1 anyFmtOk d a VX.none s (redRank false)
def execVrmnX (d a : Code) (vx : VX) (s : State) : Out := vecReduce 3 anyFmtOk d a vx s (redRank false)

/-! ## Major 0x24 (06 R189 to R191) -/

/-- VPRM: element i of D is the element of A that element i of B names, modulo n. -/
def vecPermute (words : Nat) (d a : Code) (b : BSrc) (v : VX) (s : State) : Out :=
  withFmt (legalVDst d && legalVSrc a && b.legal) v.fmto wideFmtOk s (fun th fm =>
    reading (s.readVec a noPend) s (fun x p =>
      reading (s.readB b fm.width p) s (fun y p =>
        let w := fm.width
        let (z, _) := maskedLoop (s.laneMask v.me v.msk) w (elemCount w) (s.oldVec d) th.rounding
          (fun i r => (elem x w (elem y w i % elemCount w), r))
        writing (s.writeVec d z) p words s)))

def execVprm (d a b : Code) (s : State) : Out := vecPermute 1 d a (.code b) VX.none s
def execVprmX (d a b : Code) (vx : VX) (s : State) : Out := vecPermute 3 d a (.code b) vx s
def execVprmLit (d a : Code) (lit : Word) (vx : VX) (s : State) : Out := vecPermute 5 d a (.lit lit) vx s

/-- VBRD: a scalar into every enabled element. -/
def vecBroadcast (words : Nat) (d a : Code) (v : VX) (s : State) : Out :=
  withFmt (legalVDst d && legalSrc a) v.fmto anyFmtOk s (fun th fm =>
    reading (s.read a noPend) s (fun x p =>
      let w := fm.width
      let (z, _) := maskedLoop (s.laneMask v.me v.msk) w (elemCount w) (s.oldVec d) th.rounding (fun _ r => (x.toNat % 2 ^ w, r))
      writing (s.writeVec d z) p words s))

def execVbrd (d a : Code) (s : State) : Out := vecBroadcast 1 d a VX.none s
def execVbrdX (d a : Code) (vx : VX) (s : State) : Out := vecBroadcast 3 d a vx s

/-- VIOT: the element's own index. -/
def vecIota (words : Nat) (d : Code) (v : VX) (s : State) : Out :=
  withFmt (legalVDst d) v.fmto anyFmtOk s (fun th fm =>
    let w := fm.width
    let (z, r) := maskedLoop (s.laneMask v.me v.msk) w (elemCount w) (s.oldVec d) th.rounding (fun i r => arith fm r i (Ext.ofInt i))
    writingSeed (s.writeVec d z) r noPend words s)

def execViot (d : Code) (s : State) : Out := vecIota 1 d VX.none s
def execViotX (d : Code) (vx : VX) (s : State) : Out := vecIota 3 d vx s

/-- VPCK (06 R190): conv(A) in the low half, conv(B) in the high half; an integer narrowing saturates. -/
def execVpck (d a b : Code) (vx : VX) (fmtd : BitVec 5) (s : State) : Out :=
  withFmt (legalVDst d && legalVSrc a && legalVSrc b) vx.fmto (fun f => anyFmtOk f && packOk f fmtd.toNat) s (fun th src =>
    reading (s.readVec a noPend) s (fun x p =>
      reading (s.readVec b p) s (fun y p =>
        let dst := (Fmt.ofCode fmtd.toNat).getD src
        let n := 1024 / src.width
        let (z, r) := maskedLoop (s.laneMask vx.me vx.msk) dst.width (2 * n) (s.oldVec d) th.rounding
          (fun i r => convElem src dst true r (if i < n then elem x src.width i else elem y src.width (i - n)))
        writingSeed (s.writeVec d z) r p 3 s)))

/-- VUPK (06 R190): the half of A that bit 0 of b names, widened. -/
def execVupk (d a b : Code) (vx : VX) (fmtd : BitVec 5) (s : State) : Out :=
  withFmt (legalVDst d && legalVSrc a && legalSrc b) vx.fmto (fun f => anyFmtOk f && unpackOk f fmtd.toNat) s (fun th src =>
    reading (s.readVec a noPend) s (fun x p =>
      reading (s.read b p) s (fun hw p =>
        let dst := (Fmt.ofCode fmtd.toNat).getD src
        let n := 1024 / dst.width
        let h := hw.toNat % 2
        let (z, r) := maskedLoop (s.laneMask vx.me vx.msk) dst.width n (s.oldVec d) th.rounding
          (fun i r => convElem src dst false r (elem x src.width (h * n + i)))
        writingSeed (s.writeVec d z) r p 3 s)))

/-- VMV: the whole register, mask bit j governing lane byte j. -/
def vecMove (words : Nat) (d a : Code) (v : VX) (s : State) : Out :=
  checked (legalVDst d && legalVSrc a) s (fun _ =>
    reading (s.readVec a noPend) s (fun x p =>
      writing (s.writeVec d (vecBits.mergeLanes (s.laneMask v.me v.msk) (s.oldVec d) x)) p words s))

def execVmv (d a : Code) (s : State) : Out := vecMove 1 d a VX.none s
def execVmvX (d a : Code) (vx : VX) (s : State) : Out := vecMove 3 d a vx s

/-- VINS: one element replaced, none when the index is n or more. -/
def vecInsert (words : Nat) (d a b : Code) (fmto : BitVec 5) (s : State) : Out :=
  withFmt (legalVBoth d && legalSrc a && legalSrc b) fmto anyFmtOk s (fun _ fm =>
    reading (s.read a noPend) s (fun x p =>
      reading (s.read b p) s (fun k p =>
        reading (s.readVec d p) s (fun old p =>
          let w := fm.width
          let z := vecOfElems w ((List.range (elemCount w)).map (fun i => if i = k.toNat then x.toNat else elem old w i))
          writing (s.writeVec d z) p words s))))

def execVins (d a b : Code) (s : State) : Out := vecInsert 1 d a b 0 s
def execVinsX (d a b : Code) (fmto : BitVec 5) (s : State) : Out := vecInsert 3 d a b fmto s

/-- VEXT: one element, extended by its format; 0 when the index is n or more. -/
def vecExtract (words : Nat) (d a b : Code) (fmto : BitVec 5) (s : State) : Out :=
  withFmt (legalDst d && legalVSrc a && legalSrc b) fmto anyFmtOk s (fun _ fm =>
    reading (s.readVec a noPend) s (fun x p =>
      reading (s.read b p) s (fun k p =>
        let w := fm.width
        let z : Word :=
          if k.toNat ≥ elemCount w then 0
          else match fm with
            | .int _ => BitVec.ofInt 64 (fm.intVal (elem x w k.toNat))
            | _ => BitVec.ofNat 64 (elem x w k.toNat)
        writing (s.write d z) p words s)))

def execVext (d a b : Code) (s : State) : Out := vecExtract 1 d a b 0 s
def execVextX (d a b : Code) (fmto : BitVec 5) (s : State) : Out := vecExtract 3 d a b fmto s

end Sys2Proof.Machine
end

