-- ==== Sys2Proof/Machine/Global.lean ====
section
/-!
DEFINITION. Global loads, stores, prefetch, flush and atomics (11_isa_memory_sync.md R264 to R270): majors 0x13 to 0x15.
-/
namespace Sys2Proof.Machine

/-- a + index + offset on 64 bits (11 R264), then the access. -/
def withVa (ok : Bool) (x : Bool) (a b : Code) (off : BitVec 12) (s : State) (k : Word → Pend → Out) : Out :=
  checked (ok && legalSrc a && legalIdx x b) s (fun _ =>
    reading (s.read a noPend) s (fun base p =>
      reading (if x then s.readIdx b p else s.read b p) s (fun idx p => k (base + idx + off64 off) p)))

/-! ## The shared forms -/

def ldgForm (x : Bool) (words : Nat) (w : LoadWidth) (d a b : Code) (off : BitVec 12) (ox : OX) (s : State) : Out :=
  withVa (legalDst d) x a b off s (fun va p => globalLoad (.load w) w.bytes w.bytes (scalarDest d) ox va p words s)

def stgForm (x : Bool) (words : Nat) (w : StoreWidth) (d a b : Code) (off : BitVec 12) (ox : OX) (s : State) : Out :=
  withVa (legalSrc d) x a b off s (fun va p => withData d s p (fun v p =>
    globalStore (storeData w.bytes v) w.bytes none ox va p words s))

def vldgForm (x : Bool) (words : Nat) (d a b : Code) (off : BitVec 12) (ox : OX) (me : Bool) (msk : BitVec 3) (s : State) : Out :=
  withVa (legalVld d) x a b off s (fun va p => globalLoad (.vload (s.laneMask me msk)) 128 8 (vecDest d) ox va p words s)

def vstgForm (x : Bool) (words : Nat) (d a b : Code) (off : BitVec 12) (ox : OX) (me : Bool) (msk : BitVec 3) (s : State) : Out :=
  withVa (legalVst d) x a b off s (fun va p =>
    if isSq d then fromSq d 16 s (fun j xs =>
      globalStore (vstoreData (s.laneMask me msk) (wordsVec xs)) 8 (some (j, 16)) ox va p words s)
    else reading (s.readVec d p) s (fun v p => globalStore (vstoreData (s.laneMask me msk) v) 8 none ox va p words s))

/-- What PREF asks of the core's L1, unless an engine has registered the line, and what FLSH does to it (10 R240, R257, 11 R269). -/
def State.hintLine (s : State) (n : Node) (va : Word) (flush : Bool) (l : Loc) : State :=
  if flush then s.l1Flush s.curCore (l.key / 128)
  else if s.held l then s
  else s.coreTouch s.curCore n.vd (s.clsOf n.vd n.ctx va) false [l]

/-- PREF and FLSH move the line into the core's L1 and out of it, which no value shows; a failing address makes them no-operations
(11 R269). -/
def hintForm (flush x : Bool) (words : Nat) (a b : Code) (off : BitVec 12) (s : State) : Out :=
  withVa true x a b off s (fun va p =>
    withThread s (fun th =>
      match s.globalCheck th va 1 1 ⟨true, false, false⟩ with
      | .error _ => .next (s.retire p words)
      | .ok ls => .next ((ls.foldl (fun st l => st.hintLine (s.node th.node) va flush l) (s.fillFor th va 1)).retire p words)))

/-! ## Atomics -/

/-- A scratchpad window address (11 R266). -/
def isWindow (va : Word) : Bool := va.extractLsb' 32 32 == 0xFFFFFFFF

/-- The destination codes of an atomic (11 R270). -/
def legalAtomicDst (op : AtomicOp) (d : Code) : Bool := if op = .cas then legalBoth d else legalDst d

/-- The value of d for AMCAS; the other atomics read no third operand. -/
def State.readCas (s : State) (op : AtomicOp) (d : Code) (p : Pend) : Except Why (Word × Pend) :=
  if op = .cas then s.read d p else .ok (0, p)

/-- The classes of a window atomic: SL and SS when local, RS when remote (11 R266), with those of its qualifier. -/
def windowClasses (loc : Bool) (o : Ord) : List OrdClass :=
  (if loc then [.sl, .ss] else [.rs]) ++ (match o with
    | .plain => []
    | _ => gaClasses o)

/-- An atomic (11 R270): a, then b, then d of AMCAS are read; the action follows at its performed point. TADDR of a window address's address fault or
misaligned access is the scratchpad address, its low 32 bits, and of its data error the address as formed: the spec does not say which form
TADDR has (DESIGN CHOICE, log 88). -/
def atomicForm (words n : Nat) (op : AtomicOp) (d a b : Code) (off : BitVec 12) (ox : OX) (s : State) : Out :=
  checked (legalAtomicDst op d && legalSrc a && legalSrc b) s (fun th =>
    reading (s.read a noPend) s (fun base p =>
      reading (s.read b p) s (fun v p =>
        reading (s.readCas op d p) s (fun e p =>
          let va := base + off64 off
          let act : AccessAct := .atomic op (v.toNat % 2 ^ (8 * n)) (e.toNat % 2 ^ (8 * n))
          if isWindow va then
            (match s.spadCheck th (va.setWidth 32) n n with
            | .error (k, x) => trap k 0 x s
            | .ok (c, o) =>
              issueAccess .cr (windowClasses (c == s.curCore) ox.ord) ox.scope (some c) va (spadLocs c o n) act (scalarDest d) false p words
                .remoteAccessPerformed s)
          else
            match s.globalCheck th va n n ⟨true, true, false⟩ with
            | .error (k, x) => trap k 0 x s
            | .ok locs =>
              if th.full .cr || !th.canTake (th.dest (scalarDest d)) 1 then block .retry s
              else issueAccess .cr (gaClasses ox.ord) ox.scope none va locs act (scalarDest d) false p words .globalAccessComplete
                (s.fillFor th va n)))))

/-! ## The instructions -/

def execLdg (w : LoadWidth) (d a b : Code) (s : State) : Out := ldgForm false 1 w d a b 0 OX.plain s
def execLdgX (w : LoadWidth) (d a b : Code) (off : BitVec 12) (ox : OX) (s : State) : Out := ldgForm true 3 w d a b off ox s
def execLdgImm (d a : Code) (imm : BitVec 12) (s : State) : Out := ldgForm false 1 .w64 d a 42 imm OX.plain s
def execStg (w : StoreWidth) (d a b : Code) (s : State) : Out := stgForm false 1 w d a b 0 OX.plain s
def execStgX (w : StoreWidth) (d a b : Code) (off : BitVec 12) (ox : OX) (s : State) : Out := stgForm true 3 w d a b off ox s
def execStgImm (d a : Code) (imm : BitVec 12) (s : State) : Out := stgForm false 1 .w64 d a 42 imm OX.plain s
def execVldg (d a b : Code) (s : State) : Out := vldgForm false 1 d a b 0 OX.plain false 0 s
def execVldgX (d a b : Code) (off : BitVec 12) (ox : OX) (me : Bool) (msk : BitVec 3) (s : State) : Out :=
  vldgForm true 3 d a b off ox me msk s
def execVstg (d a b : Code) (s : State) : Out := vstgForm false 1 d a b 0 OX.plain false 0 s
def execVstgX (d a b : Code) (off : BitVec 12) (ox : OX) (me : Bool) (msk : BitVec 3) (s : State) : Out :=
  vstgForm true 3 d a b off ox me msk s
def execPref (a b : Code) (s : State) : Out := hintForm false false 1 a b 0 s
def execPrefX (a b : Code) (off : BitVec 12) (s : State) : Out := hintForm false true 3 a b off s
def execFlsh (a b : Code) (s : State) : Out := hintForm true false 1 a b 0 s
def execFlshX (a b : Code) (off : BitVec 12) (s : State) : Out := hintForm true true 3 a b off s

def execAmadd (d a b : Code) (s : State) : Out := atomicForm 1 8 .add d a b 0 OX.plain s
def execAmaddX (d a b : Code) (off : BitVec 12) (ox : OX) (s : State) : Out := atomicForm 3 8 .add d a b off ox s
def execAmswp (d a b : Code) (s : State) : Out := atomicForm 1 8 .swp d a b 0 OX.plain s
def execAmswpX (d a b : Code) (off : BitVec 12) (ox : OX) (s : State) : Out := atomicForm 3 8 .swp d a b off ox s
def execAmcas (d a b : Code) (s : State) : Out := atomicForm 1 8 .cas d a b 0 OX.plain s
def execAmcasX (d a b : Code) (off : BitVec 12) (ox : OX) (s : State) : Out := atomicForm 3 8 .cas d a b off ox s
def execAmmin (d a b : Code) (s : State) : Out := atomicForm 1 8 .min d a b 0 OX.plain s
def execAmminX (d a b : Code) (off : BitVec 12) (ox : OX) (s : State) : Out := atomicForm 3 8 .min d a b off ox s
def execAmmax (d a b : Code) (s : State) : Out := atomicForm 1 8 .max d a b 0 OX.plain s
def execAmmaxX (d a b : Code) (off : BitVec 12) (ox : OX) (s : State) : Out := atomicForm 3 8 .max d a b off ox s
def execAmminu (d a b : Code) (s : State) : Out := atomicForm 1 8 .minu d a b 0 OX.plain s
def execAmminuX (d a b : Code) (off : BitVec 12) (ox : OX) (s : State) : Out := atomicForm 3 8 .minu d a b off ox s
def execAmmaxu (d a b : Code) (s : State) : Out := atomicForm 1 8 .maxu d a b 0 OX.plain s
def execAmmaxuX (d a b : Code) (off : BitVec 12) (ox : OX) (s : State) : Out := atomicForm 3 8 .maxu d a b off ox s
def execAmand (d a b : Code) (s : State) : Out := atomicForm 1 8 .and d a b 0 OX.plain s
def execAmandX (d a b : Code) (off : BitVec 12) (ox : OX) (s : State) : Out := atomicForm 3 8 .and d a b off ox s
def execAmor (d a b : Code) (s : State) : Out := atomicForm 1 8 .or d a b 0 OX.plain s
def execAmorX (d a b : Code) (off : BitVec 12) (ox : OX) (s : State) : Out := atomicForm 3 8 .or d a b off ox s
def execAmxor (d a b : Code) (s : State) : Out := atomicForm 1 8 .xor d a b 0 OX.plain s
def execAmxorX (d a b : Code) (off : BitVec 12) (ox : OX) (s : State) : Out := atomicForm 3 8 .xor d a b off ox s
def execAmadd32 (d a b : Code) (s : State) : Out := atomicForm 1 4 .add d a b 0 OX.plain s
def execAmadd32X (d a b : Code) (off : BitVec 12) (ox : OX) (s : State) : Out := atomicForm 3 4 .add d a b off ox s
def execAmswp32 (d a b : Code) (s : State) : Out := atomicForm 1 4 .swp d a b 0 OX.plain s
def execAmswp32X (d a b : Code) (off : BitVec 12) (ox : OX) (s : State) : Out := atomicForm 3 4 .swp d a b off ox s
def execAmcas32 (d a b : Code) (s : State) : Out := atomicForm 1 4 .cas d a b 0 OX.plain s
def execAmcas32X (d a b : Code) (off : BitVec 12) (ox : OX) (s : State) : Out := atomicForm 3 4 .cas d a b off ox s
def execAmmin32 (d a b : Code) (s : State) : Out := atomicForm 1 4 .min d a b 0 OX.plain s
def execAmmin32X (d a b : Code) (off : BitVec 12) (ox : OX) (s : State) : Out := atomicForm 3 4 .min d a b off ox s
def execAmmax32 (d a b : Code) (s : State) : Out := atomicForm 1 4 .max d a b 0 OX.plain s
def execAmmax32X (d a b : Code) (off : BitVec 12) (ox : OX) (s : State) : Out := atomicForm 3 4 .max d a b off ox s
def execAmminu32 (d a b : Code) (s : State) : Out := atomicForm 1 4 .minu d a b 0 OX.plain s
def execAmminu32X (d a b : Code) (off : BitVec 12) (ox : OX) (s : State) : Out := atomicForm 3 4 .minu d a b off ox s
def execAmmaxu32 (d a b : Code) (s : State) : Out := atomicForm 1 4 .maxu d a b 0 OX.plain s
def execAmmaxu32X (d a b : Code) (off : BitVec 12) (ox : OX) (s : State) : Out := atomicForm 3 4 .maxu d a b off ox s
def execAmand32 (d a b : Code) (s : State) : Out := atomicForm 1 4 .and d a b 0 OX.plain s
def execAmand32X (d a b : Code) (off : BitVec 12) (ox : OX) (s : State) : Out := atomicForm 3 4 .and d a b off ox s
def execAmor32 (d a b : Code) (s : State) : Out := atomicForm 1 4 .or d a b 0 OX.plain s
def execAmor32X (d a b : Code) (off : BitVec 12) (ox : OX) (s : State) : Out := atomicForm 3 4 .or d a b off ox s
def execAmxor32 (d a b : Code) (s : State) : Out := atomicForm 1 4 .xor d a b 0 OX.plain s
def execAmxor32X (d a b : Code) (off : BitVec 12) (ox : OX) (s : State) : Out := atomicForm 3 4 .xor d a b off ox s

/-! ## Steps of accesses in flight -/

/-- The L1 of an access's core obtains the lines that it touches, in M for a write (10 R240, R241). -/
def State.touchFor (s : State) (o : Op) (a : Access) : State :=
  let n := s.node o.node
  s.coreTouch o.core n.vd (s.clsOf n.vd n.ctx a.addr) (s.writesNow a) (touched a.locs a.act)

/-- The held loads of all members of a gang at one instruction, once each is performed: operation, record and access, the leader's first
(02 R52). -/
def State.gangLoads (s : State) (c t : Nat) : Option (List (Nat × Op × Access)) :=
  let ms := s.gangMembers c t
  let xs := ms.filterMap (fun (a, b) => match (s.thread a b).map Thread.run with
    | some (.blocked (.op id)) => match tabGet s.ops id with
      | some o => match o.kind with
        | .access x => if x.performed && o.core == a && o.slot == b then some (id, o, x) else none
        | _ => none
      | none => none
    | _ => none)
  if xs.length = ms.length then some xs else none

/-- A synchronous trap in one member of a gang stops the others at the same instruction (02 R52, 17 R359). -/
def State.gangStop (s : State) (c t : Nat) (ms : List (Nat × Nat)) : State :=
  (ms.filter (· != (c, t))).foldl (fun st (a, b) => st.modThread a b (fun th => { th with stopped := true, run := .ready })) s

/-- The loads that hold a gang's instruction end together: all retire, or the first member whose load met an uncorrectable error takes the
data-error trap and no member has any effect (02 R52, 17 R359). -/
def State.settleGang (s : State) (c t : Nat) (xs : List (Nat × Op × Access)) : State :=
  match xs.find? (fun (_, _, a) => a.err.isSome) with
  | none => xs.foldl (fun st (id, o, a) => (st.settle id o a a.value none).finish id o) s
  | some (id, o, a) =>
    let logged := xs.foldl (fun st (_, o, a) => match a.err with
      | some i => if o.core = c ∧ o.slot = t then st else st.logLoad o a i
      | none => st) s
    let u := (xs.filter (fun x => x.1 != id)).foldl (fun st (j, p, _) => st.finish j p) logged
    ((u.settle id o a a.value a.err).finish id o).gangStop o.core o.slot (s.gangMembers c t)

/-- A held load of a gang's member is performed; the gang goes on when the loads of all are (02 R52). -/
def State.gangHold (s : State) (id : Nat) (o : Op) (a : Access) (bytes : List Byte) (bad : Option Nat) : State :=
  let t : State := { s with ops := tabSet s.ops id { o with kind := .access { a with performed := true, value := bytes, err := bad } } }
  match t.gangLoads o.core o.slot with
  | none => t
  | some xs => t.settleGang o.core o.slot xs

/-- The access holds an instruction of a gang, whose members go on together (02 R52). -/
def State.gangHeldOp (s : State) (o : Op) (a : Access) : Bool :=
  decide (a.words ≠ 0) && o.cls == .ld && decide ((s.gangMembers o.core o.slot).length > 1) && !((s.thread o.core o.slot).map (·.handler)).getD true

/-- A global access is performed, when the ordering rules and the engines let it, and completes (10 R241, 11 R265, R267, R270);
otherwise it is tried again. -/
def execGlobalAccessComplete (op : Nat) (s : State) : Out :=
  match tabGet s.ops op with
  | none => .next s
  | some o =>
    match o.kind with
    | .access a =>
      if a.home.isSome || a.performed then .next s
      else unlessAway o (.globalAccessComplete op) s
        (if !s.mayPerform op o a then .next (s.due (s.clk + 1) (.globalAccessComplete op))
        else
          let (bytes, bad, t) := (s.touchFor o a).performAt a
          if s.gangHeldOp o a then .next (t.gangHold op o a bytes bad)
          else .next ((t.settle op o a bytes bad).finish op o))
    | _ => .next s

/-- An access that no reply follows: a store, and an atomic that discards its value (05 R161, 11 R270). -/
def Access.endsAtHome (a : Access) : Bool :=
  match a.act with
  | .store _ => true
  | .atomic _ _ _ => a.dest == .none
  | _ => false

/-- A remote access, or a window atomic, performed at the places where its bytes stand; what it writes in an image stands for the core's
(10 R241, 17 R376). -/
def State.performHome (s : State) (node : Nat) (wr : Bool) (a : Access) (hs : List Loc) : List Byte × Option Nat × State :=
  let (bytes, bad, t) := s.performAt { a with locs := hs }
  let ls := touched a.locs a.act
  let u := t.homeTouch node 0 wr ls (touched hs a.act)
  (bytes, bad, if wr then (u.noteLines node ls).imageLate node ls else u)

/-- A remote access, or a window atomic, is performed at its home core, or in the image of a saved one; a store is complete there, as is an atomic
with d = 42 (05 R161, 11 R266, R270, 17 R376). -/
def execRemoteAccessPerformed (op : Nat) (s : State) : Out :=
  match tabGet s.ops op with
  | none => .next s
  | some o =>
    match o.kind with
    | .access a =>
      if a.home.isNone || a.performed then .next s
      else
        match s.homeLocs o.node a.locs with
        | none => .next (s.due (s.clk + 1) (.remoteAccessPerformed op))
        | some hs =>
          let h := { a with locs := hs }
          let wr := s.writesNow h
          if !s.mayPerform op o h || s.nodeHolds o.node wr (touched a.locs a.act) then .next (s.due (s.clk + 1) (.remoteAccessPerformed op))
          else
            let (bytes, bad, t) := (s.noteHome o.node a.msgs (touched a.locs a.act)).performHome o.node wr a hs
            if a.endsAtHome then .next ((t.settle op o a bytes bad).finish op o)
            else
              .next (({ t with ops := tabSet t.ops op { o with kind := .access { a with performed := true, value := bytes, err := bad } } }
                : State).dueWithin (transit a.home) (.remoteReply op))
    | _ => .next s

/-- The reply of a remote load or window atomic reaches its thread, in its image where its core is saved (05 R161, 17 R376). -/
def execRemoteReply (op : Nat) (s : State) : Out :=
  match tabGet s.ops op with
  | none => .next s
  | some o =>
    match o.kind with
    | .access a =>
      if !(a.home.isSome && a.performed) then .next s
      else if s.destAway o a.dest then .next (s.due (s.clk + 1) (.remoteReply op))
      else .next ((s.settle op o a a.value a.err).finish op o)
    | _ => .next s

end Sys2Proof.Machine
end

