-- ==== Sys2Proof/Machine/Sync.lean ====
section
/-!
DEFINITION. FENCE, PARK, WAIT, copies and exchanges (11_isa_memory_sync.md R271 to R280; 10 R245, R255 to R258): major 0x16.
-/
namespace Sys2Proof.Machine

/-! ## FENCE (11 R271, 10 R255, 03 R97) -/

/-- The bit of FENCE's class set that names an operation in flight. -/
def Op.fenceBit (o : Op) : Nat :=
  match o.kind with
  | .access a =>
    match a.home with
    | none => 1
    | some c => if c = o.core then 0 else 4
  | .copy _ => 2
  | .coll _ => 4
  | .fab _ => 5

/-- The operation stalls a FENCE that names its class: an access until it is performed, any other until it is complete. -/
def Op.stalls (o : Op) : Bool :=
  match o.kind with
  | .access a => !a.performed
  | _ => true

/-- An operation of a named class is outstanding; a set of 0 names all six. -/
def State.fenceStalls (s : State) (th : Thread) (set : BitVec 6) : Bool :=
  let b := if set = 0 then BitVec.allOnes 6 else set
  (s.opsOf s.curCore s.curSlot).any (fun (_, o) => b.getLsbD o.fenceBit && o.stalls) || (b.getLsbD 3 && th.cnt.pr != 0)

/-- FENCE. Every write is seen by all observers at one point (10 R242), so its scope changes no outcome of the model. -/
def execFence (_scope : Scope) (set : BitVec 6) (s : State) : Out :=
  withThread s (fun th => if s.fenceStalls th set then block .retry s else .next (s.retire noPend 1))

/-! ## PARK (11 R272, R273) -/

/-- The places of PARK's word, or the trap of a load; TADDR of a window address as for an atomic (DESIGN CHOICE, log 88). -/
def State.parkPlace (s : State) (th : Thread) (va : Word) : Except (Trap × Word) (List Loc) :=
  if isWindow va then
    match s.spadDecode th (va.setWidth 32) 8 with
    | .error a => .error (.addressFault, a)
    | .ok (c, off) =>
      if c ≠ s.curCore then .error (.addressFault, (va.setWidth 32).setWidth 64)
      else if off % 8 ≠ 0 then .error (.misaligned, (va.setWidth 32).setWidth 64)
      else .ok (spadLocs c off 8)
  else s.globalCheck th va 8 8 ⟨true, false, false⟩

/-- The view of PARK's read: an acquire at quire scope. -/
def parkView (ls : List Loc) : OrdView := ⟨[.aq], .quire, true, false, ls, none⟩

def execPark (a b : Code) (s : State) : Out :=
  checked (legalSrc a && legalSrc b) s (fun th =>
    reading (s.read a noPend) s (fun va p =>
      reading (s.read b p) s (fun x p =>
        match s.parkPlace th va with
        | .error (k, addr) => trap k 0 addr s
        | .ok ls =>
          if s.readWaits ls || s.mustWait s.curCore s.curSlot (parkView ls) then block .retry s
          else if ls.any s.poisoned then trap .dataError 0 va s
          else
            let nd := s.node th.node
            let t := if isWindow va then s else (s.fillFor th va 8).coreTouch s.curCore nd.vd (s.clsOf nd.vd nd.ctx va) false ls
            match ls with
            | [] => block .retry s
            | l :: _ =>
              if BitVec.ofNat 64 (leNat (ls.map s.readLoc)) ≠ x then .next (t.retire p 1)
              else .next (t.modCur (fun th => { th with run := .parked l.glob (l.key / 128), pend := p })))))

/-- A woken PARK retires without reading the word again (11 R272). -/
def execParkWake (core slot : Nat) (s : State) : Out :=
  match s.thread core slot with
  | none => .next s
  | some th =>
    match th.run with
    | .parked _ _ => .next (s.setThread core slot (th.retire th.pend 1))
    | _ => .next s

/-! ## WAIT (11 R274, 10 R245) -/

/-- WAIT sets its thread Waiting; its arrival counts once every earlier access is performed and its five counters are zero. -/
def execWait (s : State) : Out :=
  withThread s (fun th => .next ((s.modCur (fun th => { th with run := .waiting })).arrivalTry s.curCore th.node))

/-! ## CPY (11 R275 to R277) -/

/-- A copy descriptor's fields (11 R275). -/
structure CopyDescr where
  ctrl : Nat
  src  : Nat
  dst  : Nat
  res  : Nat
  /-- COUNT word, SSTR and DSTR of each dimension -/
  dims : List (Nat × Nat × Nat)
  deriving DecidableEq, Repr

def word8 (bytes : List Byte) (i : Nat) : Nat := leNat ((bytes.drop i).take 8)

def CopyDescr.ofBytes (b : List Byte) : CopyDescr :=
  ⟨word8 b 0, word8 b 8, word8 b 16, word8 b 24,
    (List.range ((b.length - 32) / 24)).map (fun j => (word8 b (32 + 24 * j), word8 b (40 + 24 * j), word8 b (48 + 24 * j)))⟩

def CopyDescr.ndim (d : CopyDescr) : Nat := d.ctrl % 16
def CopyDescr.sg (d : CopyDescr) : Bool := d.ctrl / 256 % 2 == 1
def CopyDescr.dg (d : CopyDescr) : Bool := d.ctrl / 512 % 2 == 1

/-- Check 3 of 11 R277: NDIM, reserved fields, strides of dimension 0, counts. -/
def CopyDescr.formed (d : CopyDescr) : Bool :=
  decide (1 ≤ d.ndim ∧ d.ndim ≤ 12 ∧ d.ctrl / 1024 = 0 ∧ d.ctrl / 16 % 16 = 0 ∧ d.res = 0)
    && (d.sg || decide (d.src < 2 ^ 32)) && (d.dg || decide (d.dst < 2 ^ 32))
    && (match d.dims with
      | [] => false
      | (_, x, y) :: _ => x == 0 && y == 0)
    && d.dims.all (fun (n, _, _) => decide (1 ≤ n ∧ n < 2 ^ 32))

/-- Total size in bytes. -/
def CopyDescr.size (d : CopyDescr) : Nat := d.dims.foldl (fun acc (n, _, _) => acc * n) 1

def signed64 (x : Nat) : Int := (BitVec.ofNat 64 x).toInt

/-- Offsets of the runs in run order: the first dimension given varies fastest (11 R276). -/
def runOffsets : List (Nat × Nat × Nat) → List (Int × Int)
  | [] => [(0, 0)]
  | (n, x, y) :: rest =>
    (runOffsets rest).flatMap (fun (u, v) => (List.range n).map (fun (i : Nat) => (u + (i : Int) * signed64 x, v + (i : Int) * signed64 y)))

/-- One side of a run, byte i: its address as the copy forms it, and where it lies: a virtual address or a scratchpad key; none when
the byte is not legal (11 R276, 02 R59). -/
def copyByte (glob : Bool) (base : Nat) (home : Option Nat) (delta : Int) (i : Nat) : Word × Option Nat :=
  if glob then
    let va : Word := BitVec.ofInt 64 (base + delta + i)
    (va, if canonical va then some va.toNat else none)
  else
    let sum : Int := base + delta + i
    let off : Int := (base % 2 ^ 18 : Nat) + delta + i
    ((BitVec.ofInt 32 sum).setWidth 64, match home with
      | none => none
      | some c => if 0 ≤ off ∧ off < 2 ^ 18 then some (spadKey c off.toNat) else none)

/-- The home core of a scratchpad base: any core of the quire, or the own core where there is one (11 R276). -/
def copyHome (v : Vd) (own : Option Nat) (ea : BitVec 32) : Option Nat :=
  let kind := (ea.extractLsb' 30 2).toNat
  let h := (ea.extractLsb' 18 12).toNat
  if kind = 0 then (if h < v.qlen then some (v.qbase + h) else none) else if kind = 1 ∧ h = 0 then own else none

/-- The first byte of the runs that a check refuses: of `glob` sides only, or of scratchpad sides only (11 R277, checks 5, 6). -/
def CopyDescr.firstBad (d : CopyDescr) (hs hd : Option Nat) (glob : Bool) : Option Word :=
  let len := match d.dims with
    | [] => 0
    | (n, _, _) :: _ => n
  let bad (g : Bool) (base : Nat) (home : Option Nat) (delta : Int) : Option Word :=
    if g != glob then none
    else (List.range len).findSome? (fun i => match copyByte g base home delta i with
      | (a, none) => some a
      | _ => none)
  (runOffsets d.dims.tail).findSome? (fun (x, y) =>
    match bad d.sg d.src hs x with
    | some a => some a
    | none => bad d.dg d.dst hd y)

/-- The runs of a copy that passed its checks. -/
def CopyDescr.runs (d : CopyDescr) (hs hd : Option Nat) : List CopyRun :=
  let len := match d.dims with
    | [] => 0
    | (n, _, _) :: _ => n
  (runOffsets d.dims.tail).map (fun (x, y) =>
    ⟨d.sg, (copyByte d.sg d.src hs x 0).2.getD 0, d.dg, (copyByte d.dg d.dst hd y 0).2.getD 0, len, (copyByte d.sg d.src hs x 0).1⟩)

/-- Checks 3 to 6 of 11 R277 and the runs, or the trap. -/
def CopyDescr.checked (d : CopyDescr) (v : Vd) (own : Option Nat) : Except (Trap × Nat × Word) (List CopyRun) :=
  if !d.formed then .error (.copy, 1, 0)
  else if d.size > 2 ^ 34 then .error (.copy, 2, 0)
  else
    let hs := copyHome v own (BitVec.ofNat 32 d.src)
    let hd := copyHome v own (BitVec.ofNat 32 d.dst)
    match d.firstBad hs hd false with
    | some a => .error (.addressFault, 0, a)
    | none =>
      match d.firstBad hs hd true with
      | some a => .error (.addressFault, 0, a)
      | none => .ok (d.runs hs hd)

/-- Copies in flight that a core's couch engine holds. -/
def State.couchLoad (s : State) (core : Nat) : Nat :=
  (s.ops.filter (fun (_, o) => o.core == core && o.cls == .cp && !s.away o)).length

/-- A copy issues (10 R244, 02 R63): CP rises, and the couch engine registers it later. `err`: what its issue met already. -/
def issueCopy (exch : Bool) (tag : Nat) (descr : List Byte) (runs : List CopyRun) (err : Option Word) (p : Pend) (s : State) : Out :=
  withThread s (fun th =>
    if th.full .cp || s.couchLoad s.curCore ≥ 120 || !s.allSettled s.curCore s.curSlot then block .retry s
    else
      let id := s.nextOp
      let o : Op := ⟨s.curCore, s.curSlot, th.node, .cp, tag, [.en], .thread, .copy ⟨exch, runs, false, [], [], [], [], err, descr⟩⟩
      .next (((s.issue o).dueWithin 1024 (.copyRegistration id)).retire p 1))

/-- CPY (11 R277): checks 1 and 2 are those of the descriptor's address. -/
def execCpy (a b : Code) (s : State) : Out :=
  checked (legalSrc a && legalSrc b) s (fun th =>
    reading (s.read a noPend) s (fun x p =>
      reading (s.read b p) s (fun tag p =>
        let ea : BitVec 32 := x.setWidth 32
        match s.spadDecode th ea 8 with
        | .error e => trap .addressFault 0 e s
        | .ok (c, off) =>
          if c ≠ s.curCore then trap .addressFault 0 (ea.setWidth 64) s
          else
            match s.localRead c off 8 with
            | .wait => block .retry s
            | .poison i => trap .dataError 0 ((ea + BitVec.ofNat 32 i).setWidth 64) s
            | .ok ctrl =>
              let n := 32 + 24 * (leNat ctrl % 16)
              if off + n > Config.spadBytes then
                trap .addressFault 0 ((ea + BitVec.ofNat 32 (Config.spadBytes - off)).setWidth 64) s
              else if off % 8 ≠ 0 then trap .misaligned 0 (ea.setWidth 64) s
              else
                match s.localRead c off n with
                | .wait => block .retry s
                | .poison i => trap .dataError 0 ((ea + BitVec.ofNat 32 i).setWidth 64) s
                | .ok bytes =>
                  match (CopyDescr.ofBytes bytes).checked (s.vdOf th) (some s.curCore) with
                  | .error (k, code, e) => trap k code e s
                  | .ok runs => issueCopy false (tag.toNat % 65536) bytes runs none p s)))

/-! ## EXCH (11 R279, R280) -/

/-- A record of the plan store: LEN, LAST, SOFF, DH, DOFF, and whether its reserved fields are zero. -/
structure PlanRec where
  len  : Nat
  last : Bool
  soff : Nat
  dh   : Nat
  doff : Nat
  ok   : Bool
  deriving DecidableEq, Repr

/-- Record i; bytes beyond the last record read as zero. -/
def planRec (plan : List Byte) (i : Nat) : PlanRec :=
  let x : BitVec 128 := BitVec.ofNat 128 (leNat ((plan.drop (16 * i)).take 16))
  ⟨(x.extractLsb' 0 19).toNat, x[31], (x.extractLsb' 32 18).toNat, (x.extractLsb' 64 12).toNat, (x.extractLsb' 96 18).toNat,
    x.extractLsb' 19 12 == 0 && x.extractLsb' 50 14 == 0 && x.extractLsb' 76 20 == 0 && x.extractLsb' 114 14 == 0⟩

/-- The records from an index up to the first LAST; none when the segment runs past record 255. -/
def planSegment (plan : List Byte) (i : Nat) : Nat → Option (List PlanRec)
  | 0 => none
  | n + 1 =>
    let r := planRec plan i
    if r.last then some [r] else (planSegment plan (i + 1) n).map (r :: ·)

/-- A record that 11 R280 allows: DH in the node's range, LEN and both ranges within a scratchpad. -/
def PlanRec.legal (r : PlanRec) (n : Node) (v : Vd) : Bool :=
  r.ok && decide (1 ≤ r.len ∧ r.dh < v.qlen ∧ n.hLo ≤ r.dh ∧ r.dh ≤ n.hHi ∧ r.soff + r.len ≤ Config.spadBytes
    ∧ r.doff + r.len ≤ Config.spadBytes)

/-- Some of n records of a core's plan store from record i lie in poisoned words (17 R383). -/
def State.planBad (s : State) (core i n : Nat) : Bool :=
  s.poisonP.any (fun u => u / 512 == core && decide (2 * i ≤ u % 512 ∧ u % 512 < 2 * (i + n)))

/-- The run of a record: its source is named as a byte of the own core (02 R59; DEDUCED, log 66). -/
def PlanRec.run (r : PlanRec) (core base : Nat) : CopyRun :=
  ⟨false, spadKey core r.soff, false, spadKey (base + r.dh) r.doff, r.len, BitVec.ofNat 64 (0x40000000 + r.soff)⟩

/-- EXCH. A record in a poisoned word of the plan store makes it a copy that registers nothing and reports a data error (DEDUCED, log 66). -/
def execExch (a : Code) (s : State) : Out :=
  checked (legalSrc a) s (fun th =>
    reading (s.read a noPend) s (fun x p =>
      if x.toNat > 255 then trap .copy 3 0 s
      else
        match planSegment (s.core s.curCore).plan x.toNat (256 - x.toNat) with
        | none => trap .copy 3 0 s
        | some rs =>
          let v := s.vdOf th
          if s.planBad s.curCore x.toNat rs.length then issueCopy true th.tag [] [] (some 0) p s
          else if !rs.all (·.legal (s.node th.node) v) then trap .copy 3 0 s
          else issueCopy true th.tag [] (rs.map (·.run s.curCore v.qbase)) none p s))

/-! ## The couch engine (10 R256 to R258, 11 R276 to R278) -/

/-- Byte i of one side of a run: its place, or the kind of its failure and its address. -/
def State.runByte (s : State) (n : Node) (glob : Bool) (base i : Nat) (wr : Bool) : Except (Trap × Word) Loc :=
  if glob then
    let va : Word := BitVec.ofNat 64 (base + i)
    match s.translate n.vd n.ctx va ⟨!wr, wr, false⟩ with
    | .ok k => .ok ⟨true, k⟩
    | .tfault => .error (.translation, va)
    | .pfault => .error (.permission, va)
  else .ok ⟨false, base + i⟩

/-- The bytes of a run as source and destination places with the source's address, or the first failure in run order. -/
def State.runPairs (s : State) (n : Node) (r : CopyRun) : Except (Trap × Word) (List (Loc × Loc × Word)) := do
  let src ← (List.range r.len).mapM (fun i => s.runByte n r.sg r.src i false)
  let dst ← (List.range r.len).mapM (fun i => s.runByte n r.dg r.dst i true)
  .ok ((List.range r.len).zip (src.zip dst) |>.map (fun (i, a, b) =>
    (a, b, if r.sg then r.addr + BitVec.ofNat 64 i else ((r.addr.setWidth 32 : BitVec 32) + BitVec.ofNat 32 i).setWidth 64)))

/-- Chunks of 128 bytes of one run (11 R278). -/
def chunksOf {α : Type} (l : List α) : Nat → List (List α)
  | 0 => []
  | n + 1 => if l.isEmpty then [] else l.take 128 :: chunksOf (l.drop 128) n

/-- A chunk's destination bytes with the values of its sources; zero when a source byte is poisoned (11 R277). -/
def State.capture (s : State) (ch : List (Loc × Loc × Word)) : List (Loc × Byte) :=
  let bad := ch.any (fun x => s.poisoned x.1)
  ch.map (fun x => (x.2.1, if bad then 0 else s.readLoc x.1))

/-- The first poisoned source byte of the chunks, by its address. -/
def State.captureErr (s : State) (chs : List (List (Loc × Loc × Word))) : Option Word :=
  chs.findSome? (fun ch => ch.findSome? (fun x => if s.poisoned x.1 then some x.2.2 else none))

/-- A copy node fails with a record that holds what its copy met (13 R308, DEDUCED, log 15). -/
def State.failCopyNode (s : State) (node : Nat) (k : Trap) (code : Nat) (addr : Word) : State :=
  let n := s.node node
  if n.copy.isNone then s
  else (s.setNode node { n with st := .failed }).sendRecord
    ⟨1, n.vd, n.ctx, 0, 0, tstatOf 0 k.kind code, addr, 0, s.clk, n.index, n.mould, n.replay, 0, 0, false⟩

/-- A copy that failed: it completes at once, and its fault waits to be reported (11 R277). -/
def State.failCopy (s : State) (id : Nat) (o : Op) (k : Trap) (addr : Word) : State :=
  ((s.noteFault id o k 0 addr).finish id o).failCopyNode o.node k 0 addr

/-- Places of a copy at their homes, in the images of saved cores where they are saved; none while one is held (17 R376). -/
def State.homePairs (s : State) (node : Nat) (ps : List (Loc × Loc × Word)) : Option (List (Loc × Loc × Word)) :=
  let hs := ps.filterMap (fun x => match s.homeLoc node x.1, s.homeLoc node x.2.1 with
    | some a, some b => some (a, b, x.2.2)
    | _, _ => none)
  if hs.length = ps.length then some hs else none

/-- The registration of a copy must wait: an earlier registered operation holds one of its sources for writing, or one of its destinations
for reading or writing (10 R258). -/
def State.copyWaits (s : State) (node : Nat) (raw home : List (Loc × Loc × Word)) : Bool :=
  home.any (fun x => s.held x.1 || s.held x.2.1 || s.readHeld x.2.1)
    || s.nodeHolds node false (raw.map (·.1)) || s.nodeHolds node true (raw.map (·.2.1))

/-- The chunk lies in the scratchpad of another core than c: bytes of a message to that core (13 R320). -/
def farCore (c : Nat) (ch : List Loc) : Option Nat :=
  match ch with
  | [] => none
  | l :: _ => if l.glob || l.key / 2 ^ 18 == c then none else some (l.key / 2 ^ 18)

/-- The messages of the record of an exchange whose last byte is among its first n bytes (19 R394; DEDUCED, log 61). -/
def State.recordMsgs (s : State) (len n : Nat) : Nat := if n ≥ len then s.msgs len else n / (32 * s.msglim)

/-- The messages that carry each chunk of a run from its core c: a chunk of a copy is sent by itself, a record of an exchange as a whole (11 R278,
R280, 13 R320, 19 R394; DEDUCED, log 61). -/
def State.chunkMsgs (s : State) (node c : Nat) (exch : Bool) (run : List Loc) : List Nat :=
  (chunksOf run run.length).zipIdx.map (fun (ch, i) => match farCore c ch with
    | none => 0
    | some d =>
      if !s.counts node d then 0
      else if exch then s.recordMsgs run.length (128 * (i + 1)) - s.recordMsgs run.length (128 * i)
      else s.msgs ch.length)

/-- CLS of the destination page of a run's chunk (16 R351). -/
def State.runCls (s : State) (n : Node) (r : CopyRun) (k : Nat) : Nat :=
  if r.dg then s.clsOf n.vd n.ctx (BitVec.ofNat 64 (r.dst + 128 * k)) else 0

/-- The source lines of a chunk are registered at their home slices, which fetch them (10 R256, 16 R351). -/
def State.readChunk (s : State) (node : Nat) (raw home : List (Loc × Loc × Word)) : State :=
  match raw with
  | [] => s
  | x :: _ =>
    let n := s.node node
    s.homeTouch node (if x.1.glob then s.clsOf n.vd n.ctx x.2.2 else 0) false (raw.map (·.1)) (home.map (·.1))

/-- The stop tree has halted the core whose couch engine holds a copy: it stands at a chunk boundary, or registers nothing (11 R278, 13 R327). -/
def State.copyStops (s : State) (o : Op) : Bool := (s.core o.core).bound == some o.node && (s.core o.core).treeStopped s.clk

/-- The registration of a copy: every page is translated, then every range is registered at one point (10 R256, 11 R277): the lines are
recalled from every L1. -/
def execCopyRegistration (op : Nat) (s : State) : Out :=
  match tabGet s.ops op with
  | none => .next s
  | some o =>
    match o.kind with
    | .copy c =>
      if c.registered then .next s
      else unlessAway o (.copyRegistration op) s
        (match c.err with
        | some a => .next (s.failCopy op o .dataError a)
        | none =>
          if s.copyStops o then .next (s.due (s.clk + 1) (.copyRegistration op))
          else
          let n := s.node o.node
          match c.runs.mapM (s.runPairs n) with
          | .error (k, addr) => .next (s.failCopy op o k addr)
          | .ok raw =>
            match raw.mapM (s.homePairs o.node) with
            | none => .next (s.due (s.clk + 1) (.copyRegistration op))
            | some pairs =>
              if s.copyWaits o.node raw.flatten pairs.flatten then .next (s.due (s.clk + 1) (.copyRegistration op))
              else
                let chs := pairs.flatMap (fun l => chunksOf l l.length)
                let rawChs := raw.flatMap (fun l => chunksOf l l.length)
                let dsts := rawChs.map (fun l => l.map (·.2.1))
                let msgs := raw.flatMap (fun l => s.chunkMsgs o.node o.core c.exch (l.map (·.2.1)))
                let t := (rawChs.zip chs).foldl (fun st (r, h) => st.readChunk o.node r h) (s.msgSent o.core msgs.sum)
                let u := (linesOf (pairs.flatten.map (·.2.1))).foldl (fun st l => st.recall none l) t
                .next (({ u with ops := tabSet u.ops op { o with kind := .copy { c with
                    runs := [], registered := true,
                    chunks := dsts.zip (chs.map (fun ch => (s.capture ch).map (·.2))) |>.map (fun (ls, bs) => ls.zip bs)
                    srcs := rawChs.map (fun l => l.map (·.1))
                    clss := c.runs.flatMap (fun r => (List.range ((r.len + 127) / 128)).map (s.runCls n r))
                    msgs := msgs
                    err := s.captureErr chs } } } : State).due (s.clk + 2) (.copyChunk op)))
    | _ => .next s

/-- Registered copies of a core that still move data. -/
def State.moving (s : State) (core : Nat) : Nat :=
  (s.ops.filter (fun (_, o) => o.core == core && !s.away o && (match o.kind with
    | .copy c => c.registered && !c.chunks.isEmpty
    | _ => false))).length

/-- The engine moves one chunk and then serves its other copies (11 R278). -/
def execCopyChunk (op : Nat) (s : State) : Out :=
  match tabGet s.ops op with
  | none => .next s
  | some o =>
    match o.kind with
    | .copy c =>
      if !c.registered then .next s
      else unlessAway o (.copyChunk op) s
        (match c.chunks with
        | [] => .next (s.dueWithin 1024 (.copyComplete op))
        | ch :: rest =>
          if s.copyStops o || (s.homeLocs o.node (ch.map (·.1))).isNone then .next (s.due (s.clk + 1) (.copyChunk op))
          else
            let moved : Copy := { c with chunks := rest, srcs := c.srcs.tail, clss := c.clss.tail, msgs := c.msgs.tail }
            let t := ({ s with ops := tabSet s.ops op { o with kind := .copy moved } } : State).homeStore o.node (c.clss.headD 0) ch
            .next ((t.noteHome o.node (c.msgs.headD 0) (ch.map (·.1))).due (s.clk + 2 * max 1 (s.moving o.core)) (.copyChunk op)))
    | _ => .next s

/-- A copy completes: CP falls, and a data error waits to be reported (11 R277, R278). -/
def execCopyComplete (op : Nat) (s : State) : Out :=
  match tabGet s.ops op with
  | none => .next s
  | some o =>
    match o.kind with
    | .copy c =>
      if !c.registered || !c.chunks.isEmpty then .next s
      else unlessAway o (.copyComplete op) s
        (match c.err with
        | some a => .next (s.failCopy op o .dataError a)
        | none => .next (s.finish op o))
    | _ => .next s

end Sys2Proof.Machine
end

