-- ==== Sys2Proof/Machine/Watermark.lean ====
section
/-!
DEFINITION. The Watermark unit (08_isa_watermark.md R215 to R235): major 0x38.
-/
namespace Sys2Proof.Machine

/-! ## Frames (08 R215, R217, R219) -/

/-- The fields of SIGD (08 R217). -/
structure Sig where
  d    : Nat
  n    : Nat
  lvl  : Nat
  row0 : Nat
  rcnt : Nat
  top  : Nat
  deriving DecidableEq, Repr

def Sig.of (x : Word) : Sig :=
  ⟨(x.extractLsb' 0 8).toNat, (x.extractLsb' 8 4).toNat, (x.extractLsb' 12 4).toNat, (x.extractLsb' 16 16).toNat,
    (x.extractLsb' 32 16).toNat, (x.extractLsb' 48 16).toNat⟩

/-- off(m): coefficients of the levels below m. -/
def Sig.below (g : Sig) : Nat → Nat
  | 0 => 0
  | 1 => 0
  | m + 1 => g.below m + g.d ^ m

/-- Coefficients held at level m (08 R232). -/
def Sig.held (g : Sig) (m : Nat) : Nat := if m = g.lvl then g.rcnt * g.d else g.d ^ m

/-- FB: bytes of the frame. -/
def Sig.bytes (g : Sig) : Nat := 4 * (g.below g.lvl + g.rcnt * g.d)

/-- Offset of a held coefficient in a frame at a base (08 R219). -/
def Sig.at (g : Sig) (base m x : Nat) : Nat := base + 4 * (g.below m + x - (if m = g.lvl then g.row0 * g.d else 0))

/-- Flat indices held at level m, ascending. -/
def Sig.idx (g : Sig) (m : Nat) : List Nat :=
  if m = g.lvl then (List.range (g.rcnt * g.d)).map (fun i => g.row0 * g.d + i) else List.range (g.d ^ m)

/-- The levels from k down to 1. -/
def downTo1 : Nat → List Nat
  | 0 => []
  | k + 1 => (k + 1) :: downTo1 k

/-- Cause 1 of 08 R220. -/
def Sig.ok (g : Sig) : Bool :=
  decide (1 ≤ g.d ∧ g.d ≤ 64 ∧ 1 ≤ g.n ∧ g.n ≤ 8 ∧ g.lvl ≠ 0 ∧ g.lvl ≤ g.n ∧ g.rcnt ≠ 0 ∧ g.row0 + g.rcnt ≤ g.d ^ (g.lvl - 1) ∧ g.top = 0)

/-- The frame holds every row of level LVL. -/
def Sig.full (g : Sig) : Bool := g.row0 == 0 && g.rcnt == g.d ^ (g.lvl - 1)

/-! ## Arithmetic (08 R216) -/

/-- rn32 of an exact value. -/
def rn32 (v : Ext) : Nat := fp32.round .rn 0 v
/-- rn32(x + y). -/
def addEnc (x y : Nat) : Nat := rn32 (Ext.add .rn (fp32.decode x) (fp32.decode y))
def mulEnc (x y : Nat) : Nat := rn32 (Ext.mul (fp32.decode x) (fp32.decode y))
/-- rn32(x * y + z), one rounding. -/
def fmaEncW (x y z : Nat) : Nat := rn32 (Ext.add .rn (Ext.mul (fp32.decode x) (fp32.decode y)) (fp32.decode z))
/-- q(n) = rn32(1 / n). -/
def qEnc (n : Nat) : Nat := rn32 (Ext.ofInt n).recip
def negEnc (x : Nat) : Nat := if (fp32.decode x).isNan then fp32.nanEnc else Nat.xor x (2 ^ 31)
def one32 : Nat := 0x3F800000

/-! ## Running an instruction over words of the scratchpad -/

/-- The words written so far, the first poisoned word met, and every coefficient written so far with its value, the latest first (08 R235). -/
structure WmRun where
  out : Tab Nat
  bad : Option Nat
  log : List (Nat × Nat)
  deriving DecidableEq, Repr

def WmRun.empty : WmRun := ⟨[], none, []⟩

/-- A word written. -/
def WmRun.add (r : WmRun) (o v : Nat) : WmRun := { r with out := tabSet r.out o v, log := (o, v) :: r.log }

/-- What the unit reads: words of the scratchpad, and which are poisoned. -/
structure WmSrc where
  word : Nat → Nat
  bad  : Nat → Bool

/-- A word as the unit sees it: its own writes first; the offset when it is poisoned. -/
def WmRun.get (r : WmRun) (s : WmSrc) (o : Nat) : Except Nat Nat :=
  match tabGet r.out o with
  | some v => .ok v
  | none => if s.bad o then .error o else .ok (s.word o)

/-- A coefficient written: its value, or the NaN from the first poisoned word on (08 R235). -/
def WmRun.put (r : WmRun) (o : Nat) (v : Except Nat Nat) : WmRun :=
  match r.bad, v with
  | some _, _ => r.add o fp32.nanEnc
  | none, .error b => { r.add o fp32.nanEnc with bad := some b }
  | none, .ok x => r.add o x

/-- Level k down to 1, each index in ascending order. -/
def Sig.sweep (g : Sig) (base : Nat) (r : WmRun) (f : WmRun → Nat → Nat → Except Nat Nat) : WmRun :=
  (downTo1 g.lvl).foldl (fun r m => (g.idx m).foldl (fun r x => r.put (g.at base m x) (f r m x)) r) r

/-- WMZ (08 R226). -/
def wmZero (g : Sig) (base : Nat) : WmRun := g.sweep base WmRun.empty (fun _ _ _ => .ok 0)

/-- The Horner form of one coefficient for one increment (08 R227): Δ at `inc`. -/
def wmHorner (g : Sig) (s : WmSrc) (base inc : Nat) (r : WmRun) (m x : Nat) : Except Nat Nat :=
  (List.range m).foldlM (fun u t0 => do
    let t := t0 + 1
    let pre := x / g.d ^ (m - t)
    let delta ← r.get s (inc + 4 * (pre % g.d))
    let a := mulEnc delta (qEnc (m - t + 1))
    let c ← r.get s (g.at base t pre)
    .ok (fmaEncW a u c)) one32

/-- WMST (08 R227). -/
def wmStep (g : Sig) (s : WmSrc) (base arr n : Nat) : WmRun :=
  (List.range n).foldl (fun r i => g.sweep base r (fun r m x => wmHorner g s base (arr + 4 * (g.d * i)) r m x)) WmRun.empty

/-- The index of a level with its digits in reverse order. -/
def revIdx (d x : Nat) : Nat → Nat
  | 0 => 0
  | m + 1 => (x % d) * d ^ m + revIdx d (x / d) m

/-- WMSN (08 R228): each level of the source is read before it is written. -/
def wmInverse (g : Sig) (s : WmSrc) (base src : Nat) : WmRun :=
  (downTo1 g.lvl).foldl (fun r m =>
    (g.idx m).foldl (fun q x => q.put (g.at base m x)
      ((r.get s (g.at src m (revIdx g.d x m))).map (fun v =>
        if m % 2 = 1 then negEnc v else if (fp32.decode v).isNan then fp32.nanEnc else v))) r) WmRun.empty

/-- WMJN (08 R229): A ⊗ B with frames at offsets a and b. -/
def wmJoin (g : Sig) (s : WmSrc) (base a b : Nat) : WmRun :=
  g.sweep base WmRun.empty (fun r m x => do
    let x0 ← r.get s (g.at b m x)
    let v ← (List.range (m - 1)).foldlM (fun v j0 => do
      let j := j0 + 1
      let p ← r.get s (g.at a j (x / g.d ^ (m - j)))
      let q ← r.get s (g.at b (m - j) (x % g.d ^ (m - j)))
      .ok (fmaEncW p q v)) x0
    let w ← r.get s (g.at a m x)
    .ok (addEnc w v))

/-- WMLG (08 R230): the nest over the work area at w, then log S = T ⊗ P(1). -/
def wmLog (g : Sig) (s : WmSrc) (base src w : Nat) : WmRun :=
  let k := g.lvl
  let wat (m x : Nat) : Nat := w + 4 * (g.below m + x)
  let nest := (downTo1 (k - 1)).foldl (fun r n =>
    let p0 := qEnc (n + 1)
    (downTo1 (k - n)).foldl (fun r j => (List.range (g.d ^ j)).foldl (fun r x => r.put (wat j x)
      ((List.range j).foldlM (fun acc i0 => do
        let i := i0 + 1
        let t ← r.get s (g.at src i (x / g.d ^ (j - i)))
        let y ← if i = j then .ok p0 else r.get s (wat (j - i) (x % g.d ^ (j - i)))
        .ok (fmaEncW (negEnc t) y acc)) 0)) r) r) WmRun.empty
  g.sweep base nest (fun r m x =>
    (List.range m).foldlM (fun acc j0 => do
      let j := j0 + 1
      let t ← r.get s (g.at src j (x / g.d ^ (m - j)))
      let y ← if j = m then .ok one32 else r.get s (wat (m - j) (x % g.d ^ (m - j)))
      .ok (fmaEncW t y acc)) 0)

/-! ## Checks (08 R220) -/

/-- A range of the own scratchpad: offset and bytes. -/
abbrev Range := Nat × Nat

def Range.meets (a b : Range) : Bool := decide (0 < a.2 ∧ 0 < b.2 ∧ a.1 < b.1 + b.2 ∧ b.1 < a.1 + a.2)

/-- The ranges keep within 0x3_FBFF (cause 2). -/
def Range.fits (a : Range) : Bool := a.2 == 0 || decide (a.1 + a.2 ≤ 0x3FC00)

/-- A range overlaps the workspace of a resident thread of the core (cause 3). -/
def State.onWorkspace (s : State) (r : Range) : Bool :=
  (s.core s.curCore).threads.any (fun x => Range.meets r (x.2.wp, Config.workspaceBytes))

/-- Address checks of 08 R220: the own core, then a multiple of 4, which leaves no word beyond the scratchpad. -/
def State.wmAddr (s : State) (th : Thread) (x : Word) : Except (Trap × Nat × Word) Nat :=
  let ea : BitVec 32 := x.setWidth 32
  match s.spadDecode th ea 1 with
  | .error a => .error (.addressFault, 0, a)
  | .ok (c, off) =>
    if c ≠ s.curCore then .error (.addressFault, 0, ea.setWidth 64)
    else if off % 4 ≠ 0 then .error (.misaligned, 0, ea.setWidth 64)
    else .ok off

/-- The frame check in the order of its table: causes 1 to 5. `pairs` are the overlaps that the entry forbids. -/
def State.frameCheck (s : State) (g : Sig) (ranges : List Range) (pairs : Bool) (whole : Bool) (count : Nat) :
    Except (Trap × Nat × Word) Unit :=
  if !g.ok then .error (.watermark, 1, 0)
  else if !ranges.all Range.fits then .error (.watermark, 2, 0)
  else if pairs || ranges.any s.onWorkspace then .error (.watermark, 3, 0)
  else if whole && !g.full then .error (.watermark, 4, 0)
  else if count > 65535 then .error (.watermark, 5, 0)
  else .ok ()

/-- Two ranges neither equal nor disjoint. -/
def Range.clash (a b : Range) : Bool := a.1 != b.1 && Range.meets a b

/-! ## Acceptance (08 R223, R224) -/

/-- What the unit finds when it would accept an instruction: a register operand to wait for, bytes that it cannot register yet, a trap, or the
operation with its time. -/
inductive WmAns where
  | wait (w : Why)
  | hold
  | bad (k : Trap) (code : Nat) (addr : Word)
  | ok (op : WmOp) (time : Nat)
  deriving DecidableEq, Repr

/-- Words of the own scratchpad as they stand. -/
def State.wmSrc (s : State) : WmSrc :=
  ⟨fun o => leNat (memBytes s.spad (spadKey s.curCore o) 4), fun o => s.poisonS.contains (spadKey s.curCore o / 8)⟩

def rangeKeys (core : Nat) (r : Range) : List Nat := (List.range r.2).map (fun i => spadKey core (r.1 + i))

/-- The bytes that a run writes, with their final values. -/
def WmRun.bytes (r : WmRun) (core : Nat) : List (Nat × Byte) :=
  r.out.flatMap (fun (o, v) => (List.range 4).zip (leBytes 4 v) |>.map (fun (i, b) => (spadKey core (o + i), b)))

/-- The operation with its ranges registered, or a wait for engines and for accesses that must come first. -/
def State.wmOp (s : State) (th : Thread) (req : WmReq) (vals : List Word) (p : Pend) (reads : List Range) (run : WmRun)
    (dest : Option (Code × Word)) (config : Option (Word × BitVec 18)) (time : Nat) : WmAns :=
  let rk := reads.flatMap (rangeKeys s.curCore)
  let ws := run.bytes s.curCore
  let rl := rk.map (fun k => (⟨false, k⟩ : Loc))
  let wl := ws.map (fun w => (⟨false, w.1⟩ : Loc))
  if s.anyHeld rl || s.anyHeldW wl || s.mustWait s.curCore s.curSlot ⟨[.sl, .ss], .thread, true, !ws.isEmpty, rl ++ wl, none⟩ then .hold
  else .ok ⟨s.nextOp, s.curSlot, th.tag, p, req, [th.sigd, th.frb.setWidth 64] ++ vals, rk, ws, dest, config, run.bad, run.log.reverse, none,
    some (s.clk + time), time, time⟩ time

/-- Coefficient updates Wc (08 R232). -/
def Sig.work (g : Sig) : Nat := ((downTo1 g.lvl).map (fun m => m * g.held m)).sum

/-- A register operand, or the wait for it. -/
def wmRead (r : Except Why (Word × Pend)) (k : Word → Pend → WmAns) : WmAns :=
  match r with
  | .error w => .wait w
  | .ok (x, p) => k x p

/-- A check, or its trap. -/
def wmCheck {α : Type} (r : Except (Trap × Nat × Word) α) (k : α → WmAns) : WmAns :=
  match r with
  | .error (t, c, a) => .bad t c a
  | .ok x => k x

/-- WMCF (08 R225). -/
def wmcfAns (d a b : Code) (th : Thread) (s : State) : WmAns :=
  wmRead (s.read a noPend) (fun x p => wmRead (s.read b p) (fun y p =>
    let g := Sig.of x
    wmCheck (s.wmAddr th y) (fun off =>
      wmCheck (s.frameCheck g [(off, g.bytes)] false false 0) (fun _ =>
        s.wmOp th (.wmcf d a b) [x, y] p [] WmRun.empty (some (d, BitVec.ofNat 64 g.bytes)) (some (x, BitVec.ofNat 18 off)) 2))))

/-- WMZ (08 R226). -/
def wmzAns (th : Thread) (s : State) : WmAns :=
  let g := Sig.of th.sigd
  let f : Range := (th.frb.toNat, g.bytes)
  wmCheck (s.frameCheck g [f] false false 0) (fun _ =>
    s.wmOp th .wmz [] noPend [] (wmZero g f.1) none none (4 + (g.bytes / 4 + 31) / 32))

/-- WMST (08 R227). -/
def wmstAns (a b : Code) (th : Thread) (s : State) : WmAns :=
  wmRead (s.read a noPend) (fun x p => wmRead (s.read b p) (fun n p =>
    let g := Sig.of th.sigd
    let f : Range := (th.frb.toNat, g.bytes)
    wmCheck (s.wmAddr th x) (fun arr =>
      let inc : Range := (arr, 4 * g.d * n.toNat)
      wmCheck (s.frameCheck g [f, inc] (Range.meets inc f) false n.toNat) (fun _ =>
        s.wmOp th (.wmst a b) [x, n] p [inc, f] (if n = 0 then WmRun.empty else wmStep g s.wmSrc f.1 arr n.toNat) none none
          (12 + n.toNat * (4 + (g.work + 31) / 32))))))

/-- WMSN (08 R228). -/
def wmsnAns (a : Code) (th : Thread) (s : State) : WmAns :=
  wmRead (s.read a noPend) (fun x p =>
    let g := Sig.of th.sigd
    let f : Range := (th.frb.toNat, g.bytes)
    wmCheck (s.wmAddr th x) (fun src =>
      let q : Range := (src, g.bytes)
      wmCheck (s.frameCheck g [f, q] (Range.clash q f) true 0) (fun _ =>
        s.wmOp th (.wmsn a) [x] p [q] (wmInverse g s.wmSrc f.1 src) none none (8 + 2 * ((g.bytes / 4 + 31) / 32)))))

/-- WMJN (08 R229). -/
def wmjnAns (a b : Code) (th : Thread) (s : State) : WmAns :=
  wmRead (s.read a noPend) (fun x p => wmRead (s.read b p) (fun y p =>
    let g := Sig.of th.sigd
    let f : Range := (th.frb.toNat, g.bytes)
    wmCheck (s.wmAddr th x) (fun oa => wmCheck (s.wmAddr th y) (fun ob =>
      let fa : Range := (oa, g.bytes)
      let fb : Range := (ob, g.bytes)
      wmCheck (s.frameCheck g [f, fa, fb] (Range.clash fa f || Range.clash fb f) false 0) (fun _ =>
        s.wmOp th (.wmjn a b) [x, y] p [fa, fb] (wmJoin g s.wmSrc f.1 oa ob) none none (12 + (g.work + 31) / 32))))))

/-- Updates of the nest of WMLG (08 R232). -/
def Sig.nestWork (g : Sig) : Nat :=
  ((downTo1 (g.lvl - 1)).flatMap (fun n => (downTo1 (g.lvl - n)).map (fun j => j * g.d ^ j))).sum

/-- WMLG (08 R230): with k = 1 the work area is empty, and B is read but not checked. -/
def wmlgAns (a b : Code) (th : Thread) (s : State) : WmAns :=
  wmRead (s.read a noPend) (fun x p => wmRead (s.read b p) (fun y p =>
    let g := Sig.of th.sigd
    let f : Range := (th.frb.toNat, g.bytes)
    wmCheck (s.wmAddr th x) (fun src =>
      wmCheck (if g.lvl = 1 then .ok 0 else s.wmAddr th y) (fun w =>
        let q : Range := (src, g.bytes)
        let area : Range := (w, if g.lvl = 1 then 0 else 4 * g.below g.lvl)
        wmCheck (s.frameCheck g [f, q, area] (Range.clash q f || Range.meets area f || Range.meets area q) false 0) (fun _ =>
          s.wmOp th (.wmlg a b) [x, y] p [q] (wmLog g s.wmSrc f.1 src w) none none (16 + (g.work + g.nestWork + 31) / 32))))))

/-- The index word names a coefficient that the frame holds (08 R231). -/
def Sig.holds (g : Sig) (m x : Nat) : Bool :=
  if m = 0 then x == 0
  else decide (m ≤ g.lvl ∧ x < g.d ^ m) && (m != g.lvl || decide (g.row0 * g.d ≤ x ∧ x < (g.row0 + g.rcnt) * g.d))

/-- WMRD (08 R231). -/
def wmrdAns (d a : Code) (th : Thread) (s : State) : WmAns :=
  wmRead (s.read a noPend) (fun x p =>
    let g := Sig.of th.sigd
    let f : Range := (th.frb.toNat, g.bytes)
    let m := (x.extractLsb' 56 8).toNat
    let i := (x.extractLsb' 0 56).toNat
    wmCheck (s.frameCheck g [f] false false 0) (fun _ =>
      if !g.holds m i then .bad .watermark 6 0
      else if m = 0 then s.wmOp th (.wmrd d a) [x] p [] WmRun.empty (some (d, 0x3F800000)) none 6
      else
        let o := g.at f.1 m i
        match WmRun.empty.get s.wmSrc o with
        | .ok v => s.wmOp th (.wmrd d a) [x] p [(o, 4)] WmRun.empty (some (d, BitVec.ofNat 64 (if (fp32.decode v).isNan then fp32.nanEnc else v))) none 6
        | .error b => s.wmOp th (.wmrd d a) [x] p [(o, 4)] { WmRun.empty with bad := some b } (some (d, 0x7FC00000)) none 6))

/-- The unit accepts an instruction of the current thread: its ranges are registered, and the thread waits for its completion. -/
def State.wmAccept (s : State) (op : WmOp) (time : Nat) : State :=
  ((({ s with nextOp := s.nextOp + 1 } : State).modCore s.curCore (fun k => { k with wm := some op })).modCur (fun th =>
    { th with run := .blocked .unit })).due (s.clk + time) (.watermarkComplete s.curCore)

/-- What the unit finds for an instruction. -/
def wmAnsOf (r : WmReq) (th : Thread) (s : State) : WmAns :=
  match r with
  | .wmcf d a b => wmcfAns d a b th s
  | .wmz => wmzAns th s
  | .wmst a b => wmstAns a b th s
  | .wmsn a => wmsnAns a th s
  | .wmjn a b => wmjnAns a b th s
  | .wmlg a b => wmlgAns a b th s
  | .wmrd d a => wmrdAns d a th s

/-- An instruction of the current thread waits for the unit (08 R223). -/
def State.wmQueue (s : State) (req : WmReq) : State :=
  (s.modCore s.curCore (fun k => { k with wmWait := k.wmWait ++ [(s.curSlot, req)] })).modCur (fun th => { th with run := .blocked .unit })

/-- A Watermark instruction: once its operands are there it is accepted when the unit is free, or takes its place behind those that wait,
also where the unit cannot register its bytes yet (08 R223). -/
def wmIssue (req : WmReq) (s : State) : Out :=
  withThread s (fun th =>
    let k := s.core s.curCore
    let busy := k.wm.isSome || !k.wmWait.isEmpty
    match wmAnsOf req th s with
    | .wait w => block w s
    | .hold => .next (if busy then s.wmQueue req else (s.wmQueue req).due (s.clk + 1) (.watermarkAccept s.curCore))
    | .bad t code addr => if busy then .next (s.wmQueue req) else trap t code addr s
    | .ok op time => if busy then .next (s.wmQueue req) else .next (s.wmAccept op time))

def execWmcf (d a b : Code) (s : State) : Out :=
  checked (legalDst d && legalSrc a && legalSrc b) s (fun _ => wmIssue (.wmcf d a b) s)
def execWmz (s : State) : Out := wmIssue .wmz s
def execWmst (a b : Code) (s : State) : Out := checked (legalSrc a && legalSrc b) s (fun _ => wmIssue (.wmst a b) s)
def execWmsn (a : Code) (s : State) : Out := checked (legalSrc a) s (fun _ => wmIssue (.wmsn a) s)
def execWmjn (a b : Code) (s : State) : Out := checked (legalSrc a && legalSrc b) s (fun _ => wmIssue (.wmjn a b) s)
def execWmlg (a b : Code) (s : State) : Out := checked (legalSrc a && legalSrc b) s (fun _ => wmIssue (.wmlg a b) s)
def execWmrd (d a : Code) (s : State) : Out := checked (legalDst d && legalSrc a) s (fun _ => wmIssue (.wmrd d a) s)

/-! ## The unit's steps -/

/-- The state with a thread current for good. -/
def State.at (s : State) (c t : Nat) : State := { s with curCore := c, curSlot := t }

/-- The free unit accepts the instruction that has waited longest (08 R223); a thread that has left or was stopped is passed over. -/
def execWatermarkAccept (core : Nat) (s : State) : Out :=
  let k := s.core core
  match k.wm, k.wmWait with
  | none, (t, r) :: rest =>
    let u := (s.modCore core (fun k => { k with wmWait := rest }))
    match s.thread core t with
    | none => .next (if rest.isEmpty then u else u.due s.clk (.watermarkAccept core))
    | some th =>
      let back (st : State) : State := { st with curCore := s.curCore, curSlot := s.curSlot }
      match wmAnsOf r th (u.at core t) with
      | .wait _ => .next (s.due (s.clk + 1) (.watermarkAccept core))
      | .hold => .next (s.due (s.clk + 1) (.watermarkAccept core))
      | .bad kd code addr =>
        let v := back ((u.at core t).trapCur kd code addr)
        .next (if rest.isEmpty then v else v.due s.clk (.watermarkAccept core))
      | .ok op time => .next (back ((u.at core t).wmAccept op time))
  | _, _ => .next s

/-- The write of d, where the instruction has one: a w register's bytes that a later store has written stay (02 R48). -/
def State.wmDest (s : State) (id : Nat) (d : Option (Code × Word)) : Option State :=
  match d with
  | none => some s
  | some (c, x) =>
    match s.cur with
    | none => some s
    | some th =>
      if c.toNat < 32 ∧ !th.handler then
        (if th.owes (.w c.toNat) then none else some (s.wsDeliver id (8 * c.toNat) (leBytes 8 x.toNat)))
      else s.write c x

/-- The address of an own scratchpad offset, kind 0b01 (02 R59). -/
def selfAddr (off : Nat) : Word := BitVec.ofNat 64 (0x40000000 + off)

/-- The bytes that an instruction writes: from the coefficient of a residue mismatch on, every one that is written holds the NaN (08 R235). -/
def WmOp.stores (op : WmOp) (core : Nat) : List (Nat × Byte) :=
  match op.bad with
  | none => op.writes
  | some n => (WmRun.bytes ⟨op.seq.zipIdx.foldl (fun m ((o, v), i) => tabSet m o (if n ≤ i then fp32.nanEnc else v)) [], none, []⟩ core)

/-- Units of 8 bytes all of whose words are coefficients of a residue mismatch: its destination is poisoned there (17 R383; DEDUCED,
log 69). -/
def WmOp.spoiled (op : WmOp) (core : Nat) : List Nat :=
  match op.bad with
  | none => []
  | some n =>
    let os := (op.seq.drop n).map (fun x => spadKey core x.1)
    ((os.filter (fun k => k % 8 = 0 && os.contains (k + 4))).map (· / 8)).eraseDups

/-- The unit of a core that the stop tree halts stops after a batch, d ck from then on: what is left of its instruction is done once the core
goes on (08 R233). -/
def Core.stopWm (k : Core) (clk d : Nat) : Core :=
  { k with wm := k.wm.map (fun op => { op with done := none, left := match op.done with
      | none => op.left
      | some t => max 1 (t - clk - d) }) }

/-- Level and place of coefficient i of a frame in the unit's order: levels k down to 1, within a level by ascending index (08 R235). -/
def Sig.coefficient (g : Sig) (i : Nat) : Nat × Nat :=
  (downTo1 g.lvl).foldr (fun m k i => if i < g.held m then (m, i) else k (i - g.held m)) (fun i => (0, i)) i

/-- The increment, level and coefficient at which a stopped unit stands: the batches of 32 updates that its time so far holds (08 R233). -/
def WmOp.position (op : WmOp) : Nat × Nat × Nat :=
  let g := Sig.of (op.vals.headD 0)
  let i := (op.time - op.left) * op.seq.length / max 1 op.time / 32 * 32
  let per := max 1 ((downTo1 g.lvl).map g.held).sum
  (i / per, g.coefficient (i % per))

/-- The unit goes on. -/
def State.resumeWm (s : State) (core : Nat) : State :=
  match (s.core core).wm with
  | none => s
  | some op =>
    if op.done.isSome then s
    else (s.modCore core (fun k => { k with wm := some { op with done := some (s.clk + op.left) } })).due (s.clk + op.left) (.watermarkComplete core)

/-- The instruction retires: SIGD and FRB take their values. -/
def Thread.wmRetire (th : Thread) (op : WmOp) : Thread :=
  let x := th.retire op.pops 1
  match op.config with
  | none => x
  | some (sg, fr) => { x with sigd := sg, frb := fr }

/-- The asynchronous fault of an instruction at its retirement: a data error by the word that it met, which is logged in the core's bank, or a residue
mismatch, which its detector has logged (08 R235, 17 R359). -/
def State.wmFault (s : State) (core : Nat) (op : WmOp) : State :=
  match s.cur with
  | none => s
  | some th =>
    match op.err, op.bad with
    | some o, _ =>
      (s.logMet core th op.tag (coreBank core) 1 (BitVec.ofNat 64 o)).enterTrap core op.slot .asyncFault 0 (selfAddr o) th.pc op.tag 7 8
    | none, some _ => s.enterTrap core op.slot .asyncFault 0 0 th.pc op.tag 7 8
    | none, none => s

/-- The unit completes: the writes are performed, d, SIGD and FRB take their values, and the instruction retires; a fault is taken at that
retirement (08 R223, R225, R235, 17 R359). -/
def execWatermarkComplete (core : Nat) (s : State) : Out :=
  match (s.core core).wm with
  | none => .next s
  | some op =>
    match op.done with
    | none => .next s
    | some ck =>
      if s.clk < ck then .next s
      else
        let st := (s.modCore core (fun k => { k with wm := none })).storeLocs ((op.stores core).map (fun (k, b) => (⟨false, k⟩, b)))
        let u := ({ st with poisonS := (op.spoiled core).foldl setInsert st.poisonS } : State).at core op.slot
        match u.wmDest op.id op.dest with
        | none => .next (s.due (s.clk + 1) (.watermarkComplete core))
        | some v =>
          let x := (v.modCur (fun th => th.wmRetire op)).wmFault core op
          let y := { x with curCore := s.curCore, curSlot := s.curSlot }
          .next (if (s.core core).wmWait.isEmpty then y else y.due s.clk (.watermarkAccept core))

end Sys2Proof.Machine
end

