-- ==== Sys2Proof/Machine/Collective.lean ====
section
/-!
DEFINITION. On-chip collectives (11_isa_memory_sync.md R281 to R287): major 0x18.
-/
namespace Sys2Proof.Machine

/-! ## Groups (02 R53, R54, 13 R315) -/

/-- A SET has taken effect for a core. -/
def Entry.inEffect (e : Entry) (h : Nat) : Bool := !e.members.contains h

/-- A SET of a group that has not taken effect for a core. -/
def Entry.pendingFor (e : Entry) (gid h : Nat) : Option (List Nat) :=
  match e.kind with
  | .set old _ => if e.gid = gid ∧ !e.inEffect h then some old else none
  | _ => none

/-- Members of a group at a core's place in the deckle stream: as they were before the oldest SET that has not taken effect for the core, else
as the stream's SETs have left them (13 R315). -/
def State.groupFor (s : State) (node h gid : Nat) : List Nat :=
  let n := s.node node
  let of (t : Tab Group) : List Nat := ((tabGet t gid).map (·.members)).getD []
  match n.stream.bind (tabGet s.streams) with
  | none => of n.groups
  | some st => (st.buf.findSome? (fun e => e.pendingFor gid h)).getD (of st.groups)

/-! ## Combining (11 R282, R283) -/

/-- A subtree: its lowest rank and its value. -/
abbrev Leaf (α : Type) := Nat × α

/-- Any full binary tree over the leaves: the pairs are left open, drawn from free choices (DESIGN CHOICE, log 11). -/
def freeTree {α : Type} (comb : α → α → α) : Nat → List (Leaf α) → Nat → Option (Leaf α) × Nat
  | 0, l, f => (l.head?, f)
  | n + 1, l, f =>
    match l with
    | [] => (none, f)
    | [x] => (some x, f)
    | l =>
      let i := Config.freeNat f % l.length
      let rest := l.eraseIdx i
      let j := Config.freeNat (f + 1) % rest.length
      match l[i]?, rest[j]? with
      | some x, some y =>
        let z := if x.1 < y.1 then (x.1, comb x.2 y.2) else (y.1, comb y.2 x.2)
        freeTree comb n (z :: rest.eraseIdx j) (f + 2)
      | _, _ => (none, f)

/-- comb of 11 R283: the pair of lower ranks first. -/
def combPair (x y : Nat × Nat) : Nat × Nat :=
  let add := addEnc
  let sub (a b : Nat) := addEnc a (Nat.xor b (2 ^ 31))
  let s := add x.1 y.1
  let bb := sub s x.1
  let t := add (sub x.1 (sub s bb)) (sub y.1 bb)
  (s, add (add x.2 y.2) t)

/-- The result of comp mode (11 R283). -/
def compResult (p : Nat × Nat) : Nat :=
  match fp32.decode p.1 with
  | .fin _ _ _ => addEnc p.1 p.2
  | .nan => fp32.nanEnc
  | .inf _ => p.1

/-- The best element by the order of 06 R188, NaN as 04 R113. -/
def bestElem (mx : Bool) (fm : Fmt) (xs : List Nat) : Nat :=
  match rankBest mx fm (xs.map some) with
  | none => 0
  | some (v, _) => match fm with
    | .flt g => if (g.decode v).isNan then g.nanEnc else v
    | _ => v

/-- Two values tie: equal, or both NaN. -/
def tieElem (fm : Fmt) (x y : Nat) : Bool := !rankBefore true fm x y && !rankBefore true fm y x

/-- The winning pair of maxi and mini: among equal values the smaller index (11 R282). -/
def bestPair (mx : Bool) (fm : Fmt) (ps : List (Nat × Nat)) : Nat × Nat :=
  match ps with
  | [] => (0, 0)
  | p :: t =>
    let b := t.foldl (fun b q =>
      if rankBefore mx fm q.1 b.1 || (tieElem fm q.1 b.1 && decide (q.2 < b.2)) then q else b) p
    (match fm with
      | .flt g => if (g.decode b.1).isNan then g.nanEnc else b.1
      | _ => b.1, b.2)

/-- The combined value of one element over the members by rank, and the free choices drawn. -/
def combineElem (mode : CollMode) (fm : Fmt) (xs : List Nat) (f : Nat) : Nat × Nat :=
  let w := fm.width
  match mode, fm with
  | .wrap, .flt g =>
    let (r, f') := freeTree (fun x y => g.round .rn 0 (Ext.add .rn (g.decode x) (g.decode y))) xs.length (xs.zipIdx.map (fun (x, i) => (i, x))) f
    let z := (r.map (·.2)).getD 0
    (if (g.decode z).isNan then g.nanEnc else z, f')
  | .comp, _ =>
    let (r, f') := freeTree combPair xs.length (xs.zipIdx.map (fun (x, i) => (i, (x, 0)))) f
    (compResult ((r.map (·.2)).getD (0, 0)), f')
  | .wrap, _ => (wrapNat w ((xs.map fm.intVal).sum), f)
  | .sat, _ => (wrapNat w (fm.clamp ((xs.map fm.intVal).sum)), f)
  | .max, _ => (bestElem true fm xs, f)
  | .min, _ => (bestElem false fm xs, f)
  | _, _ => (0, f)

/-- The combined vector (11 R282). -/
def combineVec (mode : CollMode) (fm : Fmt) (vs : List Vec) (f : Nat) : Vec × Nat :=
  let w := fm.width
  let n := elemCount w
  let pairs (mx : Bool) : Vec := vecOfElems w ((List.range (n / 2)).flatMap (fun i =>
    let b := bestPair mx fm (vs.map (fun v => (elem v w (2 * i), elem v w (2 * i + 1))))
    [b.1, b.2]))
  match mode with
  | .maxi => (pairs true, f)
  | .mini => (pairs false, f)
  | _ =>
    let (xs, f') := (List.range n).foldl (fun (acc : List Nat × Nat) i =>
      let (x, g) := combineElem mode fm (vs.map (fun v => elem v w i)) acc.2
      (acc.1 ++ [x], g)) ([], f)
    (vecOfElems w xs, f')

/-- What member r receives of AGTH, ATOA and BCST (11 R284). -/
def moveVec (op : CollOp) (w root r : Nat) (vs : List Vec) : Vec :=
  let n := elemCount w
  let g := vs.length
  let b := n / g
  match op with
  | .agth => vecOfElems w ((List.range n).map (fun i => elem (vs.getD (i / b) 0) w (i % b)))
  | .atoa => vecOfElems w ((List.range n).map (fun i => elem (vs.getD (i / b) 0) w (r * b + i % b)))
  | _ => vs.getD root 0

/-! ## Issue (11 R281, R286) -/

/-- The group needs to divide the elements (cause 2). -/
def collDivides : CollOp → Bool
  | .rsct | .agth | .atoa => true
  | _ => false

/-- Bytes that a member's part of a collective sends and receives: a vector, pairs in comp mode, or a frame (11 R283, R285, 13 R320). -/
def Coll.traffic (c : Coll) : Nat :=
  match c.op, c.mode with
  | .ored, _ => (Sig.of c.sigd).bytes
  | _, .comp => 256
  | _, _ => 128

/-- The operation of a collective that passed its checks issues (10 R244, 02 R63). -/
def issueColl (c : Coll) (p : Pend) (s : State) : Out :=
  withThread s (fun th =>
    if th.full .cr || !s.allSettled s.curCore s.curSlot || !th.canTake c.dest 16 then block .retry s
    else
      let id := s.nextOp
      let c := { c with msgs := s.msgsTo th.node s.curCore c.traffic }
      let o : Op := ⟨s.curCore, s.curSlot, th.node, .cr, th.tag, [.xr], .thread, .coll c⟩
      .next ((((s.issue o).msgSent s.curCore c.msgs).dueWithin 64 (.collectiveDelivery id)).modCur (fun th => th.reserve id c.dest 16)
        |>.retire p 3))

/-- The members' cores by rank, where the issuing core is a member (cause 1). -/
def State.collMembers (s : State) (th : Thread) (gid : Nat) : Option (List Nat) :=
  let h := s.hOf th s.curCore
  let ms := s.groupFor th.node h gid
  if (s.core s.curCore).groups.contains gid && ms.contains h then some (ms.map (· + (s.vdOf th).qbase)) else none

/-- A vector collective: codes, format, a, then the checks of 11 R286. -/
def vecColl (op : CollOp) (okF : Nat → Bool) (d a : Code) (fmto : BitVec 5) (mode : CollMode) (gid : BitVec 8) (root : Nat) (s : State) : Out :=
  withFmt ((decide (d.toNat < 16) || d.toNat == 42) && legalVSrc a) fmto okF s (fun th fm =>
    reading (s.readVec a noPend) s (fun v p =>
      match s.collMembers th gid.toNat with
      | none => trap .collective 1 0 s
      | some ms =>
        if collDivides op && elemCount fm.width % ms.length ≠ 0 then trap .collective 2 0 s
        else if op = .bcst ∧ !ms.contains (root + (s.vdOf th).qbase) then trap .collective 3 0 s
        else issueColl ⟨op, fmto.toNat, effective th fmto, mode, gid.toNat, root, 0, v, 0, 0,
          if d.toNat < 16 then .v d.toNat else .none, ms, 0, none⟩ p s))

def execAred (d a : Code) (fmto : BitVec 5) (mode : CollMode) (gid : BitVec 8) (s : State) : Out :=
  vecColl .ared (combFmtOk mode) d a fmto mode gid 0 s
def execRsct (d a : Code) (fmto : BitVec 5) (mode : CollMode) (gid : BitVec 8) (s : State) : Out :=
  vecColl .rsct (combFmtOk mode) d a fmto mode gid 0 s
def execAgth (d a : Code) (fmto : BitVec 5) (gid : BitVec 8) (s : State) : Out := vecColl .agth wideFmtOk d a fmto .wrap gid 0 s
def execAtoa (d a : Code) (fmto : BitVec 5) (gid : BitVec 8) (s : State) : Out := vecColl .atoa wideFmtOk d a fmto .wrap gid 0 s
/-- A ROOT outside the quire cores of the node's range is an illegal instruction (03 R86). -/
def rootIn (root : Nat) (s : State) (k : Out) : Out :=
  withThread s (fun th =>
    let n := (s.node th.node).desc
    if n.hLo ≤ root ∧ root ≤ n.hHi then k else trap .illegalInstruction 0 0 s)

def execBcst (d a : Code) (fmto : BitVec 5) (gid : BitVec 8) (root : BitVec 12) (s : State) : Out :=
  rootIn root.toNat s (vecColl .bcst wideFmtOk d a fmto .wrap gid root.toNat s)

/-- ORED (11 R285): a is the frame, d the receive area, both in the own scratchpad, and the frame check (08 R220). -/
def execOred (d a : Code) (gid : BitVec 8) (root : BitVec 12) (s : State) : Out :=
  rootIn root.toNat s (checked (legalSrc d && legalSrc a) s (fun th =>
    reading (s.read a noPend) s (fun x p =>
      reading (s.read d p) s (fun y p =>
        match s.collMembers th gid.toNat with
        | none => trap .collective 1 0 s
        | some ms =>
          if !ms.contains (root.toNat + (s.vdOf th).qbase) then trap .collective 3 0 s
          else
            let g := Sig.of th.sigd
            match s.wmAddr th x, s.wmAddr th y with
            | .error (k, c, e), _ => trap k c e s
            | _, .error (k, c, e) => trap k c e s
            | .ok f, .ok w =>
              match s.frameCheck g [(f, g.bytes), (w, g.bytes)] (Range.meets (f, g.bytes) (w, g.bytes)) false 0 with
              | .error (k, c, e) => trap k c e s
              | .ok _ => issueColl ⟨.ored, 0, 0, .wrap, gid.toNat, root.toNat, th.sigd, 0, f, w, .none, ms, 0, none⟩ p s))))

/-! ## Delivery (11 R285 to R287) -/

/-- A collective in flight over a group of a node, not yet combined. -/
def Op.openColl (o : Op) (node gid : Nat) : Option Coll :=
  match o.kind with
  | .coll c => if o.node = node ∧ c.gid = gid ∧ c.result.isNone then some c else none
  | _ => none

/-- The oldest open collective of a core over a group. -/
def State.firstColl (s : State) (node gid core : Nat) : Option (Nat × Op × Coll) :=
  s.ops.findSome? (fun (id, o) => if o.core = core then (o.openColl node gid).map (fun c => (id, o, c)) else none)

/-- Equal fn, FMTO, MODE, ROOT, SIGD (11 R286), and here the effective format and the list of members at the issue too: R286 does not name these two
(DEDUCED, log 27). -/
def Coll.agrees (a b : Coll) : Bool :=
  a.op == b.op && a.fmto == b.fmto && a.fmt == b.fmt && a.mode == b.mode && a.root == b.root && a.sigd == b.sigd && a.members == b.members

/-- Bytes of a frame at an offset of a member's core. -/
def State.frameBytes (s : State) (node core off n : Nat) : List Byte := (spadLocs core off n).map (fun l => (s.homeByte node l).1)

/-- ORED writes bytes at an offset of a member's core: performed as they arrive (11 R285, 17 R376). -/
def State.frameStore (s : State) (node core off : Nat) (bs : List Byte) : State := s.homeStore node 0 ((spadLocs core off bs.length).zip bs)

/-- Words of a member's scratchpad as its Watermark unit reads them. -/
def State.memberSrc (s : State) (node core : Nat) : WmSrc :=
  ⟨fun o => leNat (s.frameBytes node core o 4), fun o => (spadLocs core o 4).any (fun l => (s.homeByte node l).2)⟩

/-- ORED under way: the state, and the first poisoned word that a member's joins have met, by core and offset. -/
abbrev Ored := State × List (Nat × Nat)

/-- One join of ORED on a member: the frame of the higher member into its receive area, then WMJN (11 R285). Open in the spec are whether a poisoned
word of the higher member's frame stays poisoned in the receive area, and when each copy and join falls: the copy carries no poison, and all of
them fall in one step (DESIGN CHOICE, log 89). -/
def oredJoin (node : Nat) (g : Sig) (x : Ored) (lo hi : Nat × Coll) : Ored :=
  let t := x.1.frameStore node lo.1 lo.2.area (x.1.frameBytes node hi.1 hi.2.frame g.bytes)
  let run := wmJoin g (t.memberSrc node lo.1) lo.2.frame lo.2.frame lo.2.area
  (t.homeStore node 0 ((run.bytes lo.1).map (fun (k, b) => (⟨false, k⟩, b))), x.2 ++ (run.bad.map (fun o => (lo.1, o))).toList)

/-- The rounds of ORED: s = 1, 2, 4, … (11 R285). -/
def oredRounds (node : Nat) (g : Sig) (ms : List (Nat × Coll)) : Nat → Nat → Ored → Ored
  | 0, _, x => x
  | n + 1, k, x =>
    if k ≥ ms.length then x
    else
      oredRounds node g ms n (2 * k) ((List.range ms.length).foldl (fun x r =>
        if r % (2 * k) = 0 then
          match ms[r]?, ms[r + k]? with
          | some a, some b => oredJoin node g x a b
          | _, _ => x
        else x) x)

/-- ORED over all members by rank; ROOT receives the frame of rank 0 (11 R285). -/
def State.oredAll (s : State) (node : Nat) (g : Sig) (ms : List (Nat × Coll)) (root : Nat) : Ored :=
  let x := oredRounds node g ms (ms.length + 1) 1 (s, [])
  match ms.head?, ms.find? (fun m => m.1 == root) with
  | some a, some b => if a.1 = b.1 then x else (x.1.frameStore node b.1 b.2.frame (x.1.frameBytes node a.1 a.2.frame g.bytes), x.2)
  | _, _ => x

/-- Bytes that ORED writes or reads on a member. -/
def oredKeys (g : Sig) (m : Nat × Coll) : List Loc :=
  spadLocs m.1 m.2.frame g.bytes ++ spadLocs m.1 m.2.area g.bytes

/-- A collective's result noted on a member's operation. -/
def State.setResult (s : State) (id : Nat) (o : Op) (c : Coll) (r : Vec × Option (Trap × Nat × Word)) : State :=
  { s with ops := tabSet s.ops id { o with kind := .coll { c with result := some r } } }

/-- The fault of a member whose joins met a poisoned word: that of WMJN, as ORED's own (08 R235, 11 R285, 17 R361). -/
def oredFault (bad : List (Nat × Nat)) (core : Nat) : Option (Trap × Nat × Word) :=
  (bad.find? (fun x => x.1 == core)).map (fun x => (.dataError, 0, selfAddr x.2))

/-- The members of a collective that hold a thread of the node, or are saved, with their open operations by rank; none while one of them has not
issued. -/
def State.collFound (s : State) (node : Nat) (c : Coll) : Option (List (Nat × Nat × Op × Coll)) :=
  let live := c.members.filter (fun m => !((s.core m).ofNode node).isEmpty || (tabGet s.saved (savedKey node m)).isSome)
  let found := live.filterMap (fun m => (s.firstColl node c.gid m).map (fun x => (m, x)))
  if found.length < live.length then none else some found

/-- What a vector collective gives member r of the members' operands, and the number of free choices drawn by then (11 R282 to R284). -/
def collValue (c : Coll) (fm : Fmt) (rootRank : Nat) (vs : List Vec) (f : Nat) (r : Nat) : Vec × Nat :=
  let w := fm.width
  let n := elemCount w
  let g := vs.length
  match c.op with
  | .ared => combineVec c.mode fm vs f
  | .rsct =>
    let x := combineVec c.mode fm vs f
    (vecOfElems w ((List.range (n / g)).map (fun i => elem x.1 w (r * (n / g) + i))), x.2)
  | op => (moveVec op w rootRank r vs, f)

/-- ORED of the members found, where no engine holds their bytes and each byte has a place (11 R285, 17 R376). -/
def State.resolveOred (s : State) (node root : Nat) (c : Coll) (found : List (Nat × Nat × Op × Coll)) : Option State :=
  let g := Sig.of c.sigd
  let ms := found.map (fun x => (x.1, x.2.2.2))
  let ls := ms.flatMap (oredKeys g)
  match s.homeLocs node ls with
  | none => none
  | some hs =>
    if s.anyHeldW hs || s.nodeHolds node true ls then none
    else
      let x := s.oredAll node g ms root
      some (found.foldl (fun st (m, id, o, k) => st.setResult id o k (0, oredFault x.2 m)) x.1)

/-- All members have issued, or have left: the results of every member (11 R282 to R286). -/
def State.resolveColl (s : State) (node qbase : Nat) (c : Coll) : Option State :=
  match s.collFound node c with
  | none => none
  | some found =>
    if found.length < c.members.length || found.any (fun x => !x.2.2.2.agrees c) then
      some (found.foldl (fun st (_, id, o, k) => st.setResult id o k (0, some (.collective, 4, 0))) s)
    else if c.op = .ored then s.resolveOred node (c.root + qbase) c found
    else
      match Fmt.ofCode c.fmt with
      | none => none
      | some fm =>
        let vs := found.map (fun x => x.2.2.2.val)
        let val := collValue c fm (c.members.findIdx (· == c.root + qbase)) vs s.fresh
        some (found.zipIdx.foldl (fun st ((_, id, o, k), r) => st.setResult id o k ((val r).1, none)) { s with fresh := (val 0).2 })

/-- An older collective of the same thread over the group is not delivered yet (11 R286). -/
def State.olderColl (s : State) (id : Nat) (o : Op) (gid : Nat) : Bool :=
  (s.siblings o).any (fun (j, e) => decide (j < id) && (match e.kind with
    | .coll c => c.gid == gid
    | _ => false))

/-- The destination of a collective must wait: an engine holds a byte of it, or its line of an image is not written yet (10 R257, 17 R376). -/
def State.destWaits (s : State) (o : Op) (d : Dest) : Bool :=
  let ls := s.destLocs o d
  match s.homeLocs o.node ls with
  | none => true
  | some hs => s.anyHeldW hs || s.nodeHolds o.node true ls

/-- The result of a vector collective is stored into the register area, as a delivery from outside: it is performed where it arrives, in the image of a
saved thread, and wakes who watches its bytes (11 R281, R272, R291, 10 R241, 02 R48, 17 R376). -/
def State.collStore (s : State) (op : Nat) (o : Op) (d : Dest) (v : Vec) : State :=
  let ls := s.destLocs o d
  let t := ((s.finish op o).modIssuer o (fun th => { th with owed := th.owed.filter (fun x => x.2 != op) })).homeStore o.node 0
    (ls.zip (leBytes 128 v.toNat))
  { t with late := t.late.filter (fun e => !(e.node == o.node && ls.contains ⟨false, e.key⟩)) }

/-- The end of a collective on a member. -/
def State.collEnd (s : State) (op : Nat) (o : Op) (c : Coll) (r : Vec × Option (Trap × Nat × Word)) : State :=
  let t := s.nodeRecv o.node o.core c.msgs
  match r.2 with
  | some (k, code, addr) =>
    let l := match k, s.issuer o with
      | .dataError, some th => t.logMet o.core th o.tag (coreBank o.core) 1 (addr &&& 0x3FFFF)
      | _, _ => t
    ((l.modIssuer o (fun th => { th with owed := th.owed.filter (fun x => x.2 != op) })).noteFault op o k code addr).finish op o
  | none => t.collStore op o c.dest r.1

/-- A collective's result is delivered on a member and CR falls; until every member has issued it is tried again, as while an engine holds the
bytes of d or an older collective of the thread over the group is not delivered (10 R248 note 7, R257, 11 R287). -/
def execCollectiveDelivery (op : Nat) (s : State) : Out :=
  match tabGet s.ops op with
  | none => .next s
  | some o =>
    match o.kind with
    | .coll c =>
      if s.olderColl op o c.gid then .next (s.dueWithin 64 (.collectiveDelivery op))
      else
        match c.result with
        | none => .next (((s.resolveColl o.node (s.vd (s.node o.node).vd).qbase c).getD s).dueWithin 64 (.collectiveDelivery op))
        | some r =>
          if s.destWaits o c.dest then .next (s.due (s.clk + 1) (.collectiveDelivery op))
          else .next (s.collEnd op o c r)
    | _ => .next s

end Sys2Proof.Machine
end

