-- ==== Sys2Proof/Machine/Fabric.lean ====
section
/-!
DEFINITION. The fabric primitives PUTS, GET, RADD and APND (11_isa_memory_sync.md R288 to R290; 10 R261, R262; 19 R396 to R398):
major 0x19, the requests that reach a device and the acknowledgements.
-/
namespace Sys2Proof.Machine

/-! ## Memory as an agent of a virtual device reaches it -/

/-- The first byte of a range that fails, and whether it has no translation or its page refuses the access; else the places. -/
def State.vaLocs (s : State) (vd : Fin 8) (ctx : Nat) (va : Word) (n : Nat) (need : Need) : Except (Xlat × Word) (List Loc) :=
  (List.range n).mapM (fun i =>
    let a := va + BitVec.ofNat 64 i
    if !canonical a then .error (.tfault, a)
    else
      match s.translate vd ctx a need with
      | .ok k => .ok ⟨true, k⟩
      | x => .error (x, a))

/-- The translations of a range stand in a TLB from then on (16 R347). -/
def State.vaFill (s : State) (vd : Fin 8) (ctx : Nat) (va : Word) (n : Nat) : State :=
  (s.tlbFill none vd ctx va).tlbFill none vd ctx (va + BitVec.ofNat 64 (n - 1))

/-- An agent that is no core has performed an access to the places of a range: its lines at the Vat, page by page with the page's class (10
R241, 16 R351). -/
def State.vaTouch (s : State) (vd : Fin 8) (ctx : Nat) (va : Word) (wr : Bool) (ls : List Loc) : State :=
  let head := 4096 - va.toNat % 4096
  (List.range (ls.length / 4096 + 2)).foldl (fun st p =>
    let lo := if p = 0 then 0 else head + (p - 1) * 4096
    let part := (ls.drop lo).take (if p = 0 then head else 4096)
    if part.isEmpty then st else st.vatTouch vd (st.clsOf vd ctx (va + BitVec.ofNat 64 lo)) wr part) s

/-- Bytes of a range written by an agent that is no core. -/
def State.vaStore (s : State) (vd : Fin 8) (ctx : Nat) (va : Word) (ls : List Loc) (bytes : List Byte) : State :=
  (s.storeLocs (ls.zip bytes)).vaTouch vd ctx va true ls

/-- The number that the bytes of these places hold. -/
def State.locsNat (s : State) (ls : List Loc) : Nat := leNat (ls.map s.readLoc)

/-- A number stored little-endian at these places. -/
def State.vaStoreNat (s : State) (vd : Fin 8) (ctx : Nat) (va : Word) (ls : List Loc) (x : Nat) : State :=
  s.vaStore vd ctx va ls (leBytes ls.length x)

/-- The context in which a virtual device's addresses translate that no context issues: its lowest valid one (DESIGN CHOICE, log 13). -/
def State.lowCtx (s : State) (vd : Fin 8) : Nat := ((List.range 256).find? (fun c => ((s.vd vd).ctx s.dram c).isSome)).getD 0

/-! ## Issue (11 R288, R290) -/

/-- The fields of the control word (11 R288). -/
structure FabCtl where
  len : Nat
  lg  : Bool
  dev : Nat
  deriving DecidableEq, Repr

/-- The control word of a primitive, none where it breaks R288. -/
def fabCtl (prim : FabricOp) (cw : Word) : Option FabCtl :=
  let len := (cw.extractLsb' 24 24).toNat
  if cw &&& 0xFFFF000000FEFC00 ≠ 0 then none
  else
    let ok : Bool := match prim with
      | .puts => len != 0
      | .get => len != 0
      | .radd => len == 8
      | .apnd => decide (8 ≤ len ∧ len ≤ 4096 ∧ len % 8 = 0)
    if ok then some ⟨len, cw[16], (cw.extractLsb' 0 10).toNat⟩ else none

/-- A PUTS to a Headbox (19 R398). -/
def isService (prim : FabricOp) (remote : Word) : Bool := prim == .puts && remote.extractLsb' 40 24 == 0xFFFFFF

/-- The checks of a primitive's control word, device and, of a service request, its form (11 R290, 19 R396, R398). -/
def fabOk (v : Vd) (prim : FabricOp) (c : Option FabCtl) (remote : Word) : Bool :=
  match c with
  | none => false
  | some k => (tabGet v.bind k.dev).isSome &&
      (!isService prim remote || (remote.extractLsb' 16 8 == 0 && decide (16 ≤ k.len ∧ k.len ≤ 1024 ∧ k.len % 16 = 0)))

/-- The local range of a primitive: its places, or the trap of R59 or R264. RADD has none. -/
def State.fabLocal (s : State) (th : Thread) (prim : FabricOp) (lg : Bool) (loc : Word) (len : Nat) : Except (Trap × Word) (List Loc) :=
  let align := if prim = .apnd then 8 else 1
  let need : Need := if prim = .get then ⟨false, true, false⟩ else ⟨true, false, false⟩
  if prim = .radd then .ok []
  else if lg then s.globalCheck th loc len align need
  else
    match s.spadCheck th (loc.setWidth 32) len align with
    | .error e => .error e
    | .ok (c, off) => if c ≠ s.curCore then .error (.addressFault, (loc.setWidth 32).setWidth 64) else .ok (spadLocs c off len)

/-- The first remote or signal address that is not a multiple of 8 (11 R290). -/
def fabMisaligned (prim : FabricOp) (remote : Word) (signal : Option Word) : Option Word :=
  match prim with
  | .puts => signal.bind (fun a => if a.toNat % 8 ≠ 0 then some a else none)
  | .get => none
  | .radd => if remote.toNat % 8 ≠ 0 then some remote else none
  | .apnd => if remote.toNat % 8 ≠ 0 then some remote else none

/-- The request as it goes to its target; the sender fills in the data when it leaves (11 R289). -/
def fabRequest (vd : Nat) (dst : Nat) (f : Fab) (data : List Byte) (id : Nat) : FabricReq :=
  ⟨vd, dst, f.prim, f.remote, data, f.len, f.signal, some id⟩

/-- The primitive issues: CR rises, and its request leaves at a time that the fabric leaves open (10 R244, 11 R289). -/
def issueFab (f : Fab) (p : Pend) (s : State) : Out :=
  withThread s (fun th =>
    let f := { f with dest := th.dest f.dest }
    if th.full .cr || !s.allSettled s.curCore s.curSlot || !th.canTake f.dest 1 then block .retry s
    else
      let id := s.nextOp
      let o : Op := ⟨s.curCore, s.curSlot, th.node, .cr, th.tag, [.xr], .system, .fab f⟩
      let vd := (s.node th.node).vd
      .next ((((s.issue o).dueWithin 1024 (.fabricRequest s.devid (fabRequest vd.val ((tabGet (s.vd vd).bind f.dev).getD 15) f [] id))).modCur
        (fun th => th.reserve id f.dest 1)).retire p 3))

/-- The source bytes as they stand at the issue; none where one of them is held, or is a register's that is still owed, so that it can only be
read later (10 R257, 11 R289). -/
def State.fabSnap (s : State) (prim : FabricOp) (ls : List Loc) : List Byte :=
  if prim = .get || s.readWaits ls then [] else ls.map s.readLoc

/-- A primitive whose registers are read: its checks, then its issue. `loc` is the local address and `remote` the one at the target. -/
def fabPrim (prim : FabricOp) (loc remote c : Word) (signal : Option Word) (addend : Word) (dest : Dest) (p : Pend) (s : State) : Out :=
  withThread s (fun th =>
    let k := fabCtl prim c
    if !fabOk (s.vdOf th) prim k remote then trap .fabric 1 0 s
    else
      match k with
      | none => trap .fabric 1 0 s
      | some k =>
        match s.fabLocal th prim k.lg loc k.len with
        | .error (t, a) => trap t 0 a s
        | .ok ls =>
          match fabMisaligned prim remote signal with
          | some a => trap .misaligned 0 a s
          | none =>
            let f : Fab := ⟨prim, k.dev, k.len, k.lg, loc, remote, signal, addend, dest, s.fabSnap prim ls, false⟩
            issueFab f p (if k.lg && prim != .radd then s.fillFor th loc k.len else s))

/-- PUTS: a local source, b remote destination, C, and d the signal address, code 42 for none (11 R288, R289). -/
def execPuts (d a b c : Code) (s : State) : Out :=
  checked (legalSrc d && legalSrc a && legalSrc b && legalSrc c) s (fun _ =>
    reading (s.read a noPend) s (fun x p =>
      reading (s.read b p) s (fun y p =>
        reading (s.read c p) s (fun ctl p =>
          reading (s.read d p) s (fun sig p =>
            fabPrim .puts x y ctl (if d.toNat = 42 then none else some sig) 0 .none p s)))))

/-- GET: a local destination, b remote source, C. -/
def execGet (a b c : Code) (s : State) : Out :=
  checked (legalSrc a && legalSrc b && legalSrc c) s (fun _ =>
    reading (s.read a noPend) s (fun x p =>
      reading (s.read b p) s (fun y p =>
        reading (s.read c p) s (fun ctl p => fabPrim .get x y ctl none 0 .none p s))))

/-- RADD: a remote word, b addend, C. -/
def execRadd (a b c : Code) (s : State) : Out :=
  checked (legalSrc a && legalSrc b && legalSrc c) s (fun _ =>
    reading (s.read a noPend) s (fun x p =>
      reading (s.read b p) s (fun y p =>
        reading (s.read c p) s (fun ctl p => fabPrim .radd 0 x ctl none y .none p s))))

/-- APND: d the index, a remote queue header, b local row source, C. -/
def execApnd (d a b c : Code) (s : State) : Out :=
  checked (legalDst d && legalSrc a && legalSrc b && legalSrc c) s (fun _ =>
    reading (s.read a noPend) s (fun x p =>
      reading (s.read b p) s (fun y p =>
        reading (s.read c p) s (fun ctl p => fabPrim .apnd y x ctl none 0 (scalarDest d) p s))))

/-! ## At the target (11 R289, R290, 19 R396) -/

/-- The status of a range that fails at the target. -/
def xlatStatus : Xlat → Nat
  | .tfault => 1
  | .pfault => 2
  | .ok _ => 0

/-- The leading bytes of a range that translate, with their places. -/
def State.okPrefix (s : State) (vd : Fin 8) (ctx : Nat) (va : Word) (n : Nat) (need : Need) : List Loc :=
  ((List.range n).map (fun i => s.vaLocs vd ctx (va + BitVec.ofNat 64 i) 1 need)).takeWhile (fun x => match x with
    | .ok _ => true
    | .error _ => false)
  |>.flatMap (fun x => match x with
    | .ok l => l
    | .error _ => [])

/-- A data write that fails part of the way: bytes that had been performed stand, and which is left open (11 R290). -/
def State.partWrite (s : State) (vd : Fin 8) (ctx : Nat) (va : Word) (data : List Byte) : State :=
  let ls := (s.okPrefix vd ctx va data.length ⟨false, true, false⟩).takeWhile (fun l => !s.anyHeldW [l])
  ({ s with fresh := s.fresh + 1 } : State).vaStore vd ctx va (ls.take (Config.freeNat s.fresh % (ls.length + 1))) data

/-- What a request meets at its target: it must wait for an engine's bytes, or a status, the bytes returned and the state after. -/
inductive FabDone where
  | wait
  | done (status : Nat) (data : List Byte) (s : State)
  deriving DecidableEq, Repr

/-- The effect of a request in the target virtual device (11 R289). Each failure performs none of the writes but for data bytes of PUTS
and APND already performed (11 R290). APND's addition and its row store are one step, so no reader sees the one without the other, which
10 R261 allows (DEDUCED, log 68). -/
def State.performFab (s : State) (vd : Fin 8) (r : FabricReq) : FabDone :=
  let ctx := s.lowCtx vd
  let rd : Need := ⟨true, false, false⟩
  let wr : Need := ⟨false, true, false⟩
  let rw : Need := ⟨true, true, false⟩
  match r.prim with
  | .puts =>
    (match s.vaLocs vd ctx r.addr r.data.length wr with
    | .error (x, _) => .done (xlatStatus x) [] (s.partWrite vd ctx r.addr r.data)
    | .ok ls =>
      match (match r.signal with
        | none => Except.ok []
        | some a => s.vaLocs vd ctx a 8 rw) with
      | .error (x, _) => .done (xlatStatus x) [] (s.partWrite vd ctx r.addr r.data)
      | .ok sg =>
        if s.anyHeldW (ls ++ sg) then .wait
        else
          let t := (s.vaFill vd ctx r.addr r.data.length).vaStore vd ctx r.addr ls r.data
          .done 0 [] (match r.signal with
            | none => t
            | some a => t.vaStoreNat vd ctx a sg (t.locsNat sg + 1)))
  | .get =>
    match s.vaLocs vd ctx r.addr r.len rd with
    | .error (x, _) => .done (xlatStatus x) [] s
    | .ok ls =>
      if s.anyHeld ls then .wait
      else .done 0 (ls.map s.readLoc) ((s.vaFill vd ctx r.addr r.len).vaTouch vd ctx r.addr false ls)
  | .radd =>
    match s.vaLocs vd ctx r.addr 8 rw with
    | .error (x, _) => .done (xlatStatus x) [] s
    | .ok ls =>
      if s.anyHeldW ls then .wait
      else .done 0 [] ((s.vaFill vd ctx r.addr 8).vaStoreNat vd ctx r.addr ls (s.locsNat ls + leNat r.data))
  | .apnd =>
    match s.vaLocs vd ctx r.addr 8 rw, s.vaLocs vd ctx (r.addr + 8) 16 rd with
    | .error (x, _), _ => .done (xlatStatus x) [] s
    | _, .error (x, _) => .done (xlatStatus x) [] s
    | .ok tail, .ok rest =>
      if s.anyHeldW tail || s.anyHeld rest then .wait
      else
        let i := s.locsNat tail
        let base : Word := BitVec.ofNat 64 (s.locsNat (rest.take 8))
        let cap := s.locsNat (rest.drop 8)
        let t := ((s.vaFill vd ctx r.addr 24).vaTouch vd ctx (r.addr + 8) false rest).vaStoreNat vd ctx r.addr tail (i + 1)
        if i ≥ cap then .done 0 (leBytes 8 i) t
        else
          let row := base + BitVec.ofNat 64 (i * r.len)
          match s.vaLocs vd ctx row r.data.length wr with
          | .error (x, _) => .done (xlatStatus x) [] (s.partWrite vd ctx row r.data)
          | .ok ls =>
            if s.anyHeldW ls then .wait
            else .done 0 (leBytes 8 i) ((t.vaFill vd ctx row r.data.length).vaStore vd ctx row ls r.data)

/-! ## The ports (19 R395, R397) -/

/-- The port toward a device: the primary one, or the alternate one while the primary link is down (19 R397). -/
def State.portTo (s : State) (dev : Nat) : Option Nat :=
  let r := (tabGet s.route dev).getD 0
  let up (p : Nat) : Bool := ((tabGet s.ports p).getD Port.reset).up
  let pri := (r.extractLsb' 0 7).toNat
  let alt := (r.extractLsb' 8 7).toNat
  if !r[15] then none else if up pri then some pri else if up alt then some alt else none

/-- A virtual lane of a port is paused (19 R395). -/
def State.lanePaused (s : State) (port lane : Nat) : Bool := (((tabGet s.ports port).getD Port.reset).paused[lane]?).getD false

/-- The primitive of this device that a message carries. -/
def Sent.primitive : Sent → Option Nat
  | .request _ id _ => some id
  | .service _ id _ => some id
  | _ => none

/-- A message as it goes out through a port. -/
def Sent.via (m : Sent) (p : Nat) : Sent :=
  match m with
  | .forward _ f => .forward p f
  | m => m

/-- A message leaves for another device on a virtual lane: dropped where no port leads there, and a primitive then fails with status 4; held
while the lane of its port is paused, and behind those that wait for it (19 R395, R397, 11 R290). -/
def State.depart (s : State) (dev lane : Nat) (m : Sent) : State :=
  match s.portTo dev with
  | none =>
    (match m.primitive with
    | none => s
    | some id => s.dueWithin 1024 (.fabricAck id 4 []))
  | some p =>
    if s.lanePaused p lane || s.egress.any (fun e => e.2.1 == lane && s.portTo e.1 == some p) then
      { s with egress := s.egress ++ [(dev, lane, m)] }
    else { s with outbox := s.outbox ++ [m.via p] }

/-- The messages that wait for a paused lane are tried again, oldest first. -/
def State.drainEgress (s : State) : State :=
  s.egress.foldl (fun st e => st.depart e.1 e.2.1 e.2.2) { s with egress := [] }

/-! ## Leaving the issuer (11 R289, 10 R262) -/

/-- A service request of this device has not been served yet. -/
def asksFor (id : Nat) : Instr → Bool
  | .headboxRequest _ h => h.op == some id
  | _ => false

/-- A primitive is still on this side of its target: it waits for a lane, or for the Headbox of this device. -/
def State.underWay (s : State) (id : Nat) : Bool :=
  s.egress.any (fun e => e.2.2.primitive == some id) || s.agenda.any (fun e => asksFor id e.2)

/-- An earlier primitive of the same thread to the same device has not reached it yet (10 R262). -/
def State.olderFab (s : State) (id : Nat) (o : Op) (f : Fab) : Bool :=
  (s.siblings o).any (fun (j, e) => decide (j < id) && (match e.kind with
    | .fab g => g.dev == f.dev && (!g.sent || s.underWay j)
    | _ => false))

/-- The local range as the program names it. -/
def State.fabRange (s : State) (o : Op) (f : Fab) : Option (List Loc) :=
  if f.prim = .radd then some []
  else if f.lg then
    match s.vaLocs (s.node o.node).vd (s.node o.node).ctx f.loc f.len ⟨f.prim != .get, f.prim == .get, false⟩ with
    | .ok ls => some ls
    | .error _ => none
  else some (spadLocs o.core (f.loc.toNat % 2 ^ 18) f.len)

/-- The local range cannot be reached now: an engine of any core holds a byte of it, a register of the thread there is owed, or its line of an image
is not written yet (10 R241, R257, 17 R376). -/
def State.fabWaits (s : State) (o : Op) (f : Fab) (wr : Bool) : Bool :=
  match s.fabRange o f with
  | none => false
  | some ls =>
    match s.homeLocs o.node ls with
    | none => true
    | some hs => s.nodeHolds o.node wr ls || (if wr then s.anyHeldW hs else s.anyHeld hs) ||
        (!wr && ((s.issuer o).map (·.owesLocs o.core ls)).getD false)

/-- The source bytes: of each aligned unit of 8 bytes, the value at the issue or the one that stands now (11 R289). -/
def State.fabData (s : State) (o : Op) (f : Fab) : List Byte :=
  match f.prim with
  | .radd => leBytes 8 f.addend.toNat
  | .get => []
  | _ =>
    let now := ((s.fabRange o f).getD []).map (fun l => (s.homeByte o.node l).1)
    (List.range f.len).map (fun i =>
      if Config.freeNat (s.fresh + (f.loc.toNat % 8 + i) / 8) % 2 = 0 then f.snap.getD i (now.getD i 0) else now.getD i (f.snap.getD i 0))

/-- The source lines of a primitive have been read at the Vat. -/
def State.fabRead (s : State) (o : Op) (f : Fab) : State :=
  if f.lg && f.prim != .get then
    s.vaTouch (s.node o.node).vd (s.node o.node).ctx f.loc false ((s.fabRange o f).getD [])
  else s

/-- Values drawn by `fabData`. -/
def fabDraws (f : Fab) : Nat := (f.len + 15) / 8

/-- The service request that a PUTS makes (19 R398). -/
def serviceReq (devid vd dst : Nat) (remote : Word) (data : List Byte) (id : Nat) : HeadboxReq :=
  ⟨devid, vd, dst, (remote.extractLsb' 24 16).toNat, (remote.extractLsb' 0 16).toNat, data, some id⟩

def Op.fabSent (o : Op) (f : Fab) : Op := { o with kind := .fab { f with sent := true } }

/-- A primitive of this device leaves it: to a peer whose reset was noticed it fails with status 3 (17 R380); to another device it goes
out through the port of its route (19 R397); to this device it loops back (19 R396). -/
def State.sendFab (s : State) (src : Nat) (r : FabricReq) (id : Nat) (o : Op) (f : Fab) : State :=
  let vd := (s.node o.node).vd
  let sent : State := { s with ops := tabSet s.ops id (o.fabSent f) }
  if (s.vd vd).resetPeers.contains f.dev then sent.dueWithin 1024 (.fabricAck id 3 [])
  else if f.prim ≠ .get ∧ s.fabWaits o f false then s.due (s.clk + 1) (.fabricRequest src r)
  else
    let data := s.fabData o f
    let t : State := { sent.fabRead o f with fresh := s.fresh + fabDraws f }
    if isService f.prim f.remote then
      let h := serviceReq s.devid vd.val r.dstVd f.remote data id
      if f.dev = s.devid then t.dueWithin 1024 (.headboxRequest vd h) else t.depart f.dev 2 (.service f.dev id h)
    else if f.dev ≠ s.devid then t.depart f.dev 0 (.request f.dev id { r with data := data })
    else
      match t.performFab vd { r with data := data } with
      | .wait => s.due (s.clk + 1) (.fabricRequest src r)
      | .done status bytes u => u.dueWithin 1024 (.fabricAck id status bytes)

/-- The device and virtual device that a request of another device comes from. -/
def fabSource : Instr → Option (Nat × Nat)
  | .fabricRequest src r => if r.op.isNone then some (src, r.srcVd) else none
  | .headboxRequest _ h => if h.op.isNone then some (h.src, h.srcVd) else none
  | _ => none

/-- A request of the same source waits at this device, so that a later one waits behind it (10 R262). -/
def State.behind (s : State) (i : Instr) : Bool := s.inbox.any (fun j => fabSource j == fabSource i)

/-- The binding of a virtual device for a source device names the source virtual device (19 R396). -/
def State.bound (s : State) (dst src srcVd : Nat) : Bool :=
  decide (dst < 8) && tabGet (s.vd (Fin.ofNat 8 dst)).bind src == some srcVd

/-- A request of another device reaches this one: it is checked against the binding and performed, and its reply goes out on lane 1, or it
waits (11 R289, R290, 19 R395, R396). -/
def State.fabArrive (s : State) (src : Nat) (r : FabricReq) : State :=
  if !s.bound r.dstVd src r.srcVd then s.depart src 1 (.reply src r 2 [])
  else if s.behind (.fabricRequest src r) then { s with inbox := s.inbox ++ [.fabricRequest src r] }
  else
    match s.performFab (Fin.ofNat 8 r.dstVd) r with
    | .wait => { s with inbox := s.inbox ++ [.fabricRequest src r] }
    | .done status bytes u => u.depart src 1 (.reply src r status bytes)

/-- FABRIC_REQUEST: a primitive of this device leaves it, in program order per device (`op` names it), or a request of another device
arrives (11 R289, R290, 19 R396). -/
def execFabricRequest (src : Nat) (r : FabricReq) (s : State) : Out :=
  match r.op with
  | some id =>
    (match tabGet s.ops id with
    | none => .next s
    | some o =>
      match o.kind with
      | .fab f =>
        if f.sent then .next s
        else if s.olderFab id o f then .next (s.due (s.clk + 1) (.fabricRequest src r))
        else .next (s.sendFab src r id o f)
      | _ => .next s)
  | none => .next (s.fabArrive src r)

/-! ## Acknowledgement (11 R289, R290) -/

/-- The bytes that an acknowledgement writes locally: GET's data, or the status of a service request at its signal address
(19 R398). None while they are held. GET's destination units, which may be written at any time between issue and completion, are written in one step
at the acknowledgement (11 R289; DESIGN CHOICE, log 90). -/
def State.ackWrite (s : State) (o : Op) (f : Fab) (data : List Byte) : Option State :=
  let n := s.node o.node
  match f.prim, f.signal with
  | .get, _ =>
    if s.fabWaits o f true then none
    else
      (match s.fabRange o f with
      | none => some s
      | some ls => some (if f.lg then s.vaStore n.vd n.ctx f.loc ls data else s.homeStore o.node 0 (ls.zip data)))
  | .puts, some sig =>
    if isService f.prim f.remote then
      (match s.vaLocs n.vd n.ctx sig 8 ⟨false, true, false⟩ with
      | .error _ => some s
      | .ok ls => if s.anyHeldW ls then none else some (s.vaStore n.vd n.ctx sig ls data))
    else some s
  | _, _ => some s

/-- A store that an acknowledgement cannot make, because its page is gone since the issue: the kind of the fault and its address. -/
def State.ackFault (s : State) (o : Op) (f : Fab) : Option (Trap × Word) :=
  let at_ (va : Word) (n : Nat) : Option (Trap × Word) :=
    match s.vaLocs (s.node o.node).vd (s.node o.node).ctx va n ⟨false, true, false⟩ with
    | .error (.pfault, a) => some (.permission, a)
    | .error (_, a) => some (.translation, a)
    | .ok _ => none
  match f.prim, f.signal with
  | .get, _ => if f.lg then at_ f.loc f.len else none
  | .puts, some sig => if isService f.prim f.remote then at_ sig 8 else none
  | _, _ => none

/-- FABRIC_ACK: CR falls; GET's data are performed locally, APND's index is delivered, all ones when it failed, and a failure waits to be
reported with its status (11 R289, R290); while the reset of its peer stands, each outstanding primitive fails with status 3 (17 R380). -/
def execFabricAck (op status : Nat) (data : List Byte) (s : State) : Out :=
  match tabGet s.ops op with
  | none => .next s
  | some o =>
    match o.kind with
    | .fab f =>
      let status' := if (s.vd (s.node o.node).vd).resetPeers.contains f.dev then 3 else status
      if !f.sent then .next s
      else if s.destAway o f.dest then .next (s.due (s.clk + 1) (.fabricAck op status data))
      else if status' ≠ 0 then
        .next (((s.deliver op o f.dest (.load .w64) (leBytes 8 (2 ^ 64 - 1))).noteFault op o .fabric status' 0).finish op o)
      else
        match s.ackFault o f with
        | some (k, a) => .next ((s.noteFault op o k 0 a).finish op o)
        | none =>
          match s.ackWrite o f data with
          | none => .next (s.due (s.clk + 1) (.fabricAck op status data))
          | some t => .next ((t.deliver op o f.dest (.load .w64) data).finish op o)
    | _ => .next s

end Sys2Proof.Machine
end

