-- ==== Sys2Proof/Machine/Press.lean ====
section
/-!
DEFINITION. The Press (07_isa_press.md R193 to R214): major 0x30.
-/
namespace Sys2Proof.Machine

/-! ## Shape records (07 R195, R196) -/

structure Shape where
  base    : Nat
  rstride : Int
  estride : Nat
  rows    : Nat
  cols    : Nat
  fmt     : Nat
  ream    : Bool
  tr      : Bool
  smode   : Nat
  scale   : Nat
  resOk   : Bool
  deriving DecidableEq, Repr

def Shape.of (x : BitVec 256) : Shape where
  base := (x.extractLsb' 0 32).toNat
  rstride := (x.extractLsb' 32 32).toInt
  estride := (x.extractLsb' 64 16).toNat
  rows := (x.extractLsb' 80 16).toNat
  cols := (x.extractLsb' 96 16).toNat
  fmt := (x.extractLsb' 112 5).toNat
  ream := x[117]
  tr := x[118]
  smode := (x.extractLsb' 119 2).toNat
  scale := (x.extractLsb' 128 24).toNat
  resOk := x.extractLsb' 121 7 == 0 && x.extractLsb' 152 104 == 0

/-- The effective format: FMTO, or else FMT (07 R198). -/
def Shape.with (r : Shape) (fmto : BitVec 5) : Shape := if fmto = 0 then r else { r with fmt := fmto.toNat }

/-- Bits of an element: 64 for format 18 (07 R196). -/
def elemBits (f : Nat) : Nat :=
  if f = 18 then 64
  else match Fmt.ofCode f with
    | some fm => fm.width
    | none => 8

/-- Bytes that an element touches. -/
def Shape.eb (r : Shape) : Nat := max 1 (elemBits r.fmt / 8)

/-- The address of logical element (i, j), and its bit offset in the byte (07 R196). -/
def Shape.place (r : Shape) (i j : Nat) : BitVec 32 × Nat :=
  let p : Nat × Nat := if r.tr then (j, i) else (i, j)
  if elemBits r.fmt < 8 then (BitVec.ofInt 32 (r.base + p.1 * r.rstride + (p.2 / 2 : Nat)), 4 * (p.2 % 2))
  else (BitVec.ofInt 32 (r.base + p.1 * r.rstride + (p.2 * r.estride * r.eb : Nat)), 0)

/-- The scale word of a frame follows its last element byte (04 R124). -/
def Shape.scaleAt (r : Shape) : BitVec 32 := BitVec.ofInt 32 (r.base + r.rows * r.rstride)

/-! ## Checks (07 R197, R201, R206, R207) -/

inductive Role where
  | a | gather | b | tile
  deriving DecidableEq, Repr

def Role.pmm : Role → Bool
  | .tile => false
  | _ => true

/-- The limits of 07 R200, R201, R206 and R207. R201 gives SB only ROWS = k; that k is at most 1024 is tested on SB as cause 1 too (DEDUCED,
log 67). -/
def Role.limitsOk (k : Role) (r : Shape) : Bool :=
  match k with
  | .a => decide (1 ≤ r.rows ∧ r.rows ≤ 32 ∧ 1 ≤ r.cols ∧ r.cols ≤ 1024)
  | .gather => decide (1 ≤ r.rows ∧ 1 ≤ r.cols ∧ r.cols ≤ 1024)
  | .b => decide (1 ≤ r.rows ∧ r.rows ≤ 1024 ∧ 1 ≤ r.cols ∧ r.cols ≤ 32)
  | .tile => decide (1 ≤ r.rows ∧ r.rows ≤ 32 ∧ 1 ≤ r.cols ∧ r.cols ≤ 32)

/-- Formats that a frame may have (04 R124). -/
def frameFmtOk (f : Nat) : Bool := f == 1 || f == 2 || f == 6 || f == 7 || (12 ≤ f && f ≤ 16)

/-- The first of a record's own causes that it meets. In cause 6 the format and the n × eb of RSTRIDE are those of the effective format, after
FMTO (DEDUCED, log 67). -/
def Shape.ownCause (r : Shape) (k : Role) (xi : Bool) : Option Nat :=
  let w := elemBits r.fmt
  if !k.limitsOk r then some 1
  else if !(if k.pmm then pmmFmtOk r.fmt else tileFmtOk r.fmt) then some 2
  else if xi && !(1 ≤ r.fmt && r.fmt ≤ 10) then some 4
  else if !r.resOk || r.smode == 3 then some 5
  else if (r.smode == 2 && !(k.pmm && r.rows == r.cols && (r.rows == 16 || r.rows == 32) && r.estride == 1
      && r.rstride == (if w < 8 then (r.rows / 2 : Nat) else (r.rows * r.eb : Nat)) && frameFmtOk r.fmt))
      || (r.smode != 0 && r.fmt == 18) then some 6
  else if w < 8 && r.estride != 1 then some 7
  else none

/-- The operand class of 07 R198: the k-block and the rate. -/
def pairClass (f : Nat) : Nat × Nat :=
  if f = 11 then (4, 64) else if f = 12 ∨ f = 13 then (16, 256) else if f = 14 ∨ f = 15 ∨ f = 2 ∨ f = 7 then (32, 512) else (32, 1024)

/-- Two formats form a pair of 07 R198. -/
def pairOk (f g : Nat) : Bool :=
  let cl (x : Nat) : Nat := if x = 11 then 0 else if x = 12 ∨ x = 13 then 1 else if x = 14 ∨ x = 15 then 2 else if x = 16 then 3
    else if x = 2 ∨ x = 7 then 4 else 5
  cl f == cl g

/-- Bytes of a record's elements in the rows named, in ascending order of the logical element; the frame's scale word last. -/
def Shape.spans (r : Shape) (rows : List Nat) : List (BitVec 32 × Nat) :=
  (rows.flatMap (fun i => (List.range r.cols).map (fun j => ((r.place i j).1, r.eb)))) ++ (if r.smode = 2 then [(r.scaleAt, 4)] else [])

/-- The first byte of a span that is not legal (07 R197). -/
def State.spanBad (s : State) (th : Thread) (r : Shape) (a : BitVec 32) (n : Nat) : Option Word :=
  if r.ream then
    let lim := (s.vdOf th).reamk * 65536
    if a.toNat + n > lim then some (BitVec.ofNat 64 (max a.toNat lim)) else none
  else
    match s.spadDecode th a n with
    | .error e => some e
    | .ok (c, _) => if c = s.curCore then none else some (a.setWidth 64)

/-- The first byte of a record's rows that is not legal (07 R197). -/
def State.shapeOut (s : State) (th : Thread) (r : Shape) (rows : List Nat) : Option Word :=
  (r.spans rows).findSome? (fun (a, n) => s.spanBad th r a n)

/-- A record breaks the alignment of 07 R197. -/
def Shape.misaligned (r : Shape) : Bool :=
  (decide (r.eb ≥ 2) && (r.base % r.eb != 0 || r.rstride % (r.eb : Int) != 0)) || (r.smode == 2 && r.base % 4 != 0)

/-- The checks of a list of records after the shape checks (07 R197, 02 R62): the addresses of each, the alignment of each, and a destination in
the Ream. Of PMMG's table only the rows that its index vector names are checked, and the TADDR of a misaligned record is its BASE (DEDUCED,
log 67). -/
def State.shapeAddrs (s : State) (th : Thread) (rs : List (Shape × List Nat)) (dest : Bool) : Except (Trap × Nat × Word) Unit :=
  match rs.findSome? (fun (r, rows) => s.shapeOut th r rows) with
  | some e => .error (.addressFault, 0, e)
  | none =>
    match rs.find? (fun (r, _) => r.misaligned) with
    | some (r, _) => .error (.misaligned, 0, BitVec.ofNat 64 r.base)
    | none =>
      match rs.find? (fun (r, _) => dest && r.ream) with
      | some (r, _) => .error (.reamWrite, 0, BitVec.ofNat 64 r.base)
      | none => .ok ()

/-! ## Operands as they stand at acceptance (07 R209) -/

/-- Where an operation reads its operands: its core, and the scratchpad and Ream bytes as they stood at acceptance. -/
structure PSrc where
  core : Nat
  spad : Memory
  ream : Memory
  deriving DecidableEq, Repr

def State.psrc (s : State) (core : Nat) : PSrc := ⟨core, s.spad, s.ream⟩

/-- The key of a record's byte: of the core's scratchpad or of its Ream slice. -/
def Shape.key (r : Shape) (core : Nat) (a : BitVec 32) : Nat :=
  if r.ream then core * Config.reamBytes + a.toNat else spadKey core (a.toNat % 2 ^ 18)

def PSrc.bytes (p : PSrc) (r : Shape) (a : BitVec 32) (n : Nat) : Nat :=
  leNat (memBytes (if r.ream then p.ream else p.spad) (r.key p.core a) n)

/-- The element's bits. -/
def PSrc.elem (p : PSrc) (r : Shape) (i j : Nat) : Nat :=
  let (a, sh) := r.place i j
  if elemBits r.fmt < 8 then p.bytes r a 1 / 2 ^ sh % 16 else p.bytes r a r.eb

/-- The scale of the matrix as a KS24 encoding (07 R197, 04 R125). -/
def PSrc.scale (p : PSrc) (r : Shape) : Nat :=
  if r.smode = 0 then 0x7F0000
  else if r.smode = 1 then r.scale
  else
    let w := p.bytes r r.scaleAt 4
    if w / 2 ^ 24 = 0 then w else 0xFF0000

/-- Keys of a record's bytes. -/
def Shape.keys (r : Shape) (core : Nat) (rows : List Nat) : List Nat :=
  (r.spans rows).flatMap (fun (a, n) => (List.range n).map (fun i => r.key core a + i))

/-- The first poisoned byte of an operand, by its address. -/
def State.shapePoison (s : State) (core : Nat) (r : Shape) (rows : List Nat) : Option Word :=
  (r.spans rows).findSome? (fun (a, n) => (List.range n).findSome? (fun i =>
    let k := r.key core a + i
    if (if r.ream then s.poisonR.contains (k / 64) else s.poisonS.contains (k / 8)) then some ((a.setWidth 64) + BitVec.ofNat 64 i) else none))

/-! ## Tiles (07 R193, 04 R126) -/

def laneNo (i j : Nat) : Nat := 32 * i + j

def Tile.lane (t : Tile) (k : Nat) : BitVec 40 := (tabGet t.lanes k).getD 0

def Tile.setLane (t : Tile) (k : Nat) (x : BitVec 40) : Tile :=
  { t with lanes := if x = 0 then tabErase t.lanes k else tabSet t.lanes k x }

def Core.tile (k : Core) (acc : Nat) : Tile := (k.tiles[acc]?).getD Tile.reset

def Core.setTile (k : Core) (acc : Nat) (t : Tile) : Core := { k with tiles := k.tiles.setIfInBounds acc t }

/-- The FP32 value of a lane (04 R126). -/
def laneFp (x : BitVec 40) : Nat := (x.extractLsb' 0 32).toNat

def fpLane (e : Nat) : BitVec 40 := BitVec.ofNat 40 e

/-- Lanes (i, j) of a region in ascending order. -/
def region (rows cols : Nat) : List (Nat × Nat) := (List.range rows).flatMap (fun i => (List.range cols).map (fun j => (i, j)))

/-- The lanes that an operation with a data error or a residue mismatch writes (07 R214). -/
def Tile.spoil (t : Tile) (ks : List (Nat × Nat)) : Tile :=
  { ks.foldl (fun t (i, j) => t.setLane (laneNo i j) 0x7FC00000) t with use := .fp32, pair := none }

/-- A lane's value times its scales, as 04 R129 and 07 R207 give it: NaN for a NaN scale, +0 for a zero one. -/
def scaledBy (v : Ext) (scales : List Nat) : Ext :=
  let ks := scales.map ks24Val
  if ks.any (·.isNone) then .nan
  else if ks.any (fun k => k == some 0) then .fin false 0 false
  else ks.foldl (fun v k => scaled v k) v

/-- The two scales of a tile: None counts as 1.0 (07 R193). -/
def Tile.scales (t : Tile) : List Nat :=
  match t.pair with
  | none => [0x7F0000, 0x7F0000]
  | some (a, b) => [a, b]

/-! ## The products (07 R202 to R204) -/

/-- An element's exact value, scaled and perhaps negated. -/
def PSrc.val (p : PSrc) (r : Shape) (sc : Option Nat) (neg : Bool) (i j : Nat) : Ext :=
  match Fmt.ofCode r.fmt with
  | none => .nan
  | some fm =>
    let v := scaled (fm.val (p.elem r i j)) sc
    if neg then v.negate else v

/-- An element's integer, perhaps negated. -/
def PSrc.int (p : PSrc) (r : Shape) (neg : Bool) (i j : Nat) : Int :=
  match Fmt.ofCode r.fmt with
  | none => 0
  | some fm => if neg then -(fm.intVal (p.elem r i j)) else fm.intVal (p.elem r i j)

/-- The exact sum of products in the extended reals (07 R203). -/
def exactSum : List Ext → Ext
  | [] => .fin false 0 false
  | p :: ps => ps.foldl (Ext.add .rn) p

/-- k-blocks lo to hi − 1 of a PMM without XI (07 R203): blocks, rows, columns, each lane rounded as FADD rounds. -/
def pmmFloat (m n k kb lo hi : Nat) (ad : Bool) (av bv : Nat → Nat → Ext) (t : Tile) (r : Rnd) : Tile × Rnd :=
  let step (b : Nat) (acc : Tile × Rnd) (ij : Nat × Nat) : Tile × Rnd :=
    let (i, j) := ij
    let at0 := b * kb
    let e := rn32At (exactSum ((List.range (min k (at0 + kb) - at0)).map (fun d => Ext.mul (av i (at0 + d)) (bv (at0 + d) j))))
    if ad && b == 0 then (acc.1.setLane (laneNo i j) (fpLane e), acc.2)
    else
      let (z, r') := acc.2.call (.flt fp32) (Ext.add r.mode (fp32.decode (laneFp (acc.1.lane (laneNo i j)))) (fp32.decode e))
      (acc.1.setLane (laneNo i j) (fpLane z), r')
  let (t', r') := (List.range (hi - lo)).foldl (fun acc b => (region m n).foldl (step (lo + b)) acc) (t, r)
  ({ t' with use := .fp32, pair := none }, r')
where
  /-- rn32 -/
  rn32At (v : Ext) : Nat := fp32.round .rn 0 v

/-- Blocks lo to hi − 1, of 32 products each, of a PMM with XI (07 R204, R212). -/
def pmmXi (m n k lo hi : Nat) (ad : Bool) (av bv : Nat → Nat → Int) (sa sb : Nat) (t : Tile) : Tile :=
  let fresh := ad && lo == 0
  let ds := (List.range (min k (32 * hi))).filter (fun d => 32 * lo ≤ d)
  let t' := (region m n).foldl (fun t (i, j) =>
    let l0 : BitVec 40 := if fresh then 0 else t.lane (laneNo i j)
    t.setLane (laneNo i j) (ds.foldl (fun l d => xiAdd l (av i d * bv d j)) l0)) t
  { t' with
    use := .xi
    pair := if fresh || t.pair.isNone || t.use == .fp32 then some (sa, sb)
      else if t.pair == some (sa, sb) then t.pair else some (0xFF0000, 0xFF0000) }

/-! ## What an operation does to its tile (07 R202 to R208) -/

/-- PLDA's tile (07 R206); bits 39:37 of an XI lane are written as zero (04 R126). -/
def pldaTile (r : Shape) (t : Tile) (rnd : Rnd) (p : PSrc) : Tile × Rnd :=
  let cells := region r.rows r.cols
  let sc := p.scale r
  if r.fmt = 18 then
    ({ cells.foldl (fun t (i, j) => t.setLane (laneNo i j) (BitVec.ofNat 40 (p.elem r i j % 2 ^ 37))) t with
      use := .xi, pair := some (0x7F0000, 0x7F0000) }, rnd)
  else if r.fmt ≤ 10 then
    ({ cells.foldl (fun t (i, j) => t.setLane (laneNo i j) (xiAdd 0 (p.int r false i j))) t with
      use := .xi, pair := some (sc, 0x7F0000) }, rnd)
  else
    let (t', r') := cells.foldl (fun (acc : Tile × Rnd) (i, j) =>
      let (z, r') := acc.2.call (.flt fp32) (p.val r (ks24Val sc) false i j)
      (acc.1.setLane (laneNo i j) (fpLane z), r')) (t, rnd)
    ({ t' with use := .fp32, pair := none }, r')

/-- The value that PSTA writes for one lane (07 R207). -/
def pstaElem (f sc : Nat) (t : Tile) (lane : BitVec 40) (r : Rnd) : Nat × Rnd :=
  if f = 18 then (lane.toNat, r)
  else match Fmt.ofCode f with
    | none => (0, r)
    | some fm =>
      match t.use with
      | .fp32 => r.call fm (scaled (fp32.decode (laneFp lane)) (ks24Val sc))
      | .xi => r.call fm (scaledBy (Ext.ofInt (xiValue lane)) (t.scales ++ [sc]))

/-- PSTA's bytes in lane order; a later lane's bits stand (07 R207). -/
def pstaWrites (r : Shape) (t : Tile) (rnd : Rnd) (p : PSrc) : Tab Byte × Rnd :=
  let sc := p.scale r
  (region r.rows r.cols).foldl (fun (acc : Tab Byte × Rnd) (i, j) =>
    let (v, rnd') := pstaElem r.fmt sc t (t.lane (laneNo i j)) acc.2
    let (a, sh) := r.place i j
    let k := r.key p.core a
    if elemBits r.fmt < 8 then
      let old := ((tabGet acc.1 k).getD (memRead p.spad k)).toNat
      let keep := if sh = 0 then old / 16 * 16 else old % 16
      (tabSet acc.1 k (BitVec.ofNat 8 (keep + v % 16 * 2 ^ sh)), rnd')
    else
      ((leBytes r.eb v).zipIdx.foldl (fun m (b, n) => tabSet m (k + n) b) acc.1, rnd')) ([], rnd)

/-- −M/2 and M/2 − 1 (04 R127). -/
def xiClamp (x : Int) : Int := max (-34359736320) (min 34359736319 x)

/-- A lane's FP32 value as an XI integer (07 R208). -/
def fpToXi (r : Rnd) (v : Ext) : Int × Rnd :=
  (match v with
    | .nan => 0
    | .inf neg => if neg then -34359736320 else 34359736319
    | .fin neg mag k => xiClamp (roundInt r.mode r.next.seed neg mag k), r.next)

/-- PCVT's tile (07 R208). -/
def pcvtTile (toXi : Bool) (t : Tile) (r : Rnd) : Tile × Rnd :=
  if toXi then
    let (t', r') := (region 32 32).foldl (fun (acc : Tile × Rnd) (i, j) =>
      let (x, r') := fpToXi acc.2 (fp32.decode (laneFp (t.lane (laneNo i j))))
      (acc.1.setLane (laneNo i j) (xiAdd 0 x), r')) (t, r)
    ({ t' with use := .xi, pair := some (0x7F0000, 0x7F0000) }, r')
  else
    let (t', r') := (region 32 32).foldl (fun (acc : Tile × Rnd) (i, j) =>
      let (z, r') := acc.2.call (.flt fp32) (scaledBy (Ext.ofInt (xiValue (t.lane (laneNo i j)))) t.scales)
      (acc.1.setLane (laneNo i j) (fpLane z), r')) (t, r)
    ({ t' with use := .fp32, pair := none }, r')

/-- A shape record of an operation, in its effective format (07 R198). -/
def recOf (x : BitVec 256) (fmto : BitVec 5) : Shape := (Shape.of x).with fmto

/-- The k-blocks of a product; any other operation has one (07 R203, R212). -/
def PressReq.blocks (q : PressReq) : Nat :=
  match q with
  | .pmm _ _ _ _ _ a _ f => ((recOf a f).cols + (pairClass (recOf a f).fmt).1 - 1) / (pairClass (recOf a f).fmt).1
  | _ => 1

/-- What an operation does to its tile and to the generator from block lo to block hi − 1, with its operands in p. A row of A whose PMMG index
is 0xFFFFFFFF is k elements of zero, which no scale multiplies (07 R202; DEDUCED, log 67). -/
def PressReq.effect (q : PressReq) (p : PSrc) (lo hi : Nat) (t : Tile) (r : Rnd) : Tile × Rnd :=
  match q with
  | .pmm rows na nb ad xi x y f =>
    let a := recOf x f
    let b := recOf y f
    let sa := p.scale a
    let sb := p.scale b
    let pick (i : Nat) : Option Nat := (rows[i]?).join
    if xi then
      (pmmXi rows.length b.cols a.cols lo hi ad (fun i d => match pick i with
        | some n => p.int a na n d
        | none => 0) (fun d j => p.int b nb d j) sa sb t, r)
    else
      pmmFloat rows.length b.cols a.cols (pairClass a.fmt).1 lo hi ad (fun i d => match pick i with
        | some n => p.val a (ks24Val sa) na n d
        | none => .fin na 0 false) (fun d j => p.val b (ks24Val sb) nb d j) t r
  | .plda x f => pldaTile (recOf x f) t r p
  | .psta ad x f => (if ad then Tile.reset else t, (pstaWrites (recOf x f) t r p).2)
  | .pz => (Tile.reset, r)
  | .pcvt toXi => if toXi == (t.use == .xi) then (t, r) else pcvtTile toXi t r

/-- Lanes that an operation writes (07 R214). -/
def PressReq.lanes (q : PressReq) : List (Nat × Nat) :=
  match q with
  | .pmm rows _ _ _ _ _ y f => region rows.length (recOf y f).cols
  | .plda x f => region (recOf x f).rows (recOf x f).cols
  | .psta ad _ _ => if ad then region 32 32 else []
  | .pz => region 32 32
  | .pcvt _ => region 32 32

/-- Lanes that an operation reads. -/
def PressReq.reads (q : PressReq) : List (Nat × Nat) :=
  match q with
  | .pmm rows _ _ ad _ _ y f => if ad then [] else region rows.length (recOf y f).cols
  | .psta _ x f => region (recOf x f).rows (recOf x f).cols
  | .pcvt _ => region 32 32
  | _ => []

/-- The generator as an operation finds it. -/
def PressOp.rounding (op : PressOp) : Rnd := ⟨RMode.ofCode op.rnd.toNat, op.seed⟩

def PressOp.src (op : PressOp) (core : Nat) : PSrc := ⟨core, op.mem, op.rmem⟩

/-- The tile after what is left of an operation, when nothing goes wrong but a data error in an operand. -/
def PressOp.after (op : PressOp) (core : Nat) (t : Tile) : Tile :=
  if op.err.isSome || op.bad then (if op.req.lanes.isEmpty then t else t.spoil op.req.lanes)
  else (op.req.effect (op.src core) op.blocks op.req.blocks t op.rounding).1

/-- The tile as an operation that is accepted now will find it. -/
def Core.tileAhead (k : Core) (core acc : Nat) : Tile :=
  (k.press.filter (fun p => p.acc == acc)).foldl (fun t p => p.after core t) (k.tile acc)

/-! ## Acceptance (07 R194, R209, R211) -/

/-- An operation at its acceptance: what it does, the scratchpad bytes that it reads and those that it writes, a data error in an operand, its
engine, and its times. -/
structure Work where
  req    : PressReq
  reads  : List Nat
  rreads : List Nat
  writes : List Nat
  err    : Option Word
  array  : Bool
  occ    : Nat
  lat    : Nat
  deriving DecidableEq, Repr

/-- The bytes of a memory at some addresses. -/
def memOf (m : Memory) (ks : List Nat) : Memory := m.filter (fun c => ks.contains c.1)

/-- The operation that the Press takes in. -/
def Work.op (w : Work) (s : State) (th : Thread) (acc : Nat) : PressOp :=
  ⟨s.nextOp, s.curSlot, th.tag, acc, w.req, w.array, w.array, !w.rreads.isEmpty, w.occ, w.lat, memOf s.spad w.reads, memOf s.ream w.rreads,
    th.rnd, th.seed, w.reads, w.writes, none, 0, w.lat, w.err, false⟩

/-- The generator after the SEED steps of an operation, which are all taken at acceptance (07 R203, R206 to R208). -/
def Work.seed (w : Work) (s : State) (th : Thread) (acc : Nat) : BitVec 32 :=
  (w.req.effect (s.psrc s.curCore) 0 w.req.blocks ((s.core s.curCore).tileAhead s.curCore acc) th.rounding).2.seed

/-- The scratchpad places of keys. -/
def spadPlaces (ks : List Nat) : List Loc := ks.map (fun k => ⟨false, k⟩)

/-- The Press must wait before it takes an operation in: 14 of the thread and 16 of the core are outstanding, an earlier access is not performed,
an engine holds a byte, or a register of the thread is owed that lies among them (02 R41, R63, 07 R194, R209, R211). -/
def State.pressFull (s : State) (th : Thread) (w : Work) : Bool :=
  th.full .pr || decide ((s.core s.curCore).press.length ≥ 16) || !s.allSettled s.curCore s.curSlot
    || s.anyHeld (spadPlaces w.reads) || s.anyHeldW (spadPlaces w.writes)
    || th.owesLocs s.curCore (spadPlaces (w.reads ++ w.writes))

/-- The Press accepts an operation: the thread's PR rises and its bytes are registered; its tile takes its values at its completion. -/
def pressIssue (acc : BitVec 3) (words : Nat) (w : Work) (s : State) : Out :=
  withThread s (fun th =>
    if s.pressFull th w then block .retry s
    else
      let u := ({ s with nextOp := s.nextOp + 1 } : State).modCore s.curCore (fun k => { k with press := k.press ++ [w.op s th acc.toNat] })
      .next (((u.modCur (fun x => { x.up .pr with seed := w.seed s th acc.toNat })).due s.clk (.pressOpStart s.curCore s.nextOp)).retire
        noPend words))

/-- A record's checks, or the trap. -/
def shapeCause (c : Option Nat) (s : State) (k : Out) : Out :=
  match c with
  | some n => trap .shape n 0 s
  | none => k

def shapeTrap (r : Except (Trap × Nat × Word) Unit) (s : State) (k : Out) : Out :=
  match r with
  | .error (t, c, a) => trap t c a s
  | .ok _ => k

/-- A shape record in its effective format. -/
def State.shape (s : State) (n : BitVec 3) (fmto : BitVec 5) : Shape := recOf (s.getS n.toNat) fmto

/-- Bytes of operands in the scratchpad and in the Ream (07 R211). -/
def Shape.size (r : Shape) (rows : Nat) : Nat := (elemBits r.fmt * rows * r.cols + 7) / 8

/-- Keys of the operands of an operation: of the scratchpad (false) or of the Ream. -/
def operandKeys (core : Nat) (rs : List (Shape × List Nat)) (ream : Bool) : List Nat :=
  (rs.filter (fun x => x.1.ream == ream)).flatMap (fun x => x.1.keys core x.2)

/-- The first data error in the operands. -/
def State.operandBad (s : State) (rs : List (Shape × List Nat)) : Option Word := rs.findSome? (fun x => s.shapePoison s.curCore x.1 x.2)

/-- PMM and PMMG after their checks: `rows` gives each row of A as a logical row of SA, or none for k elements of zero (07 R202). -/
def pmmWork (rows : List (Option Nat)) (na nb ad xi : Bool) (x y : BitVec 256) (f : BitVec 5) (s : State) : Work :=
  let a := recOf x f
  let b := recOf y f
  let used := (rows.filterMap id).eraseDups
  let ops := [(a, used), (b, List.range b.rows)]
  let rate := (pairClass a.fmt).2
  let sizes := [(a.ream, a.size used.length), (b.ream, b.size b.rows)]
  let ba := ((sizes.filter (fun x => !x.1)).map (·.2)).sum
  let br := ((sizes.filter (·.1)).map (·.2)).sum
  let occ := max 4 (max ((rows.length * b.cols * a.cols + rate - 1) / rate) ((ba + 127) / 128 + (br + 63) / 64))
  ⟨.pmm rows na nb ad xi x y f, operandKeys s.curCore ops false, operandKeys s.curCore ops true, [], s.operandBad ops, true, occ,
    occ + 24 + (if a.ream || b.ream then 8 else 0)⟩

/-- The shape checks of two operands in the order of 07 R197. `idx` is cause 8. -/
def pairCause (ka : Role) (xi : Bool) (a b : Shape) (idx : Bool) : Option Nat :=
  (a.ownCause ka xi).or ((b.ownCause .b xi).or
    (if !pairOk a.fmt b.fmt then some 2 else if a.cols != b.rows then some 3 else if idx then some 8 else none))

/-- The instruction's own format field names a format that no frame has, for an operand that is a frame: the illegal-instruction trap of 04 R124,
where a record's own FMT meets cause 6 of 07 R197 (DEDUCED, log 67). -/
def namesNoFrame (fmto : BitVec 5) (a b : Shape) : Bool := fmto != 0 && !frameFmtOk fmto.toNat && (a.smode == 2 || b.smode == 2)

/-- PMM and PMMG: the checks, then acceptance. -/
def pmmForm (ka : Role) (rows : List (Option Nat)) (idx : Bool) (acc sa sb : BitVec 3) (na nb ad xi : Bool) (fmto : BitVec 5) (s : State) :
    Out :=
  withThread s (fun th =>
    let a := s.shape sa fmto
    let b := s.shape sb fmto
    if namesNoFrame fmto a b then trap .illegalInstruction 0 0 s
    else
      shapeCause (pairCause ka xi a b idx) s
        (shapeTrap (s.shapeAddrs th [(a, (rows.filterMap id).eraseDups), (b, List.range b.rows)] false) s
          (pressIssue acc 3 (pmmWork rows na nb ad xi (s.getS sa.toNat) (s.getS sb.toNat) fmto s) s)))

/-- PMM (07 R198 to R205). -/
def execPmm (acc sa sb : BitVec 3) (na nb ad xi : Bool) (fmto : BitVec 5) (s : State) : Out :=
  pmmForm .a ((List.range (s.shape sa fmto).rows).map some) false acc sa sb na nb ad xi fmto s

/-- The index vector of PMMG as 32 numbers (07 R202). -/
def gatherIdx (v : Vec) : List Nat := (List.range 32).map (fun i => (v.extractLsb' (32 * i) 32).toNat)

/-- The rows of A that an index vector picks from a table of T rows. -/
def gatherRows (v : Vec) (rows : Nat) : List (Option Nat) := (gatherIdx v).map (fun x => if x < rows then some x else none)

/-- An index that is neither 0xFFFFFFFF nor below T (07 R197, cause 8). -/
def gatherBad (v : Vec) (rows : Nat) : Bool := (gatherIdx v).any (fun x => x != 0xFFFFFFFF && !(x < rows))

/-- PMMG (07 R201, R202): rows of A by an index vector, read at acceptance. -/
def execPmmg (acc sa sb : BitVec 3) (idx : BitVec 4) (na nb ad xi : Bool) (fmto : BitVec 5) (s : State) : Out :=
  reading (s.readVec (idx.setWidth 6) noPend) s (fun v _ =>
    let rows := (s.shape sa fmto).rows
    pmmForm .gather (gatherRows v rows) (gatherBad v rows) acc sa sb na nb ad xi fmto s)

/-- PLDA after its checks. -/
def pldaWork (x : BitVec 256) (f : BitVec 5) (s : State) : Work :=
  let r := recOf x f
  let ops := [(r, List.range r.rows)]
  let n := 8 + (r.size r.rows + 127) / 128
  ⟨.plda x f, operandKeys s.curCore ops false, operandKeys s.curCore ops true, [], s.operandBad ops, false, n, n⟩

/-- PSTA after its checks. -/
def pstaWork (ad : Bool) (x : BitVec 256) (f : BitVec 5) (s : State) : Work :=
  let r := recOf x f
  let n := 12 + (r.size r.rows + 127) / 128
  ⟨.psta ad x f, [], [], r.keys s.curCore (List.range r.rows), none, false, n, n⟩

/-- PLDA and PSTA: the checks of one record, then acceptance (07 R197, R206, R207). -/
def tileForm (dest : Bool) (acc sa : BitVec 3) (fmto : BitVec 5) (w : Work) (s : State) : Out :=
  withThread s (fun th =>
    let r := s.shape sa fmto
    shapeCause (r.ownCause .tile false) s
      (shapeTrap (s.shapeAddrs th [(r, List.range r.rows)] dest) s (pressIssue acc 3 w s)))

def execPlda (acc sa : BitVec 3) (fmto : BitVec 5) (s : State) : Out :=
  tileForm false acc sa fmto (pldaWork (s.getS sa.toNat) fmto s) s

def execPsta (acc sa : BitVec 3) (ad : Bool) (fmto : BitVec 5) (s : State) : Out :=
  tileForm true acc sa fmto (pstaWork ad (s.getS sa.toNat) fmto s) s

/-- PZ and PCVT: no operand in memory. -/
def tileWork (q : PressReq) (n : Nat) : Work := ⟨q, [], [], [], none, false, n, n⟩

/-- PZ (07 R208). -/
def execPz (d : Code) (s : State) : Out :=
  checked (legalNum d) s (fun _ => pressIssue (d.setWidth 3) 1 (tileWork .pz 2) s)

/-- PCVT (07 R208). -/
def execPcvt (acc : BitVec 3) (fmto : BitVec 5) (s : State) : Out :=
  withThread s (fun _ => pressIssue acc 3 (tileWork (.pcvt (fmto.toNat == 18)) 16) s)

/-- PSHP (07 R200): BASE of a shape record, at the thread's own instruction boundary. -/
def execPshp (d a : Code) (s : State) : Out :=
  checked (legalNum d && legalSrc a) s (fun _ =>
    reading (s.read a noPend) s (fun x p => .next ((s.wsWrite (2432 + 32 * d.toNat) 4 (x.toNat % 2 ^ 32)).retire p 1)))

/-! ## The engines' steps (07 R194, R211, R212) -/

/-- The operation may start: earlier ones of its engine have started and left the engine free, and those of its tile are complete, but that
the array takes a chain of products on one tile without a gap. -/
def pressReady (clk : Nat) (before : List PressOp) (op : PressOp) : Bool :=
  before.all (fun e =>
    (e.array != op.array || (match e.started with
      | none => false
      | some t => decide (t + e.occ ≤ clk))) &&
    (e.acc != op.acc || (e.mm && op.mm)))

/-- A change of one Press operation of a core. -/
def State.modPress (s : State) (core op : Nat) (f : PressOp → PressOp) : State :=
  s.modCore core (fun k => { k with press := k.press.map (fun q => if q.id = op then f q else q) })

/-- An accepted operation starts once its tile and engine are free; a fetch in a refresh window is held (02 R68), and a core that the stop tree has
halted starts none (07 R212). -/
def execPressOpStart (core op : Nat) (s : State) : Out :=
  let k := s.core core
  match k.press.find? (fun p => p.id == op) with
  | none => .next s
  | some p =>
    if p.started.isSome then .next s
    else if !pressReady s.clk (k.press.takeWhile (fun q => q.id != op)) p || (p.ream && refcPhase s.clk core < 96) || k.treeStopped s.clk then
      .next (s.due (s.clk + 1) (.pressOpStart core op))
    else .next ((s.modPress core op (fun q => { q with started := some s.clk })).due (s.clk + p.left) (.pressOpComplete core op))

/-- The stop of a core at a ck: a product that has begun stops at its next k-block boundary, with what it has done in its tile and the blocks
that are left still to do, a block whose fetch a refresh window holds among them; one whose tile an earlier operation is about to leave begins anew, with the same bits; an operation of the transfer
path goes on to its end (07 R212). -/
def State.stopPress (s : State) (core : Nat) : State :=
  (s.core core).press.foldl (fun st p =>
    match p.started with
    | none => st
    | some t0 =>
      let total := p.req.blocks
      let todo := total - p.blocks
      let first := !((s.core core).press.takeWhile (fun q => q.id != p.id)).any (fun q => q.acc == p.acc)
      let j := (s.clk - t0) * todo / max 1 p.occ
      let begun := !(p.ream && decide (refcPhase (t0 + j * p.occ / max 1 todo) core < 96))
      let d := if first then min todo (j + begun.toNat) else 0
      if !p.array || d = todo then st
      else
        let k := st.core core
        let (t, r) := p.req.effect (p.src core) p.blocks (p.blocks + d) (k.tile p.acc) p.rounding
        let occ := p.occ * (todo - d) / todo
        ((st.setCore core (k.setTile p.acc t)).modPress core p.id (fun q =>
          { q with started := none, blocks := p.blocks + d, seed := r.seed, occ := occ, left := occ + (p.lat - p.occ), lat := occ + (p.lat - p.occ) })).due
          (s.clk + 1) (.pressOpStart core p.id)) s

/-- The ck by which the Press of a core that stops now has settled: its running operations are complete or at their boundary (07 R212). -/
def Core.pressSettled (k : Core) (clk : Nat) : Nat :=
  k.press.foldl (fun m p => match p.started with
    | none => m
    | some t => max m (min (clk + 128) (t + p.left))) clk

/-- An operand's error is logged in the core's bank, from the scratchpad, the tiles or the Ream (07 R214, 17 R381, R382). -/
def State.logPress (s : State) (core : Nat) (p : PressOp) (err : Option Word) : State :=
  match err, s.thread core p.slot with
  | some a, some th => s.logMet core th p.tag (coreBank core) (if p.ream then 2 else 1) (a &&& 0x3FFFF)
  | _, _ => s

/-- Lanes of a tile as numbers of `State.poisonT`. -/
def laneUnits (core acc : Nat) (ls : List (Nat × Nat)) : List Nat := ls.map (fun (i, j) => core * 8192 + acc * 1024 + laneNo i j)

/-- The lanes that an operation has written: of a residue mismatch poisoned (17 R383), else good. -/
def State.pressLanes (s : State) (core : Nat) (p : PressOp) : State :=
  let us := laneUnits core p.acc p.req.lanes
  { s with poisonT := if p.bad then us.foldl setInsert s.poisonT else s.poisonT.filter (fun u => !us.contains u) }

/-- Bytes that PSTA drains from poisoned lanes stay poisoned (17 R383). -/
def State.drainPoison (s : State) (core : Nat) (p : PressOp) : State :=
  match p.req with
  | .psta _ x f =>
    let r := recOf x f
    let bad := (region r.rows r.cols).filter (fun (i, j) => s.poisonT.contains (core * 8192 + p.acc * 1024 + laneNo i j))
    { s with poisonS := (bad.flatMap (fun (i, j) => (List.range r.eb).map (fun n => (r.key core (r.place i j).1 + n) / 8))).foldl setInsert s.poisonS }
  | _ => s

/-- What a completed operation stores. -/
def PressOp.stores (p : PressOp) (core : Nat) (t : Tile) (m : Memory) : List (Loc × Byte) :=
  match p.req with
  | .psta _ x f => (pstaWrites (recOf x f) t p.rounding ⟨core, m, p.rmem⟩).1.map (fun (k, b) => (⟨false, k⟩, b))
  | _ => []

/-- A Press operation's fault waits to be reported (07 R214). -/
def Thread.pressFault (th : Thread) (p : PressOp) (err : Option Word) : Thread :=
  match err with
  | some a => { th with faults := th.faults ++ [⟨p.id, .pr, p.tag, Trap.dataError.kind, 0, a⟩] }
  | none => th

/-- An operation completes after those before it on its tile: the tile takes its values, its bytes are written, PR falls, and a data error or
a residue mismatch waits to be reported; a data error is logged (07 R194, R209, R211, R214). -/
def execPressOpComplete (core op : Nat) (s : State) : Out :=
  let k := s.core core
  match k.press.find? (fun p => p.id == op) with
  | none => .next s
  | some p =>
    match p.started with
    | none => .next s
    | some t0 =>
      if s.clk < t0 + p.left then .next s
      else if (k.press.takeWhile (fun q => q.id != op)).any (fun q => q.acc == p.acc) then .next (s.due (s.clk + 1) (.pressOpComplete core op))
      else
        let t := k.tile p.acc
        let lane := (laneUnits core p.acc p.req.reads).any s.poisonT.contains
        let q := { p with err := p.err.or (if lane then some 0 else none) }
        let u := ((s.setCore core { k.setTile p.acc (q.after core t) with press := k.press.filter (fun x => x.id != op) }).storeLocs
          (p.stores core t s.spad)).drainPoison core p
        let v := (u.pressLanes core q).logPress core p q.err
        let th := s.thread core p.slot
        .next ((v.modThread core p.slot (fun x => (x.down .pr).pressFault p (q.err.or (if p.bad then some 0 else none)))).arrivalTry core
          ((th.map (·.node)).getD 0))

end Sys2Proof.Machine
end

