-- ==== Sys2Proof/Machine/Nodes.lean ====
section
/-!
DEFINITION. What the units of a virtual device share: records and messages to its fault server and its host, the contexts of its queues,
and the ends of nodes (13 R308, 16 R344, 17 R367 to R369, R378; 19 R392).
-/
namespace Sys2Proof.Machine

/-! ## Messages -/

/-- A record that names a node and no thread (17 R367). -/
def State.nodeRecord (s : State) (rkind : Nat) (n : Node) (info : Word) : FaultRec :=
  ⟨rkind, n.vd, n.ctx, 0, 0, 0, 0, 0, s.clk, n.index, n.mould, n.replay, 0, info, false⟩

/-- A record that names a context and no node (17 R367). -/
def State.vdRecord (s : State) (rkind : Nat) (vd : Fin 8) (ctx : Nat) (info : Word) : FaultRec :=
  ⟨rkind, vd, ctx, 0, 0, 0, 0, 0, s.clk, 0, 0, 0, 0, info, false⟩

/-! ## Contexts (17 R369, 16 R344) -/

/-- The context that owns a queue: the one valid entry whose QMASK holds it. -/
def State.queueCtx (s : State) (vd : Fin 8) (q : Nat) : Option Nat :=
  match (List.range 256).filter (fun c => match (s.vd vd).ctx s.dram c with
    | none => false
    | some k => k.qmask.getLsbD q) with
  | [c] => some c
  | _ => none

/-- The entry of a context is cached when a queue of it is served. -/
def State.cacheCtx (s : State) (vd : Fin 8) (c : Nat) : State :=
  match (s.vd vd).ctx s.dram c with
  | none => s
  | some k => s.modVd vd (fun v => { v with ctxs := tabSet v.ctxs c k })

/-! ## Steps that name what is gone -/

/-- The core whose threads or engines a step is for. -/
def coreStep : Instr → Option Nat
  | .resume _ c _ => some c
  | .parkWake c _ => some c
  | .spawnThreadReady c _ => some c
  | .gangForm c _ => some c
  | .pressOpStart c _ => some c
  | .pressOpComplete c _ => some c
  | .watermarkAccept c => some c
  | .watermarkComplete c => some c
  | .coreArrival c => some c
  | _ => none

/-- The deckle stream that a step is for. -/
def streamStep : Instr → Option Nat
  | .deckleFetch i => some i
  | .deckleFire i _ => some i
  | .deckleRelease i _ => some i
  | .feltProbePass i => some i
  | .idleTreeReport i => some i
  | _ => none

/-- Steps leave the agenda. -/
def State.forget (s : State) (p : Instr → Bool) : State := { s with agenda := s.agenda.filter (fun e => !p e.2) }

/-! ## Nodes -/

/-- The node runs no more. -/
def NodeSt.over : NodeSt → Bool
  | .completed => true
  | .failed => true
  | _ => false

/-- The node holds cores. -/
def NodeSt.live : NodeSt → Bool
  | .running => true
  | .displaced => true
  | _ => false

/-- Absolute cores of a node. -/
def State.nodeCores (s : State) (n : Node) : List Nat :=
  (List.range (n.hHi + 1 - n.hLo)).map (fun i => (s.vd n.vd).qbase + n.hLo + i)

/-- A core of a node that ends: its threads are gone, its engines empty, and no node is bound to it (13 R309, 17 R378). -/
def Core.emptied (k : Core) : Core :=
  { k with slots := Vector.replicate 4 none, yielded := [], press := [], wm := none, wmWait := [], groups := [], bound := none,
           early := false, matched := none, halted := false, stopAt := none, settled := 0 }

def State.emptyCores (s : State) (node : Nat) : State :=
  { (s.forget (fun i => (coreStep i).any (fun c => (s.core c).bound == some node))) with
    cores := s.cores.map (fun (c, k) => (c, if k.bound = some node then k.emptied else k)) }

/-- An abandoned write is performed before the end or never, whole for an access, in whole chunks for a copy; which is left open
(17 R378). Copies that have not registered perform nothing. -/
def State.abandonOp (s : State) (o : Op) : State :=
  let f := Config.freeNat s.fresh
  let t : State := s.drawn
  match o.kind with
  | .access a =>
    if a.performed || f % 2 = 0 then t
    else
      match t.homeLocs o.node a.locs with
      | none => t
      | some hs =>
        if a.home.isSome then (t.performHome o.node (t.writesNow { a with locs := hs }) a hs).2.2
        else (t.touchFor o a).performAt a |>.2.2
  | .copy c =>
    if !c.registered then t
    else ((c.chunks.zip c.clss).take (f % (c.chunks.length + 1))).foldl (fun st (ch, cls) => st.homeStore o.node cls ch) t
  | _ => t

/-- The writes of a core's Press and Watermark operations, each performed or not (17 R378). A drain behind an earlier operation on its tile
has nothing to write yet. -/
def State.abandonCore (s : State) (c : Nat) : State :=
  let k := s.core c
  let first (p : PressOp) : Bool := !(k.press.takeWhile (fun q => q.id != p.id)).any (fun q => q.acc == p.acc)
  let ws := (k.press.filter first).map (fun p => p.stores c (k.tile p.acc) s.spad) ++ (match k.wm with
    | none => []
    | some w => [(w.stores c).map (fun (x, b) => (⟨false, x⟩, b))])
  ws.foldl (fun st w => if Config.freeNat st.fresh % 2 = 0 then st.drawn else st.drawn.storeLocs w) s

/-- The operations of a node are gone, with their messages that have not left this device (17 R378). -/
def State.dropOps (s : State) (node : Nat) : State :=
  let mine (i : Option Nat) : Bool := i.any (fun id => (tabGet s.ops id).any (fun o => o.node == node))
  { s.forget (fun i => match i with
      | .headboxRequest _ h => mine h.op
      | _ => false) with
    ops := s.ops.filter (fun (_, o) => o.node != node)
    egress := s.egress.filter (fun e => !mine e.2.2.primitive) }

/-- Everything that a node has in flight is abandoned. -/
def State.abandonNode (s : State) (node : Nat) : State :=
  let t := (s.ops.filter (fun (_, o) => o.node == node)).foldl (fun st (_, o) => st.abandonOp o) s
  let u := ((t.cores.filter (fun (_, k) => k.bound == some node)).map (fun x => x.1)).foldl (fun st c => st.abandonCore c) t
  u.dropOps node

/-- The stream of a node and its saved cores are given up (13 R313). -/
def State.dropNode (s : State) (node : Nat) : State :=
  { (s.forget (fun i => (streamStep i).any (fun j => (tabGet s.streams j).any (fun t => t.node == node)))) with
    streams := s.streams.filter (fun (_, t) => t.node != node)
    saved := s.saved.filter (fun (k, _) => k / 8192 != node) }

/-- A node that ends leaves its stream and the pre-emption ladder (13 R308, R326). -/
def Node.ended (n : Node) (st : NodeSt) : Node :=
  { n with st := st, stream := Option.none, ladder := .running, victims := [], resumeAt := Option.none, killAt := Option.none, restoring := [] }

/-- A node that is Failed: its cores are emptied and its stream is freed (13 R308, 17 R368, R378). -/
def State.failNode (s : State) (node : Nat) : State :=
  if (s.node node).st.over then s
  else ((s.abandonNode node).emptyCores node).dropNode node |>.modNode node (·.ended .failed)

/-- Two nodes of one replay. -/
def Node.sameReplay (a b : Node) : Bool :=
  a.test.isNone && b.test.isNone && a.vd == b.vd && a.mould == b.mould && a.replay == b.replay && a.age == b.age

/-- A node that is Completed: its tokens are released and each successor's count falls (13 R308). -/
def State.completeNode (s : State) (node : Nat) : State :=
  let n := s.node node
  if n.st.over then s
  else
    let t := (s.emptyCores node).dropNode node |>.modNode node (·.ended .completed)
    { t with nodes := t.nodes.map (fun (i, m) =>
        if m.sameReplay n && m.st == .pending then
          let c := m.count - m.desc.preds.count n.index
          (i, { m with count := c, st := if c = 0 then .ready else .pending })
        else (i, m)) }

/-- The replay of a node goes on: a node of it is ready or holds cores (13 R307, R308). -/
def State.inReplay (s : State) (n : Node) : Bool := s.nodes.any (fun (_, m) => m.sameReplay n && (m.st.live || m.st == .ready))

/-- A replay that is over and has a Failed node completes with error status (13 R308). -/
def State.noteErrored (s : State) : State :=
  (s.nodes.filter (fun (_, n) => n.test.isNone && n.st == .failed && !s.inReplay n)).foldl (fun st (_, n) =>
    st.modVd n.vd (fun v => { v with errored := if v.errored.contains (n.mould, n.age) then v.errored else v.errored ++ [(n.mould, n.age)] })) s

/-- The nodes of a replay that is over leave the table. -/
def State.dropReplays (s : State) : State :=
  { s.noteErrored with nodes := s.nodes.filter (fun (_, n) => if n.test.isSome then !n.st.over else s.inReplay n) }

/-- Every thread of a node has exited and its stream has reached END; a node that has been asked to leave runs on until then (02 R56,
13 R308, R326). -/
def State.nodeDone (s : State) (node : Nat) : Bool :=
  let n := s.node node
  n.st.live && n.launched && (n.ladder == .running || n.ladder == .soft) &&
    (match n.stream.bind (tabGet s.streams) with
    | none => false
    | some t => t.ended && t.opened && t.buf.isEmpty && t.firing.isEmpty) &&
    s.cores.all (fun (_, k) => (k.ofNode node).isEmpty) && s.saved.all (fun (k, _) => k / 8192 != node)

end Sys2Proof.Machine
end

