-- ==== Sys2Proof/Machine/CmdProc.lean ====
section
/-!
DEFINITION. The command processors (13_progress_scheduling.md R295 to R306): queues, packets of both formats, errors, moulds.
-/
namespace Sys2Proof.Machine

/-! ## Queues -/

def Vd.queue (v : Vd) (q : Fin 64) : Queue := v.queues[q]

def State.queue (s : State) (vd : Fin 8) (q : Fin 64) : Queue := (s.vd vd).queue q

def State.modQueue (s : State) (vd : Fin 8) (q : Fin 64) (f : Queue → Queue) : State :=
  s.modVd vd (fun v => { v with queues := v.queues.set q (f v.queues[q]) })

/-- Words of the ring (13 R296). -/
def Queue.words (x : Queue) : Nat := 2 ^ x.size / 4

/-- INDIRECT buffers that are used up leave the chain: work goes on after their packet (13 R299). -/
def dropEnded : List Frm → List Frm
  | [] => []
  | f :: t => if f.next ≥ f.words then dropEnded t else f :: t

def Queue.norm (x : Queue) : Queue := { x with chain := dropEnded x.chain }

/-- Address of word i from the place at which the queue stands. -/
def Queue.addr (x : Queue) (i : Nat) : Word :=
  match x.chain with
  | [] => x.ring + BitVec.ofNat 64 (4 * ((x.rptr + i) % x.words))
  | f :: _ => f.addr + BitVec.ofNat 64 (4 * (f.next + i))

/-- Words that stand there: those written on the ring, or those left of the buffer. -/
def Queue.avail (x : Queue) : Nat :=
  match x.chain with
  | [] => (x.wptr % x.words + x.words - x.rptr % x.words) % x.words
  | f :: _ => f.words - f.next

/-- The queue goes past n words. -/
def Queue.advance (x : Queue) (n : Nat) : Queue :=
  match x.chain with
  | [] => { x with rptr := (x.rptr + n) % x.words }
  | f :: t => { x with chain := { f with next := f.next + n } :: t }

/-- A packet is done: the queue stands at the next. -/
def State.packetDone (s : State) (vd : Fin 8) (q : Fin 64) (words : Nat) : State :=
  s.modQueue vd q (fun x => { (x.advance words).norm with hold := none })

/-- QSTAT (13 R296). -/
def Queue.qstat (x : Queue) : Word := BitVec.ofNat 64 ((if x.err then 2 ^ 63 else 0) + x.depth % 16 * 256 + x.code % 256)

/-- The context of a queue; 0 where it has none, and then no address translates but by chance of context 0 (13 R297 serves no such queue). -/
def State.ctxOf (s : State) (vd : Fin 8) (q : Fin 64) : Nat := (s.queueCtx vd q.val).getD 0

/-- An error stops the queue: QSTAT, QERRA, an error record and an interrupt; service goes on after the packet once ERR is cleared
(13 R296, R301, 19 R392). -/
def State.stopQueue (s : State) (vd : Fin 8) (q : Fin 64) (code words : Nat) : State :=
  let x := (s.queue vd q).norm
  let y : Queue := { (x.advance (max 1 words)).norm with
    err := true, code := code, depth := x.chain.length, erra := x.addr 0, hold := none }
  ((s.modQueue vd q (fun _ => y)).sendRecord (s.vdRecord 3 vd (s.ctxOf vd q) y.qstat)).msix vd.val 0

/-! ## Memory of a queue -/

/-- Places of a packet's range. -/
def State.pktLocs (s : State) (vd : Fin 8) (q : Fin 64) (va : Word) (n : Nat) (need : Need) : Except (Xlat × Word) (List Loc) :=
  s.vaLocs vd (s.ctxOf vd q) va n need

/-- Bytes of a range written by the command processor. -/
def State.pktStore (s : State) (vd : Fin 8) (q : Fin 64) (va : Word) (ls : List Loc) (x : Nat) : State :=
  s.vaStoreNat vd (s.ctxOf vd q) va ls x

/-- The command processor has read a range. -/
def State.pktRead (s : State) (vd : Fin 8) (q : Fin 64) (va : Word) (ls : List Loc) : State := s.vaTouch vd (s.ctxOf vd q) va false ls

/-- The 32-bit words at places. -/
def State.wordsAt (s : State) (ls : List Loc) : List Word32 :=
  (List.range (ls.length / 4)).map (fun i => BitVec.ofNat 32 (s.locsNat ((ls.drop (4 * i)).take 4)))

/-- The places of a word of the queue. -/
def State.qLocs (s : State) (vd : Fin 8) (q : Fin 64) (i : Nat) : Except (Xlat × Word) (List Loc) :=
  s.pktLocs vd q ((s.queue vd q).norm.addr i) 4 ⟨true, false, false⟩

/-- A word of the queue; none where its address cannot be read. -/
def State.qWord (s : State) (vd : Fin 8) (q : Fin 64) (i : Nat) : Option Word32 :=
  match s.qLocs vd q i with
  | .ok ls => some (BitVec.ofNat 32 (s.locsNat ls))
  | .error _ => none

/-- An engine holds bytes of a word of the queue (10 R257). -/
def State.qHeld (s : State) (vd : Fin 8) (q : Fin 64) (i : Nat) : Bool :=
  match s.qLocs vd q i with
  | .ok ls => s.anyHeld ls
  | .error _ => false

/-- A packet's effect on memory through a range, or the queue stops with code 5; a range that an engine holds is waited for, the packet
then stands where it is (10 R257, 13 R301). -/
def State.onPkt (s : State) (vd : Fin 8) (q : Fin 64) (words : Nat) (va : Word) (n : Nat) (need : Need) (k : List Loc → State) : State :=
  match s.pktLocs vd q va n need with
  | .error _ => s.stopQueue vd q 5 words
  | .ok ls => if (if need.w then s.anyHeldW ls else s.anyHeld ls) then s else k ls

/-- The words of a WRITE that stand before the first that faults (13 R301, code 5). -/
def State.okWords (s : State) (vd : Fin 8) (q : Fin 64) (va : Word) : List Word32 → List (List Loc × Word32)
  | [] => []
  | d :: t =>
    match s.pktLocs vd q va 4 ⟨false, true, false⟩ with
    | .error _ => []
    | .ok ls => (ls, d) :: s.okWords vd q (va + 4) t

/-- Data words stored in ascending order; whether all were. -/
def State.writeWords (s : State) (vd : Fin 8) (q : Fin 64) (va : Word) (data : List Word32) : Option (State × Bool) :=
  let ws := s.okWords vd q va data
  if s.anyHeldW (ws.flatMap (fun x => x.1)) then none
  else
    let t := ws.foldl (fun st (ls, d) => st.storeLocs (ls.zip (leBytes 4 d.toNat))) s
    some (t.vaTouch vd (s.ctxOf vd q) va true (ws.flatMap (fun x => x.1)), ws.length == data.length)

/-- SIGNAL's action (13 R299). -/
def signalNew (op : SignalOp) (old : Nat) (val : Word) : Nat :=
  match op with
  | .set => val.toNat
  | .add => (old + val.toNat) % 2 ^ 64

/-! ## The packets (13 R299) -/

def execWrite (vd : Fin 8) (q : Fin 64) (addr : PktAddr) (data : List Word32) (s : State) : Out :=
  match s.writeWords vd q addr data with
  | none => .next s
  | some (t, true) => .next (t.packetDone vd q (3 + data.length))
  | some (t, false) => .next (t.stopQueue vd q 5 (3 + data.length))

def execSignal (vd : Fin 8) (q : Fin 64) (addr : PktAddr) (op : SignalOp) (val : Word) (s : State) : Out :=
  .next (s.onPkt vd q 6 addr 8 ⟨true, true, false⟩ (fun ls => (s.pktStore vd q addr ls (signalNew op (s.locsNat ls) val)).packetDone vd q 6))

/-- CMP of WAIT-VALUE. -/
def waitHolds (cmp : WaitCmp) (x val : Word) : Bool :=
  match cmp with
  | .eq => x == val
  | .ne => x != val
  | .geu => decide (val.toNat ≤ x.toNat)
  | .ltu => decide (x.toNat < val.toNat)

/-- WAIT-VALUE: the queue goes on, or is held at it. -/
def execWaitValue (vd : Fin 8) (q : Fin 64) (addr : PktAddr) (cmp : WaitCmp) (val mask : Word) (s : State) : Out :=
  .next (s.onPkt vd q 8 addr 8 ⟨true, false, false⟩ (fun ls =>
    if waitHolds cmp (BitVec.ofNat 64 (s.locsNat ls) &&& mask) val then (s.pktRead vd q addr ls).packetDone vd q 8
    else s.modQueue vd q (fun x => { x with hold := some (.value addr cmp val mask) })))

/-- A held WAIT-VALUE whose condition holds now (13 R297). -/
def execWaitValueComplete (vd : Fin 8) (q : Fin 64) (s : State) : Out :=
  match (s.queue vd q).hold with
  | some (.value addr cmp val mask) => execWaitValue vd q addr cmp val mask s
  | _ => .next s

/-- WRITE-SIGNAL: the signal comes after every data word (13 R299, 17 R377). -/
def execWriteSignal (vd : Fin 8) (q : Fin 64) (addr saddr : PktAddr) (op : SignalOp) (val : Word) (data : List Word32) (s : State) : Out :=
  let words := 8 + data.length
  match s.writeWords vd q addr data with
  | none => .next s
  | some (t, false) => .next (t.stopQueue vd q 5 words)
  | some (t, true) =>
    match t.pktLocs vd q saddr 8 ⟨true, true, false⟩ with
    | .error _ => .next (t.stopQueue vd q 5 words)
    | .ok ls => if t.anyHeldW ls then .next s else .next ((t.pktStore vd q saddr ls (signalNew op (t.locsNat ls) val)).packetDone vd q words)

/-- Two address ranges meet. -/
def rangesMeet (a n b m : Nat) : Bool := decide (a < b + m ∧ b < a + n)

/-- INDIRECT (13 R300): nesting and overlap are found before the buffer is read. -/
def execIndirect (vd : Fin 8) (q : Fin 64) (addr : PktAddr) (nwi : Nat) (s : State) : Out :=
  let x := (s.queue vd q).norm
  if x.chain.length ≥ 4 then .next (s.stopQueue vd q 3 4)
  else if rangesMeet addr.toNat (4 * nwi) x.ring.toNat (2 ^ x.size)
      || x.chain.any (fun f => rangesMeet addr.toNat (4 * nwi) f.addr.toNat (4 * f.words)) then .next (s.stopQueue vd q 4 4)
  else .next (s.modQueue vd q (fun _ => let y := x.advance 4; { y with chain := ⟨addr, nwi, 0⟩ :: y.chain }))

/-- TIMESTAMP. -/
def execTimestamp (vd : Fin 8) (q : Fin 64) (addr : PktAddr) (s : State) : Out :=
  .next (s.onPkt vd q 3 addr 8 ⟨false, true, false⟩ (fun ls => (s.pktStore vd q addr ls s.clk).packetDone vd q 3))

/-- Every earlier packet of the queue, and every node that they started, has completed (13 R299). -/
def State.fenceClear (s : State) (vd : Fin 8) (q : Fin 64) : Bool :=
  !s.nodes.any (fun (_, n) => n.vd == vd && n.queue == q.val) && !(s.vd vd).loads.any (fun (_, l) => l.queue == q.val)

def execFencePacket (vd : Fin 8) (q : Fin 64) (s : State) : Out :=
  if s.fenceClear vd q then .next (s.packetDone vd q 1) else .next (s.modQueue vd q (fun x => { x with hold := some .fence }))

def execFencePacketComplete (vd : Fin 8) (q : Fin 64) (s : State) : Out :=
  match (s.queue vd q).hold with
  | some .fence => execFencePacket vd q s
  | _ => .next s

/-! ## PULL (13 R305 to R307) -/

/-- An entry of a patch table: node, offset and value; and whether its reserved fields are zero. -/
structure Patch where
  node : Nat
  off  : Nat
  val  : Word
  ok   : Bool
  deriving DecidableEq, Repr

def patchOf (w0 w1 w2 w3 : Word32) : Patch :=
  ⟨(w1.extractLsb' 0 16).toNat, (w0.extractLsb' 0 16).toNat, w3 ++ w2, w0.extractLsb' 16 16 == 0 && w1.extractLsb' 16 16 == 0⟩

def patchesOf : List Word32 → List Patch
  | w0 :: w1 :: w2 :: w3 :: t => patchOf w0 w1 w2 w3 :: patchesOf t
  | _ => []

/-- A patch table: its VER, its entries, and whether header and entries obey R305. The spec names no code for one that does not, as where COUNT exceeds
1024 or an inline PULL's NW is not 6 + 4 × COUNT: the queue stops with code 2 (DESIGN CHOICE, log 83). -/
def tableOf (ws : List Word32) : Nat × List Patch × Bool :=
  let w0 := ws.getD 0 0
  let n := (w0.extractLsb' 0 16).toNat
  let ps := patchesOf ((ws.drop 2).take (4 * n))
  ((ws.getD 1 0).toNat, ps, w0.extractLsb' 16 16 == 0 && decide (n ≤ 1024) && ps.length == n && ps.all (·.ok))

/-- The field of a patch: its size, where the node has such a field. -/
def mouldField (m : Mould) (p : Patch) : Option Nat :=
  (m.nodes[p.node]?).bind (fun n => (n.fields.find? (fun f => f.1 == p.off)).map (fun f => f.2))

/-- A field's bytes replaced in an argument block. -/
def patchBlock (blk : List Byte) (off : Nat) (bs : List Byte) : List Byte :=
  (List.range (max blk.length (off + bs.length))).map (fun i =>
    if off ≤ i && decide (i < off + bs.length) then bs.getD (i - off) 0 else blk.getD i 0)

/-- The private argument block of node i: each entry for it in table order (13 R306). -/
def mouldArgs (m : Mould) (i : Nat) (d : NodeDesc) (ps : List Patch) : List Byte :=
  ps.foldl (fun blk p => if p.node = i then patchBlock blk p.off (leBytes ((mouldField m p).getD 0) p.val.toNat) else blk) d.args

/-- Replays of a mould that are in flight, by their slots. -/
def State.replays (s : State) (vd : Fin 8) (h : Nat) : List Nat :=
  (s.nodes.filterMap (fun (_, n) => if n.vd = vd ∧ n.mould = h ∧ n.test.isNone then some n.replay else none)).eraseDups

/-- The nodes of a new replay; a copy node has the mould's default priority (01 R21). -/
def Loaded.newNodes (l : Loaded) (vd : Fin 8) (ctx h slot age q : Nat) (ps : List Patch) : List Node :=
  let base (i : Nat) (d : NodeDesc) (cp : Option (List Byte)) : Node :=
    { Node.none with
      vd := vd, ctx := ctx, index := i, mould := h, replay := slot, age := age, queue := q, desc := d, copy := cp
      st := if d.preds.isEmpty then .ready else .pending
      count := d.preds.length
      args := mouldArgs l.body i d ps
      hLo := d.hLo, hHi := d.hHi
      codeVa := l.va + BitVec.ofNat 64 d.codeOff, codeLen := d.codeLen
      imgVa := l.va, imgLen := l.len
      groups := d.groups.foldl (fun t (g, ms, lv) => tabSet t g ⟨ms, lv⟩) [] }
  (l.body.nodes.zipIdx.map (fun (d, i) => base i d none)) ++
    (l.body.copies.zipIdx.map (fun (c, i) => base (l.body.nodes.length + i) { (default : NodeDesc) with prio := l.body.prio, preds := c.preds } (some c.desc)))

def State.addNodes (s : State) : List Node → State
  | [] => s
  | n :: t => ({ s with nodes := tabSet s.nodes s.nextId n, nextId := s.nextId + 1 } : State).addNodes t

/-- A PULL whose table has been read (13 R301, R305 to R307): codes 7 and 8, in this order and after 2, which the spec leaves open (DESIGN CHOICE, log
83), then one replay. -/
def State.pullTable (s : State) (vd : Fin 8) (q : Fin 64) (h : Nat) (l : Loaded) (inl : Bool) (words : Nat) (table : Option (Nat × List Patch)) :
    State :=
  let v := s.vd vd
  match table with
  | some (ver, ps) =>
    if !inl && decide (ver ≤ l.vlast) then s.stopQueue vd q 7 words
    else if ps.any (fun p => (mouldField l.body p).isNone) then s.stopQueue vd q 8 words
    else
      let t := s.modVd vd (fun v => { v with
        pulls := v.pulls + 1, moulds := if inl then v.moulds else tabSet v.moulds h { l with vlast := ver } })
      (t.addNodes (l.newNodes vd (s.ctxOf vd q) h (((List.range 4).find? (fun i => !(s.replays vd h).contains i)).getD 0) v.pulls q.val ps)).packetDone
        vd q words
  | none =>
    ((s.modVd vd (fun v => { v with pulls := v.pulls + 1 })).addNodes
      (l.newNodes vd (s.ctxOf vd q) h (((List.range 4).find? (fun i => !(s.replays vd h).contains i)).getD 0) v.pulls q.val [])).packetDone
      vd q words

/-- The places of a patch table in memory: of its header alone where COUNT is out of range or the header is held, else of its entries too. -/
def State.tableLocs (s : State) (vd : Fin 8) (q : Fin 64) (va : Word) : Except (Xlat × Word) (List Loc) :=
  match s.pktLocs vd q va 8 ⟨true, false, false⟩ with
  | .error e => .error e
  | .ok hd =>
    let n := s.locsNat (hd.take 2)
    if s.anyHeld hd || decide (n > 1024) then .ok hd else s.pktLocs vd q va (8 + 16 * n) ⟨true, false, false⟩

/-- PULL: `table` holds the words of an inline table; without one, words past the fourth say nothing. A fifth replay waits, and so does a table
of which an engine holds bytes, the packet standing where it is (10 R257, 13 R306, R307). -/
def execPull (vd : Fin 8) (q : Fin 64) (mh : Word32) (paddr : PktAddr) (table : List Word32) (s : State) : Out :=
  let h := mh.toNat % 64
  let inl := mh[31]
  let words := 4 + table.length
  match tabGet (s.vd vd).moulds h with
  | none => .next (s.stopQueue vd q 6 words)
  | some l =>
    if (s.replays vd h).length ≥ 4 then .next s
    else if inl then
      let (ver, ps, ok) := tableOf table
      .next (if ok then s.pullTable vd q h l true words (some (ver, ps)) else s.stopQueue vd q 2 words)
    else if paddr = 0 then .next (s.pullTable vd q h l false words none)
    else
      match s.tableLocs vd q paddr with
      | .error _ => .next (s.stopQueue vd q 5 words)
      | .ok ls =>
        if s.anyHeld ls then .next s
        else
          let (ver, ps, ok) := tableOf (s.wordsAt ls)
          .next (if ok then (s.pktRead vd q paddr ls).pullTable vd q h l false words (some (ver, ps)) else s.stopQueue vd q 2 words)

/-! ## REAM-LOAD and SELFTEST (13 R299, 10 R239, 17 R384) -/

/-- Absolute cores FIRST to LAST of a quire. -/
def Vd.coresOf (v : Vd) (first last : Nat) : List Nat := (List.range (last + 1 - first)).map (fun i => v.qbase + first + i)

/-- A node of the virtual device holds one of the cores. -/
def State.runsOn (s : State) (vd : Fin 8) (cs : List Nat) : Bool :=
  s.nodes.any (fun (_, n) => n.vd == vd && n.st.live && (s.nodeCores n).any (fun c => cs.contains c))

/-- Source of the slice of core number i of a REAM-LOAD. -/
def reamSrc (l : ReamLoad) (i : Nat) : Word := l.src + l.sstr.signExtend 64 * BitVec.ofNat 64 i

/-- REAM-LOAD waits until no node runs on its cores; then its copy completes within the bound of R299. -/
def execReamLoad (vd : Fin 8) (q : Fin 64) (ld : ReamLoad) (s : State) : Out :=
  let v := s.vd vd
  let cs := v.coresOf ld.first ld.last
  let n := cs.length
  if ld.first > ld.last ∨ ld.last ≥ v.qlen ∨ ld.roff + ld.len > v.reamk * 65536 then .next (s.stopQueue vd q 10 7)
  else if s.runsOn vd cs then .next s
  else if (List.range n).any (fun i => match s.pktLocs vd q (reamSrc ld i) ld.len ⟨true, false, false⟩ with
      | .ok _ => false
      | .error _ => true) then .next (s.stopQueue vd q 5 7)
  else
    let c := max 1 v.channels.length
    let bound := 4000 + (ld.len * n + 128 * c - 1) / (128 * c) + (ld.len + 63) / 64
    let id := s.nextId
    .next ((({ s with nextId := id + 1 } : State).modVd vd (fun v => { v with loads := tabSet v.loads id ⟨ld, q.val, s.ctxOf vd q⟩ })).dueWithin bound
      (.reamLoadComplete vd id) |>.packetDone vd q 7)

/-- Blocks of a Ream slice that a slice's new bytes poison: those whose source bytes are poisoned (17 R383). -/
def reamPoison (s : State) (key : Nat) (ls : List Loc) : List Nat :=
  ((List.range (ls.length / 64)).filter (fun b => ((ls.drop (64 * b)).take 64).any s.poisoned)).map (fun b => key / 64 + b)

/-- One slice of a REAM-LOAD: whole blocks are replaced (17 R383). A page that is gone since the acceptance leaves its slice as it was. -/
def State.loadSlice (s : State) (vd : Fin 8) (ctx key len : Nat) (src : Word) : State :=
  match s.vaLocs vd ctx src len ⟨true, false, false⟩ with
  | .error _ => s
  | .ok ls => { s.vaTouch vd ctx src false ls with
      ream := memPut s.ream key (ls.map s.readLoc)
      poisonR := s.poisonR.filter (fun b => b < key / 64 || key / 64 + len / 64 ≤ b) ++ reamPoison s key ls }

/-- The slices of a REAM-LOAD, and its end. -/
def State.loadSlices (s : State) (vd : Fin 8) (id : Nat) (l : Loading) : State :=
  let t := (((s.vd vd).coresOf l.body.first l.body.last).zipIdx).foldl (fun st (c, i) =>
    st.loadSlice vd l.ctx (c * Config.reamBytes + l.body.roff) l.body.len (reamSrc l.body i)) s
  t.modVd vd (fun v => { v with loads := tabErase v.loads id })

/-- An engine holds bytes of a slice's source (10 R257). -/
def State.loadHeld (s : State) (vd : Fin 8) (l : Loading) : Bool :=
  (List.range (l.body.last + 1 - l.body.first)).any (fun i => match s.vaLocs vd l.ctx (reamSrc l.body i) l.body.len ⟨true, false, false⟩ with
    | .error _ => false
    | .ok ls => s.anyHeld ls)

/-- Two REAM-LOADs share a core. -/
def Loading.meets (l m : Loading) : Bool := decide (m.body.first ≤ l.body.last ∧ l.body.first ≤ m.body.last)

/-- The REAM-LOADs that are to be complete with one: itself, and those accepted before it that share a core with it or with one of these, which come
first (10 R239, 13 R299). -/
def Vd.loadsUpTo (v : Vd) (id : Nat) : List (Nat × Loading) :=
  v.loads.foldr (fun (j, m) l => if j = id ∨ (j < id ∧ l.any (fun x => m.meets x.2)) then (j, m) :: l else l) []

def execReamLoadComplete (vd : Fin 8) (id : Nat) (s : State) : Out :=
  match tabGet (s.vd vd).loads id with
  | none => .next s
  | some _ =>
    let ls := (s.vd vd).loadsUpTo id
    if ls.any (fun (_, m) => s.loadHeld vd m) then .next (s.due (s.clk + 1) (.reamLoadComplete vd id))
    else .next (ls.foldl (fun st (j, m) => st.loadSlices vd j m) s)

/-- SELFTEST queues a self-test node at its queue's priority (17 R384). -/
def execSelftest (vd : Fin 8) (q : Fin 64) (st : SelfTest) (s : State) : Out :=
  let v := s.vd vd
  if st.first > st.last ∨ st.last ≥ v.qlen then .next (s.stopQueue vd q 10 5)
  else
    match s.pktLocs vd q st.addr (32 + 8 * (st.last + 1 - st.first)) ⟨false, true, false⟩ with
    | .error _ => .next (s.stopQueue vd q 5 5)
    | .ok _ =>
      let n : Node := { Node.none with
        vd := vd, ctx := s.ctxOf vd q, age := v.pulls, queue := q.val, desc := { (default : NodeDesc) with prio := (s.queue vd q).pri }
        test := some (st, 0), st := .ready, hLo := st.first, hHi := st.last }
      .next (((s.modVd vd (fun v => { v with pulls := v.pulls + 1 })).addNodes [n]).packetDone vd q 5)

/-! ## Reading a packet (13 R298, R299, R302) -/

/-- A 64-bit value in a body, low word first. -/
def w64 (ws : List Word32) (i : Nat) : Word := ws.getD (i + 1) 0 ++ ws.getD i 0

def signalOp (w : Word32) : Option SignalOp := if w = 0 then some .set else if w = 1 then some .add else none

def waitCmp (w : Word32) : Option WaitCmp :=
  if w = 0 then some .eq else if w = 1 then some .ne else if w = 2 then some .geu else if w = 3 then some .ltu else none

def multipleOf (n : Nat) (a : Word) : Bool := a.toNat % n == 0

/-- The v3 kinds with NW and whether it is exact. -/
def kindWords (kind : Nat) : Option (Nat × Bool) :=
  match kind with
  | 1 => some (4, false) | 2 => some (6, true) | 3 => some (8, true) | 4 => some (9, false) | 5 => some (4, true)
  | 6 => some (4, false) | 7 => some (7, true) | 8 => some (5, true) | 9 => some (3, true) | 10 => some (1, true)
  | _ => none

/-- The v3 kind of a v2 one (13 R302). -/
def v2Kind (k : Nat) : Option Nat :=
  match k with
  | 1 => some 1 | 2 => some 2 | 3 => some 3 | 4 => some 5 | 5 => some 9 | 6 => some 10
  | _ => none

/-- The step of a packet of a kind whose NW is right, none where its body breaks R299 (code 2). `ws` are its NW words. -/
def packetStep (vd : Fin 8) (q : Fin 64) (kind : Nat) (ws : List Word32) : Option Instr :=
  match kind with
  | 1 => if multipleOf 4 (w64 ws 1) then some (.write vd q (w64 ws 1) (ws.drop 3)) else none
  | 2 => if multipleOf 8 (w64 ws 1) then (signalOp (ws.getD 3 0)).map (fun op => .signal vd q (w64 ws 1) op (w64 ws 4)) else none
  | 3 => if multipleOf 8 (w64 ws 1) then (waitCmp (ws.getD 3 0)).map (fun c => .waitValue vd q (w64 ws 1) c (w64 ws 4) (w64 ws 6)) else none
  | 4 =>
    if multipleOf 4 (w64 ws 1) && multipleOf 8 (w64 ws 3) then
      (signalOp (ws.getD 5 0)).map (fun op => .writeSignal vd q (w64 ws 1) (w64 ws 3) op (w64 ws 6) (ws.drop 8))
    else none
  | 5 =>
    let n := (ws.getD 3 0).toNat
    if multipleOf 4 (w64 ws 1) && decide (1 ≤ n ∧ n ≤ 2 ^ 20) then some (.indirect vd q (w64 ws 1) n) else none
  | 6 =>
    let mh := ws.getD 1 0
    if mh &&& 0x7FFFFFC0 ≠ 0 then none
    else if mh[31] then
      (if ws.length == 6 + 4 * ((ws.getD 4 0).toNat % 65536) then some (.pull vd q mh (w64 ws 2) (ws.drop 4)) else none)
    else some (.pull vd q mh (w64 ws 2) (ws.drop 4))
  | 7 =>
    let cores := ws.getD 3 0
    let roff := (ws.getD 4 0).toNat
    let len := (ws.getD 5 0).toNat
    if cores &&& 0xF000F000 = 0 ∧ roff % 64 = 0 ∧ len % 64 = 0 then
      some (.reamLoad vd q ⟨w64 ws 1, (cores.extractLsb' 0 12).toNat, (cores.extractLsb' 16 12).toNat, roff, len, ws.getD 6 0⟩)
    else none
  | 8 =>
    let cores := ws.getD 1 0
    let tset := ws.getD 2 0
    if cores &&& 0xF000F000 = 0 ∧ tset.toNat < 256 ∧ multipleOf 8 (w64 ws 3) then
      some (.selftest vd q ⟨(cores.extractLsb' 0 12).toNat, (cores.extractLsb' 16 12).toNat, tset.toNat, w64 ws 3⟩)
    else none
  | 9 => if multipleOf 8 (w64 ws 1) then some (.timestamp vd q (w64 ws 1)) else none
  | 10 => some (.fencePacket vd q)
  | _ => none

/-- What a header says: a kind of the v3 table, or the code of the error. A v2 kind with no counterpart is found before a reserved field or a
wrong NW, an order that 13 R301 leaves open (DESIGN CHOICE, log 70). -/
def headerKind (h : Word32) : Except Nat Nat :=
  let ver := h.toNat % 256
  let nw := (h.extractLsb' 12 12).toNat
  let kind : Except Nat Nat :=
    if ver = 3 then .ok (h.extractLsb' 24 8).toNat
    else if ver = 2 then
      match v2Kind (h.extractLsb' 28 4).toNat with
      | none => .error 9
      | some k => if h.extractLsb' 24 4 = 0 then .ok k else .error 2
    else .error 1
  match kind with
  | .error e => .error e
  | .ok k =>
    match kindWords k with
    | none => .error 1
    | some (n, exact) => if h.extractLsb' 8 4 ≠ 0 ∨ nw < n ∨ (exact ∧ nw ≠ n) then .error 2 else .ok k

/-- The step of a whole packet, or the code of its error. -/
def packetOf (vd : Fin 8) (q : Fin 64) (ws : List Word32) : Except Nat Instr :=
  match headerKind (ws.getD 0 0) with
  | .error e => .error e
  | .ok k =>
    match packetStep vd q k ws with
    | none => .error 2
    | some i => .ok i

/-- A step that a packet's words name. -/
def execPacket (i : Instr) (s : State) : Out :=
  match i with
  | .write vd q a d => execWrite vd q a d s
  | .signal vd q a op x => execSignal vd q a op x s
  | .waitValue vd q a c x m => execWaitValue vd q a c x m s
  | .indirect vd q a n => execIndirect vd q a n s
  | .timestamp vd q a => execTimestamp vd q a s
  | .fencePacket vd q => execFencePacket vd q s
  | _ => .next s

/-- A packet of format v2 has the effect of its v3 kind (13 R302). -/
def execV2Packet (vd : Fin 8) (q : Fin 64) (pkt : List Word32) (s : State) : Out :=
  match packetOf vd q pkt with
  | .error e => .next (s.stopQueue vd q e pkt.length)
  | .ok i => execPacket i s

/-! ## The choice of a queue (13 R297, 17 R369) -/

/-- What a queue has for the command processor: nothing, a step, or an error with the words to pass. -/
inductive Offer where
  | nothing
  | step (i : Instr)
  | error (code words : Nat)
  deriving DecidableEq, Repr

/-- A packet that waits without holding the command processor: a fifth replay, a REAM-LOAD under a running node. -/
def State.pktWaits (s : State) (vd : Fin 8) (i : Instr) : Bool :=
  match i with
  | .pull _ _ mh _ _ => (s.replays vd (mh.toNat % 64)).length ≥ 4
  | .reamLoad _ _ l => s.runsOn vd ((s.vd vd).coresOf l.first l.last) && decide (l.last < (s.vd vd).qlen)
  | _ => false

/-- The next packet of a queue that is not held. -/
def State.nextPacket (s : State) (vd : Fin 8) (q : Fin 64) (x : Queue) : Offer :=
  if x.avail = 0 then .nothing
  else
    match s.qWord vd q 0 with
    | none => .error 5 1
    | some h => if s.qHeld vd q 0 then .nothing else
      let nw := (h.extractLsb' 12 12).toNat
      if nw > x.avail then (if x.chain.isEmpty then .nothing else .error 2 nw)
      else
        match headerKind h with
        | .error e => .error e nw
        | .ok k =>
          match (List.range nw).mapM (s.qWord vd q) with
          | none => .error 5 nw
          | some ws =>
            if (List.range nw).any (s.qHeld vd q) then .nothing
            else if h.toNat % 256 = 2 then .step (.v2Packet vd q ws)
            else
              match packetStep vd q k ws with
              | none => .error 2 nw
              | some i => if s.pktWaits vd i then .nothing else .step i

/-- What a queue offers; a held queue, the end of its hold. -/
def State.offer (s : State) (vd : Fin 8) (q : Fin 64) : Offer :=
  let x := (s.queue vd q).norm
  match s.queueCtx vd q.val with
  | none => .nothing
  | some c =>
    if !x.en || x.err || tabGet (s.vd vd).ctxSt c == some .switched then .nothing
    else
      match x.hold with
      | some (.value addr cmp val mask) =>
        (match s.pktLocs vd q addr 8 ⟨true, false, false⟩ with
        | .error _ => .step (.waitValueComplete vd q)
        | .ok ls => if !s.anyHeld ls && waitHolds cmp (BitVec.ofNat 64 (s.locsNat ls) &&& mask) val then .step (.waitValueComplete vd q) else .nothing)
      | some .fence => if s.fenceClear vd q then .step (.fencePacketComplete vd q) else .nothing
      | none => s.nextPacket vd q x

/-- The queue to serve: highest priority; the queue of the slice while it lasts, else in rotation after the queue served last. -/
def State.pickQueue (s : State) (vd : Fin 8) : Option (Fin 64 × Offer) :=
  let v := s.vd vd
  let all : List (Fin 64 × Offer) := ((List.range 64).map (fun i => (Fin.ofNat 64 (v.lastQ + i), s.offer vd (Fin.ofNat 64 (v.lastQ + i))))).filter
    (fun x => x.2 != .nothing)
  let top := (all.map (fun x => (s.queue vd x.1).pri)).foldl max 0
  let best := all.filter (fun x => (s.queue vd x.1).pri == top)
  match best with
  | [] => none
  | b :: t => if b.1.val = v.lastQ then (if v.slice < 16 then some b else some (t.headD b)) else some b

/-- The queue whose packet a step of a command processor is. -/
def packetQueue (i : Instr) : Option (Fin 8 × Fin 64) :=
  match i with
  | .write vd q _ _ => some (vd, q) | .signal vd q _ _ _ => some (vd, q) | .waitValue vd q _ _ _ _ => some (vd, q)
  | .waitValueComplete vd q => some (vd, q) | .writeSignal vd q _ _ _ _ _ => some (vd, q) | .indirect vd q _ _ => some (vd, q)
  | .pull vd q _ _ _ => some (vd, q) | .reamLoad vd q _ => some (vd, q) | .selftest vd q _ => some (vd, q) | .timestamp vd q _ => some (vd, q)
  | .fencePacket vd q => some (vd, q) | .fencePacketComplete vd q => some (vd, q) | .v2Packet vd q _ => some (vd, q)
  | _ => none

/-- A step of a command processor on the agenda. -/
def packetVd (i : Instr) : Option (Fin 8) := (packetQueue i).map (·.1)

/-- The words of the packet at which a queue stands have been read. -/
def State.fetched (s : State) (vd : Fin 8) (q : Fin 64) : State :=
  match s.qWord vd q 0 with
  | none => s
  | some h =>
    (List.range ((h.toNat / 2 ^ 12) % 4096)).foldl (fun st i => match s.qLocs vd q i with
      | .ok ls => st.pktRead vd q ((s.queue vd q).norm.addr i) ls
      | .error _ => st) s

/-- The command processor takes its next packet, unless it is at one (13 R297). -/
def State.serve (s : State) (vd : Fin 8) : State :=
  if !(s.vd vd).en || s.agenda.any (fun e => packetVd e.2 == some vd) then s
  else
    match s.pickQueue vd with
    | none => s
    | some (q, o) =>
      let t := (s.cacheCtx vd (s.ctxOf vd q)).modVd vd (fun v => { v with
        lastQ := q.val, slice := if v.lastQ = q.val ∧ v.slice < 16 then v.slice + 1 else 1 })
      match o with
      | .nothing => s
      | .step i => (t.fetched vd q).due (s.clk + 1) i
      | .error code words => t.stopQueue vd q code words

/-! ## The host's side (13 R296, R303, R304) -/

/-- A write to QWPTR. The queue and mould registers of a virtual device that is not formed ignore writes (16 R356). -/
def execDoorbell (vd : Fin 8) (q : Fin 64) (val : Word) (s : State) : Out :=
  if (s.vd vd).formed then .next (s.modQueue vd q (fun x => { x with wptr := (val.extractLsb' 0 22).toNat })) else .next s

/-- A write of 1 to QSTAT.ERR. -/
def execQstatErrClear (vd : Fin 8) (q : Fin 64) (s : State) : Out :=
  if (s.vd vd).formed then .next (s.modQueue vd q (fun x => { x with err := false })) else .next s

/-- Bytes from an address up to the first that cannot be read, at most n. -/
def State.readable (s : State) (vd : Fin 8) (ctx : Nat) (va : Word) (n : Nat) : List Byte :=
  (s.okPrefix vd ctx va n ⟨true, false, false⟩).map s.readLoc

/-- The places that MLOAD's checks read. -/
def State.mouldLocs (s : State) (vd : Fin 8) (va : Word) : List Loc :=
  let ctx := s.lowCtx vd
  let n := (Config.mouldLength (s.readable vd ctx va 4096)).getD 0
  s.okPrefix vd ctx va (max 4096 n) ⟨true, false, false⟩

/-- KiB of Ream share and number of channels enter the configuration hash with the quire length (16 R337). -/
def Vd.hash (v : Vd) : Word := Config.configHash v.qlen (v.reamk * 64) v.channels.length

/-- The outcome of MLOAD's checks, in their order 1, 2, 4, 3 (13 R303): a status, or the mould. -/
def State.checkMould (s : State) (vd : Fin 8) (va : Word) : Except Nat Loaded :=
  let v := s.vd vd
  let ctx := s.lowCtx vd
  match Config.mouldLength (s.readable vd ctx va 4096) with
  | none => .error 1
  | some len =>
    let img := s.readable vd ctx va len
    if img.length < len || !Config.signatureOk img then .error 1
    else if Config.mouldHash img ≠ v.hash then .error 2
    else
      match Config.mouldOf img with
      | none => .error 4
      | some m =>
        if !m.fits v.qlen len then .error 4
        else if v.moulds.length ≥ 64 then .error 3
        else .ok ⟨va, len, m, 0⟩

/-- MLOAD: MSTAT, an interrupt, and a handle that the spec leaves open among the free ones (13 R303, 19 R392). -/
def execMload (vd : Fin 8) (va : Word) (s : State) : Out :=
  if !(s.vd vd).formed then .next s
  else if s.anyHeld (s.mouldLocs vd va) then .next (s.due (s.clk + 1) (.mload vd va))
  else match s.checkMould vd va with
  | .error st => .next ((s.modVd vd (fun v => { v with mdone := true, mhandle := 0, mstat := st })).msix vd.val 1)
  | .ok l =>
    let s := s.vaTouch vd (s.lowCtx vd) va false (s.mouldLocs vd va)
    let free := (List.range 64).filter (fun h => (tabGet (s.vd vd).moulds h).isNone)
    let h := free.getD (Config.freeNat s.fresh % free.length) 0
    .next ((s.drawn.modVd vd (fun v => { v with moulds := tabSet v.moulds h l, mdone := true, mhandle := h, mstat := 0 })).msix vd.val 1)

/-- MFREE waits until no replay of the mould runs (13 R303). -/
def execMfree (vd : Fin 8) (h : Nat) (s : State) : Out :=
  if !(s.vd vd).formed then .next s
  else if (s.replays vd h).isEmpty then .next (s.modVd vd (fun v => { v with moulds := tabErase v.moulds h }))
  else .next (s.due (s.clk + 1) (.mfree vd h))

/-- The places on a queue's ring of words that are stored at WPTR; none where they do not fit or the ring cannot be written. -/
def State.ringPlaces (s : State) (vd : Fin 8) (q : Fin 64) (ws : List Word32) : Option (List (Word × List Loc × Word32)) :=
  let x := s.queue vd q
  let used := (x.wptr % x.words + x.words - x.rptr % x.words) % x.words
  if used + ws.length + 1 > x.words then none
  else
    ws.zipIdx.mapM (fun (w, i) =>
      let a := x.ring + BitVec.ofNat 64 (4 * ((x.wptr + i) % x.words))
      match s.pktLocs vd q a 4 ⟨false, true, false⟩ with
      | .ok ls => some (a, ls, w)
      | .error _ => none)

/-- An engine holds a place of the ring that is to be written (10 R257). -/
def State.ringHeld (s : State) (ps : List (Word × List Loc × Word32)) : Bool := ps.any (fun p => s.anyHeldW p.2.1)

/-- The words stored, and the doorbell. -/
def State.ringAppend (s : State) (vd : Fin 8) (q : Fin 64) (ps : List (Word × List Loc × Word32)) : State :=
  (ps.foldl (fun st (a, ls, w) => st.pktStore vd q a ls w.toNat) s).modQueue vd q (fun x => { x with wptr := (x.wptr + ps.length) % x.words })

/-- A write to a PULL register: four words on the ring of the mould's queue, of queue 0 where the handle holds no mould, or PDROP. -/
def execPullWrite (vd : Fin 8) (h : Nat) (val : Word) (s : State) : Out :=
  if val.extractLsb' 0 16 ≠ 0 || !(s.vd vd).formed then .next s
  else
    let q : Fin 64 := Fin.ofNat 64 ((tabGet (s.vd vd).moulds h).map (fun l => l.body.queue) |>.getD 0)
    let ws : List Word32 := [0x06004003, BitVec.ofNat 32 (h % 64), val.extractLsb' 16 32, (val.extractLsb' 48 16).signExtend 32]
    match s.ringPlaces vd q ws with
    | some ps => if s.ringHeld ps then .next (s.due (s.clk + 1) (.pullWrite vd h val)) else .next (s.ringAppend vd q ps)
    | none => .next (s.modVd vd (fun v => { v with pdrop := true }))

end Sys2Proof.Machine
end

