-- ==== Sys2Proof/Machine/Headbox.lean ====
section
/-!
DEFINITION. The Headbox (13_progress_scheduling.md R311, R312): service requests, the service table and its token buckets.
-/
namespace Sys2Proof.Machine

/-! ## Entries of the service table (13 R311) -/

def svcField (e : BitVec 256) (lo n : Nat) : Nat := (e.extractLsb' lo n).toNat

/-- The entry matches a request (13 R312). -/
def svcMatches (e : BitVec 256) (r : HeadboxReq) : Bool :=
  e[128] && decide (svcField e 48 10 ≤ r.src ∧ r.src ≤ svcField e 64 10) && r.svc == svcField e 80 16
    && Nat.land r.tag (svcField e 112 16) == Nat.land (svcField e 96 16) (svcField e 112 16)

/-- The matching entry of lowest index. -/
def Vd.svcFind (v : Vd) (r : HeadboxReq) : Option (Fin 64) :=
  if v.headOff || !v.formed then none else ((List.range 64).map (Fin.ofNat 64)).find? (fun i => svcMatches v.service[i] r)

def svcQueue (e : BitVec 256) : Fin 64 := Fin.ofNat 64 (svcField e 160 6)
def svcRate (e : BitVec 256) : Nat := svcField e 144 16
def svcBurst (e : BitVec 256) : Nat := svcField e 136 8
def svcTlen (e : BitVec 256) : Nat := svcField e 184 8
def svcArglen (e : BitVec 256) : Nat := svcField e 173 11
def svcTmpl (e : BitVec 256) : Word := (e.extractLsb' 192 48).signExtend 64

/-- The places of an entry's template, none where they cannot be read. -/
def State.template (s : State) (vd : Fin 8) (e : BitVec 256) : Option (List Loc) :=
  match s.pktLocs vd (svcQueue e) (svcTmpl e) (4 * svcTlen e) ⟨true, false, false⟩ with
  | .error _ => none
  | .ok ls => some ls

/-- A usable template with n entries more: an inline PULL of format v3 (13 R312, status 5). -/
def templateOk (e : BitVec 256) (ws : List Word32) (n : Nat) : Bool :=
  let h := ws.getD 0 0
  let count := (ws.getD 4 0).toNat % 65536
  h.toNat % 256 == 3 && h.extractLsb' 24 8 == 6 && (ws.getD 1 0)[31] && (h.extractLsb' 12 12).toNat == svcTlen e
    && svcTlen e == 6 + 4 * count && decide (count + n ≤ 1024)

/-- The 32-bit words of bytes, little-endian. -/
def wordsOf (bs : List Byte) : List Word32 :=
  (List.range (bs.length / 4)).map (fun i => BitVec.ofNat 32 (leNat ((bs.drop (4 * i)).take 4)))

/-- The packet that a request makes: NW and COUNT raised by the payload's entries, which follow (13 R312). -/
def servicePacket (ws : List Word32) (payload : List Byte) : List Word32 :=
  let n := payload.length / 16
  let h := ws.getD 0 0
  ((ws.set 0 ((h &&& 0xFF000FFF) ||| BitVec.ofNat 32 (((h.extractLsb' 12 12).toNat + 4 * n) % 4096 * 4096))).set 4
    ((ws.getD 4 0 &&& 0xFFFF0000) ||| BitVec.ofNat 32 ((ws.getD 4 0).toNat % 65536 + n))) ++ wordsOf payload

/-- The checks of a request in the order 1, 4, 5, 2, 3, its status and the state after (13 R312); none while an engine holds bytes that it
reads or writes (10 R257). -/
def State.headbox (s : State) (vd : Fin 8) (r : HeadboxReq) : Option (Nat × State) :=
  let v := s.vd vd
  match v.svcFind r with
  | none => some (1, s)
  | some i =>
    let e := v.service[i]
    let n := r.payload.length / 16
    let q := svcQueue e
    let bad (s : State) : Nat × State := (5, s.sendRecord (s.vdRecord 3 vd (s.ctxOf vd q) (BitVec.ofNat 64 (2 ^ 63 + i.val))))
    if r.payload.length > svcArglen e ∨ r.payload.length % 16 ≠ 0 then some (4, s)
    else
      match s.template vd e with
      | none => some (bad s)
      | some ls =>
        if s.anyHeld ls then none
        else
          let ws := s.wordsAt ls
          let t := s.pktRead vd q (svcTmpl e) ls
          if !templateOk e ws n then some (bad t)
          else if svcRate e ≠ 0 ∧ v.tokens[i] = 0 then some (2, t)
          else
            match t.ringPlaces vd q (servicePacket ws r.payload) with
            | none => some (3, t)
            | some ps =>
              if t.ringHeld ps then none
              else
                let u := t.ringAppend vd q ps
                some (0, if svcRate e = 0 then u else u.modVd vd (fun v => { v with tokens := v.tokens.set i (v.tokens[i] - 1) }))

/-- A service request of another device reaches the Headbox: it is checked against the binding, served, and answered on lane 1, or it waits
(10 R262, 19 R395 to R398). -/
def State.headArrive (s : State) (vd : Fin 8) (r : HeadboxReq) : State :=
  if !s.bound vd.val r.src r.srcVd || r.dstVd != vd.val then s.depart r.src 1 (.answer r.src r 2 0)
  else if s.behind (.headboxRequest vd r) then { s with inbox := s.inbox ++ [.headboxRequest vd r] }
  else
    match s.headbox vd r with
    | none => { s with inbox := s.inbox ++ [.headboxRequest vd r] }
    | some (status, t) => t.depart r.src 1 (.answer r.src r 0 status)

/-- HEADBOX_REQUEST: the status goes back to the requester, to a primitive of this device as its acknowledgement (13 R312, 19 R398). -/
def execHeadboxRequest (vd : Fin 8) (r : HeadboxReq) (s : State) : Out :=
  match r.op with
  | none => .next (s.headArrive vd r)
  | some id =>
    match s.headbox vd r with
    | none => .next (s.due (s.clk + 1) (.headboxRequest vd r))
    | some (status, t) => .next (t.dueWithin 400 (.fabricAck id 0 (leBytes 8 status)))

/-- The requests of other devices that wait at this one are tried again, oldest first. -/
def State.serveInbox (s : State) : State :=
  s.inbox.foldl (fun st i => match i with
    | .fabricRequest src r => st.fabArrive src r
    | .headboxRequest vd r => st.headArrive vd r
    | _ => st) { s with inbox := [] }

/-- One token every RATE × 256 ck, up to BURST (13 R311). -/
def execHeadboxTokenRefill (vd : Fin 8) (entry : Fin 64) (s : State) : Out :=
  let e := (s.vd vd).service[entry]
  if svcRate e = 0 then .next s
  else .next ((s.modVd vd (fun v => { v with tokens := v.tokens.set entry (min (svcBurst e) (v.tokens[entry] + 1)) })).due
    (s.clk + svcRate e * 256) (.headboxTokenRefill vd entry))

end Sys2Proof.Machine
end

