-- ==== Sys2Proof/Machine/Hollander.lean ====
section
/-!
DEFINITION. The Hollander (13_progress_scheduling.md R307 to R310) and the launch of a node (02 R50, R53 to R55).
-/
namespace Sys2Proof.Machine

/-! ## What holds a core -/

/-- The nodes that the cores of a list are bound to, other than n. -/
def State.holders (s : State) (n : Nat) (cs : List Nat) : List Nat := ((cs.filterMap (fun c => (s.core c).bound)).filter (· != n)).eraseDups

/-- Cores of a virtual device whose REAM-LOAD is unfinished (13 R299). -/
def State.loadCores (s : State) (vd : Fin 8) : List Nat :=
  (s.vd vd).loads.flatMap (fun (_, l) => (s.vd vd).coresOf l.body.first l.body.last)

/-- A failed core for which no spare stands in (17 R385). -/
def State.deadCore (s : State) (c : Nat) : Bool := s.failmap.contains c && !s.standIn.contains c

/-- Node n of an earlier replay of the mould has not ended (13 R307). -/
def State.orderWait (s : State) (n : Node) : Bool :=
  n.test.isNone && s.nodes.any (fun (_, m) =>
    m.test.isNone && m.vd == n.vd && m.mould == n.mould && m.index == n.index && decide (m.age < n.age) && !m.st.over)

/-- Free Deckle streams that the quota allows (13 R313, 16 R347). -/
def State.freeStreams (s : State) (vd : Fin 8) : Nat :=
  min ((s.vd vd).dsq - (s.streams.filter (fun (_, t) => (s.node t.node).vd == vd)).length) (32 - s.streams.length)

/-- The free stream that a dispatch binds. -/
def State.freeStream (s : State) (vd : Fin 8) : Option Nat :=
  if s.freeStreams vd = 0 then none else (List.range 32).find? (fun i => (tabGet s.streams i).isNone)

/-- Cores of a node that are saved. -/
def State.savedCores (s : State) (n : Nat) : List Nat := (s.saved.filter (fun (k, _) => k / 8192 == n)).map (fun (k, _) => k % 8192)

/-! ## The choice (13 R309, R310) -/

/-- What the Hollander does next. -/
inductive Hol where
  | dispatch (n : Nat)
  | displace (n : Nat)
  | restore (n : Nat)
  deriving DecidableEq, Repr

/-- Higher priority first, then the older (13 R309). -/
def Node.before (a b : Node) : Bool :=
  decide (a.desc.prio > b.desc.prio) || (a.desc.prio == b.desc.prio && (decide (a.age < b.age) || (a.age == b.age && decide (a.index ≤ b.index))))

/-- Age is the order of the PULLs, then the node index (13 R309). -/
def Node.older (a b : Node) : Bool := decide (a.age < b.age) || (a.age == b.age && decide (a.index < b.index))

def insertBy {α : Type} (le : α → α → Bool) (x : α) : List α → List α
  | [] => [x]
  | y :: t => if le x y then x :: y :: t else y :: insertBy le x t

def sortBy {α : Type} (le : α → α → Bool) (l : List α) : List α := l.foldr (insertBy le) []

/-- A node may be displaced by one of priority p. -/
def State.mayDisplace (s : State) (p o : Nat) : Bool :=
  let n := s.node o
  n.st.live && n.test.isNone && decide (n.desc.prio < p)

/-- The cores of a list that a node holds and that are not asked for yet; none while a save of it is under way (13 R310). -/
def State.furtherCores (s : State) (o : Nat) (cs : List Nat) : List Nat :=
  let n := s.node o
  let mine := cs.filter (fun c => (s.core c).bound == some o)
  match n.ladder with
  | .saving => []
  | .soft => mine.filter (fun c => !n.victims.contains c)
  | .stopping => mine.filter (fun c => !n.victims.contains c)
  | _ => mine

/-- The context of a node is asked to leave, or has left. -/
def State.ctxLeaving (s : State) (n : Node) : Bool := (tabGet (s.vd n.vd).ctxSt n.ctx).isSome

/-- Cores that a node holds. -/
def State.boundCores (s : State) (node : Nat) : List Nat := (s.nodeCores (s.node node)).filter (fun c => (s.core c).bound == some node)

/-- The nodes of other contexts of a virtual device that hold cores of the quire: while they do, their context owns it (02 R38). -/
def State.foreign (s : State) (vd : Fin 8) (ctx : Nat) : List Nat :=
  (s.nodes.filter (fun (i, n) => n.vd == vd && n.ctx != ctx && n.st.live && !(s.boundCores i).isEmpty)).map (·.1)

/-- The nodes that keep a node from some cores: those bound to them, and those of a context that owns the quire (02 R38, 13 R309). -/
def State.blockers (s : State) (i : Nat) (n : Node) (cs : List Nat) : List Nat :=
  (s.holders i cs ++ s.foreign n.vd n.ctx).eraseDups

/-- The cores of a blocker that a node needs: those of its own range, and every one of a node of another context (02 R38, 13 R310; DEDUCED,
log 72). -/
def State.needed (s : State) (n : Node) (o : Nat) (cs : List Nat) : List Nat :=
  s.furtherCores o (if (s.node o).ctx = n.ctx then cs else s.boundCores o)

/-- What the candidates before one have taken: cores, streams, the quire's context; and the Displaced nodes that are not restored yet. -/
structure Chest where
  kept    : List Nat
  streams : Nat
  ctx     : Option Nat
  shut    : List Node
  deriving DecidableEq, Repr

/-- A candidate is younger than a Displaced node of its priority or a higher one that is not restored (13 R309). -/
def Chest.shuts (h : Chest) (n : Node) : Bool := h.shut.any (fun d => decide (n.desc.prio ≤ d.desc.prio) && d.older n)

/-- A candidate takes its cores and the quire. -/
def Chest.take (h : Chest) (n : Node) (cs : List Nat) (streams : Nat) : Chest :=
  { h with kept := cs ++ h.kept, streams := h.streams + streams, ctx := some n.ctx }

/-- Another context takes the quire. -/
def Chest.other (h : Chest) (n : Node) : Bool := h.ctx.any (· != n.ctx)

/-- What the Hollander does for one candidate, and what the candidate takes from later ones. -/
def State.holFor (s : State) (vd : Fin 8) (i : Nat) (n : Node) (h : Chest) : Option Hol × Chest :=
  let busy := s.loadCores vd
  match n.st with
  | .displaced =>
    if s.ctxLeaving n then (none, h)
    else
      let cs := s.savedCores i
      let shut : Chest := { h with shut := n :: h.shut }
      if n.ladder == .saved && n.restoring.isEmpty && !cs.isEmpty && !h.shuts n && (s.blockers i n cs).isEmpty && !h.other n
          && !cs.any h.kept.contains && !cs.any busy.contains then (some (.restore i), shut.take n cs 0)
      else (none, shut)
  | .ready =>
    if s.ctxLeaving n || s.orderWait n || h.shuts n then (none, h)
    else if n.copy.isSome then (some (.dispatch i), h)
    else
      let cs := s.nodeCores n
      if h.other n || cs.any h.kept.contains || cs.any busy.contains then (none, h)
      else
        let hs := s.blockers i n cs
        if hs.isEmpty then
          (if n.test.isSome then (some (.dispatch i), h.take n cs 0)
          else if h.streams < s.freeStreams vd then (some (.dispatch i), h.take n cs 1)
          else (none, h))
        else if !hs.all (s.mayDisplace n.desc.prio) then (none, h)
        else if hs.all (fun o => (s.needed n o cs).isEmpty) then (none, h.take n cs 0)
        else (some (.displace i), h.take n cs 0)
  | _ => (none, h)

def State.holFrom (s : State) (vd : Fin 8) : List (Nat × Node) → Chest → List Hol
  | [], _ => []
  | (i, n) :: t, h =>
    let (a, h') := s.holFor vd i n h
    a.toList ++ s.holFrom vd t h'

/-- The acts of the Hollander that the stuff chest allows, the first first. -/
def State.hollander (s : State) (vd : Fin 8) : List Hol :=
  if !(s.vd vd).en then []
  else s.holFrom vd (sortBy (fun a b => a.2.before b.2)
    (s.nodes.filter (fun (_, n) => n.vd == vd && (n.st == .ready || n.st == .displaced)))) ⟨[], 0, none, []⟩

/-- An act for a node is on its way. -/
def State.holPending (s : State) (node : Nat) : Bool :=
  s.agenda.any (fun e => match e.2 with
    | .nodeDispatch _ n => n == node
    | .displace _ n => n == node
    | .restore n => n == node
    | _ => false)

/-- The Hollander's acts go on the agenda: each dispatch within 2,000 ck from when it can be made (13 R309). -/
def State.hollanderTry (s : State) (vd : Fin 8) : State :=
  (s.hollander vd).foldl (fun st a => match a with
    | .dispatch n => if s.holPending n then st else st.dueWithin 2000 (.nodeDispatch vd n)
    | .displace n => if s.holPending n then st else st.due (s.clk + 1) (.displace vd n)
    | .restore n => if s.holPending n then st else st.due (s.clk + 1) (.restore n)) s

/-! ## Dispatch (13 R309, R313, 17 R384, R385) -/

/-- The mill couch engine takes a copy node (13 R308, DEDUCED, log 15); a descriptor that breaks 11 R277 fails it. -/
def State.startCopy (s : State) (node : Nat) (d : List Byte) : State :=
  let n := s.node node
  match (CopyDescr.ofBytes d).checked (s.vd n.vd) none with
  | .error (k, code, a) => s.failCopyNode node k code a
  | .ok runs =>
    let o : Op := ⟨Config.cores, 0, node, .cp, 0, [.en], .thread, .copy ⟨false, runs, false, [], [], [], [], none, d⟩⟩
    ((s.issue o).dueWithin 1024 (.copyRegistration s.nextOp)).modNode node (fun n => { n with st := .running })

def State.bindCores (s : State) (node : Nat) (cs : List Nat) : State := cs.foldl (fun st c => st.modCore c (fun k => { k with bound := some node })) s

/-- The Hollander dispatches a node that it can dispatch: the node is bound to its cores and to a stream, and its launch completes within
4,000 ck. A node with a failed core is Failed. -/
def State.dispatch (s : State) (vd : Fin 8) (node : Nat) : State :=
  let n := s.node node
  match n.copy with
  | some d => s.startCopy node d
  | none =>
    let cs := s.nodeCores n
    if cs.any s.deadCore then (s.failNode node).sendRecord (s.nodeRecord 6 n 0)
    else
      match n.test with
      | some (st, _) =>
        ((s.bindCores node cs).modNode node (fun n => { n with st := .running, launched := true, test := some (st, s.clk) })).dueWithin
          8000000 (.selftestComplete vd node)
      | none =>
        match s.freeStream vd with
        | none => s
        | some i =>
          let st : Stream := ⟨node, 0, 0, n.groups, [], false, false, [], none, s.nextOp⟩
          (({ (s.bindCores node cs) with streams := tabSet s.streams i st } : State).modNode node (fun n => { n with
            st := .running, stream := some i })).dueWithin 4000 (.launchComplete node)

/-- The nodes that are dispatched with one: those that the Hollander takes before it (13 R309), and itself. -/
def dispatchesUpTo (node : Nat) (l : List Hol) : List Nat :=
  (l.takeWhile (· != .dispatch node)).filterMap (fun a => match a with
    | .dispatch n => some n
    | _ => none) ++ [node]

/-- NODE_DISPATCH: the node that the Hollander chooses, after those of higher priority or greater age that can be dispatched too. -/
def execNodeDispatch (vd : Fin 8) (node : Nat) (s : State) : Out :=
  if !(s.hollander vd).contains (.dispatch node) then .next s
  else .next ((dispatchesUpTo node (s.hollander vd)).foldl (fun st n =>
    if (st.hollander vd).contains (.dispatch n) then st.dispatch vd n else st) s)

/-! ## Launch (02 R50, R55) -/

/-- gids of the groups that hold quire index h, ascending (02 R54). -/
def gidsOf (gs : Tab Group) (h : Nat) : List Nat := (gs.filter (fun (_, g) => g.members.contains h)).map (·.1)

/-- The thread t of quire core h at launch (02 R50). -/
def Node.launchThread (n : Node) (id h t : Nat) : Thread where
  node := id
  blk := BitVec.ofNat 8 ((n.desc.wp + t * 0xC00) / 1024)
  pc := BitVec.ofNat 64 n.desc.entry
  fmt := 0
  rnd := 0
  seed := launchSeed h t
  sigd := 0
  frb := 0
  cnt := Counters.zero
  tstat := 0
  taddr := 0
  tinfo := 0
  handler := false
  awaiting := false
  bank := Vector.replicate 32 0
  lq := Vector.replicate 4 []
  sq := Vector.replicate 2 []
  run := .blocked .start
  stopped := false
  owed := []
  faults := []
  gang := .none
  gangWord := 0
  pend := noPend
  codeFault := false
  eret := Option.none

/-- The workspace of a thread at launch: 3072 bytes (02 R46, R50). -/
def Node.workspace (n : Node) (id h t : Nat) : List Byte :=
  leBytes 8 t ++ leBytes 8 h ++ List.replicate 2416 0 ++
    (List.range 8).flatMap (fun i => leBytes 32 ((n.desc.shapes.find? (fun x => x.1 == i)).map (fun x => x.2.toNat) |>.getD 0)) ++
    (n.launchThread id h t).statusBytes ++ List.replicate 256 0

/-- The scratchpad of quire core h at launch as pieces; every other byte is zero (02 R55). -/
def State.launchPieces (s : State) (id : Nat) (n : Node) (h : Nat) : List (Nat × List Byte) :=
  let secs := ((tabGet (s.vd n.vd).moulds n.mould).map (fun l => l.body.data)).getD []
  (secs.filter (fun d => match d.cores with
      | none => true
      | some (a, b) => decide (a ≤ h ∧ h ≤ b))).map (fun d => (d.off, d.bytes))
    ++ [(0x3FC00, n.args)]
    ++ (List.range n.desc.threads).map (fun t => (n.desc.wp + t * 0xC00, n.workspace id h t))

/-- A core at launch: the rotation goes on after the slot that issued last, the L1s hold what they held, and a core that the stop tree has reached, or
is on its way to, stops with its new threads (02 R45, R55, 13 R327). -/
def Node.launchCore (n : Node) (id h clk : Nat) (k : Core) : Core :=
  { Core.reset with
    slots := Vector.ofFn (fun t => if t.val < n.desc.threads then some { n.launchThread id h t.val with stopped := k.treeStopped clk }
      else Option.none)
    lastSlot := k.lastSlot
    stopAt := k.stopAt
    stopClk := k.stopClk
    settled := k.settled
    plan := n.desc.plan
    groups := gidsOf n.groups h
    bound := some id
    l1d := k.l1d
    l1i := k.l1i }

/-- The launch writes of one core. -/
def State.launchOne (s : State) (id : Nat) (n : Node) (c : Nat) : State :=
  let h := c - (s.vd n.vd).qbase
  let clean : Memory := s.spad.filter (fun (k, _) => k / 2 ^ 18 != c)
  ({ s with spad := (s.launchPieces id n h).foldl (fun m (off, bs) => memPut m (spadKey c off) bs) clean
            poisonS := s.poisonS.filter (fun u => u / 2 ^ 15 != c)
            poisonT := s.poisonT.filter (fun u => u / 8192 != c)
            poisonP := s.poisonP.filter (fun u => u / 512 != c) } : State).setCore c (n.launchCore id h s.clk (s.core c))

/-- An engine whose core goes on has registered bytes of a core's scratchpad, so that its launch and its restore wait (10 R257). One whose core is
saved or stopped holds neither, since it may go on only after them (17 R376; DEDUCED, log 80). -/
def State.coreHeld (s : State) (c : Nat) : Bool :=
  s.ops.any (fun (_, o) => !s.away o && !(s.core o.core).treeStopped s.clk &&
    (o.heldLocs ++ o.readLocs).any (fun l => !l.glob && l.key / 2 ^ 18 == c && !s.imaged o.node l))

/-- LAUNCH_COMPLETE: every core of the node has its items; the threads wait for the opening release. -/
def execLaunchComplete (node : Nat) (s : State) : Out :=
  let n := s.node node
  if n.st ≠ .running ∨ n.launched ∨ n.copy.isSome then .next s
  else if (s.nodeCores n).any s.coreHeld then .next (s.due (s.clk + 1) (.launchComplete node))
  else .next (((s.nodeCores n).foldl (fun st c => st.launchOne node n c) s).modNode node (fun n => { n with launched := true }))

/-! ## Displacement and restore (13 R310, R326, 17 R374) -/

/-- A node goes on the ladder, or its set of victims grows. -/
def State.climb (s : State) (o : Nat) (cs : List Nat) (grace : Nat) (switch : Bool) : State :=
  let n := s.node o
  match n.ladder with
  | .saving => s
  | .soft => s.modNode o (fun n => { n with victims := n.victims ++ cs, switch := n.switch || switch })
  | .stopping => s.modNode o (fun n => { n with victims := n.victims ++ cs, switch := n.switch || switch })
  | _ => (s.modNode o (fun n => { n with ladder := .soft, victims := cs, switch := switch, resumeAt := none, killAt := none })).due (s.clk + grace) (.graceExpiry o)

/-- DISPLACE: the nodes that keep a Ready node from its cores climb the ladder, the lowest priority and then the youngest first. -/
def execDisplace (vd : Fin 8) (node : Nat) (s : State) : Out :=
  if !(s.hollander vd).contains (.displace node) then .next s
  else
    let n := s.node node
    let cs := s.nodeCores n
    let hs := (sortBy (fun a b => a.2.before b.2) ((s.blockers node n cs).map (fun o => (o, s.node o)))).reverse
    .next (hs.foldl (fun st (o, _) =>
      let further := st.needed n o cs
      if further.isEmpty then st else st.climb o further (st.vd vd).dgrace false) s)

/-- Bound of a save or restore of n core images (17 R374). -/
def State.imageBound (s : State) (vd : Fin 8) (n : Nat) : Nat :=
  let d := 128 * max 1 (s.vd vd).channels.length
  4000 + (0x10000 + n * 0x61000 + d - 1) / d

/-- RESTORE: the saved cores of a node are bound to it and read back (13 R309, R326). -/
def execRestore (node : Nat) (s : State) : Out :=
  let n := s.node node
  let cs := s.savedCores node
  if !(s.hollander n.vd).contains (.restore node) then .next s
  else
    let t := (s.bindCores node cs).modNode node (fun n => { n with restoring := cs, switch := false })
    .next (cs.foldl (fun st c => st.dueWithin (st.imageBound n.vd cs.length) (.restoreComplete node c)) t)

end Sys2Proof.Machine
end

