-- ==== Sys2Proof/Machine/Deckle.lean ====
section
/-!
DEFINITION. The Deckle, the felt probe, the idle tree and the park detector (13_progress_scheduling.md R313 to R324), and EXIT
(05 R147, R148).
-/
namespace Sys2Proof.Machine

/-! ## EXIT (05 R147) -/

/-- The thread leaves: its status block is written, its slot is empty, and what stays behind may be a core that arrives (02 R47, 05 R148).
The PC that the block holds is that of the EXIT, which 05 R147 leaves open (DESIGN CHOICE, log 73). -/
def State.leaveSlot (s : State) (c t : Nat) (th : Thread) : State :=
  let u := s.storeLocs ((spadLocs c (th.wp + 2688) 128).zip th.statusBytes)
  (u.modCore c (·.vacate t)).arrivalTry c th.node

/-- EXIT waits for its counters, its store-data queues and its status block; then it reports a fault as WAITC of all classes would. -/
def execExit (s : State) : Out :=
  withThread s (fun th =>
    if th.cnt ≠ Counters.zero || th.sq.toList.any (fun q => !q.isEmpty) || !s.allSettled s.curCore s.curSlot
        || s.anyHeldW (spadLocs s.curCore (th.wp + 2688) 128) then block .retry s
    else
      match th.firstFault (fun _ => true) with
      | some f => reportFault th f s
      | none => .next (s.leaveSlot s.curCore s.curSlot th))

/-! ## Streams and members -/

def State.stream (s : State) (i : Nat) : Option Stream := tabGet s.streams i

def State.modStream (s : State) (i : Nat) (f : Stream → Stream) : State :=
  match tabGet s.streams i with
  | none => s
  | some t => { s with streams := tabSet s.streams i (f t) }

/-- FIRE and PHASE fire; SET takes effect. -/
def Entry.fires (e : Entry) : Bool :=
  match e.kind with
  | .set _ _ => false
  | _ => true

/-- The core's absolute index. -/
def State.coreOf (s : State) (n : Node) (h : Nat) : Nat := (s.vd n.vd).qbase + h

/-- The core is saved, or its restore is under way. -/
def State.gone (s : State) (node c : Nat) : Bool :=
  (tabGet s.saved (savedKey node c)).isSome

/-- The oldest unfired FIRE or PHASE entry that includes h (13 R316). -/
def Stream.oldest (t : Stream) (h : Nat) : Option Entry := t.buf.find? (fun e => e.fires && e.members.contains h)

/-- The member's arrival: matched to the entry, or all its threads have exited (13 R316). -/
def State.arrivedAt (s : State) (i : Nat) (n : Nat) (e : Entry) (h : Nat) : Bool :=
  let c := s.coreOf (s.node n) h
  let k := match tabGet s.saved (savedKey n c) with
    | some sv => sv.core
    | none => s.core c
  k.matched == some (i, e.num) || (k.ofNode n).isEmpty

/-- Every member of an entry has arrived at it. -/
def State.complete (s : State) (i : Nat) (t : Stream) (e : Entry) : Bool :=
  e.members.all (fun h => s.arrivedAt i t.node e h)

/-! ## SET (13 R315) -/

def listErase (l : List Nat) (k : Nat) : List Nat := l.filter (· != k)

/-- A SET takes effect for a core: GMEM lists the group or not (02 R54). -/
def State.setEffect (s : State) (n : Nat) (gid : Nat) (new : List Nat) (h : Nat) : State :=
  let upd (k : Core) : Core := { k with groups := if new.contains h then setInsert k.groups gid else listErase k.groups gid }
  let c := s.coreOf (s.node n) h
  match tabGet s.saved (savedKey n c) with
  | some sv => { s with saved := tabSet s.saved (savedKey n c) { sv with core := upd sv.core } }
  | none => s.modCore c upd

/-- Members of a SET for which every older entry that includes them has fired. -/
def setReady (older : List Entry) (e : Entry) : List Nat := e.members.filter (fun h => older.all (fun o => !o.fires || !o.members.contains h))

/-- The SETs of a buffer take effect where they can; what is left of the buffer, and the effects in order. -/
def setPass : List Entry → List Entry → List Entry × List (Nat × List Nat × Nat)
  | done, [] => (done, [])
  | done, e :: t =>
    match e.kind with
    | .set _ new =>
      let rs := setReady done e
      let (b, fx) := setPass (done ++ [{ e with members := e.members.filter (fun h => !rs.contains h) }]) t
      (b, rs.map (fun h => (e.gid, new, h)) ++ fx)
    | _ => setPass (done ++ [e]) t

/-- A SET that is in effect for every core of its old and new members retires. -/
def Entry.retires (e : Entry) : Bool := !e.fires && e.members.isEmpty

/-- The node's table once SETs have retired: of each of their groups, unless a SET of it is still pending, what the stream's SETs have left
(02 R53). -/
def retired (out left : List Entry) (now : Tab Group) (gs : Tab Group) : Tab Group :=
  out.foldl (fun t e => if left.any (fun x => !x.fires && x.gid == e.gid) then t
    else tabSet t e.gid ((tabGet now e.gid).getD ⟨[], 0⟩)) gs

/-- All effects that a stream's SETs have now. -/
def State.setEffects (s : State) (i : Nat) : State :=
  match s.stream i with
  | none => s
  | some t =>
    let (b, fx) := setPass [] t.buf
    let u := fx.foldl (fun st (g, new, h) => st.setEffect t.node g new h) s
    let left := b.filter (fun e => !e.retires)
    (u.modStream i (fun t => { t with buf := left })).modNode t.node (fun n => { n with
      groups := retired (b.filter Entry.retires) left t.groups n.groups })

/-! ## Arrival (13 R316) -/

/-- The Waiting threads of a node on a core take the deckle trap, cause 1, at their WAIT. -/
def State.deckleTrap (s : State) (c node : Nat) : State :=
  ((s.core c).ofNode node).foldl (fun st (t, th) =>
    if th.run = .waiting then st.enterTrap c t .deckle 1 0 th.pc 0 7 0 else st) s

/-- An arrival is matched to the core's oldest entry, kept as early, or trapped. -/
def State.arrive (s : State) (c node i : Nat) (t : Stream) : State :=
  match t.oldest (c - (s.vd (s.node node).vd).qbase) with
  | some e => s.modCore c (fun k => { k with matched := some (i, e.num), early := false })
  | none => if t.ended then (s.modCore c (fun k => { k with early := false })).deckleTrap c node else s.modCore c (fun k => { k with early := true })

/-- CORE_ARRIVAL (13 R316): every resident thread of the node on the core is Waiting, with its accesses performed and its counters at zero. -/
def execCoreArrival (core : Nat) (s : State) : Out :=
  let k := s.core core
  match k.bound with
  | none => .next s
  | some node =>
    match (s.node node).stream with
    | none => .next s
    | some i =>
      match s.stream i with
      | none => .next s
      | some t => if !s.arrives core node || k.matched.isSome || k.early then .next s else .next (s.arrive core node i t)

/-! ## The fetcher (13 R313, R314) -/

/-- A record as the fetcher reads it: its entry's kind and gid and the words that it takes; none when it is malformed. -/
inductive Fetched where
  | fin
  | fire (gid : Nat)
  | phase (gid : Nat) (idl : Bool)
  | set (gid : Nat) (members : List Nat) (words : Nat)
  deriving DecidableEq, Repr

/-- Members that range words name, ascending. -/
def rangeMembers (n : Node) : List Word32 → Option (List Nat)
  | [] => some []
  | w :: t =>
    let first := (w.extractLsb' 0 12).toNat
    let last := (w.extractLsb' 12 12).toNat
    if w.extractLsb' 24 8 ≠ 0 ∨ first > last ∨ first < n.hLo ∨ last > n.hHi then none
    else (rangeMembers n t).map (fun ms => ((List.range (last + 1 - first)).map (first + ·)).foldl setInsert ms)

def parseRecord (n : Node) (ws : List Word32) : Option Fetched :=
  match ws with
  | [] => none
  | w :: rest =>
    let gid := (w.extractLsb' 0 8).toNat
    match (w.extractLsb' 28 4).toNat with
    | 0 => if w = 0 then some .fin else none
    | 1 => if w.extractLsb' 8 20 = 0 then some (.fire gid) else none
    | 2 => if w.extractLsb' 8 19 = 0 then some (.phase gid w[27]) else none
    | 3 =>
      let nr := (w.extractLsb' 12 12).toNat
      if w.extractLsb' 24 4 ≠ 0 ∨ w.extractLsb' 8 4 ≠ 0 ∨ nr = 0 ∨ rest.length < nr then none
      else (rangeMembers n (rest.take nr)).map (fun ms => .set gid ms (1 + nr))
    | _ => none

/-- No core is in more than four groups. -/
def groupsFit (n : Node) (gs : Tab Group) : Bool :=
  (List.range (n.hHi + 1 - n.hLo)).all (fun i => decide ((gidsOf gs (n.hLo + i)).length ≤ 4))

/-- A deckle fault: the node is Failed and a record holds the word (13 R314, R315). -/
def State.deckleFault (s : State) (node : Nat) (w : Word32) : State :=
  (s.failNode node).sendRecord (s.nodeRecord 4 (s.node node) (w.setWidth 64))

/-- Early arrivals are matched to a new entry that includes their core. -/
def State.matchEarly (s : State) (i : Nat) (t : Stream) (e : Entry) : State :=
  e.members.foldl (fun st h =>
    let c := st.coreOf (st.node t.node) h
    match tabGet st.saved (savedKey t.node c) with
    | some sv =>
      if sv.core.early then
        { st with saved := tabSet st.saved (savedKey t.node c) { sv with core := { sv.core with early := false, matched := some (i, e.num) } } }
      else st
    | none => if (st.core c).early && (st.core c).bound == some t.node then
        st.modCore c (fun k => { k with early := false, matched := some (i, e.num) })
      else st) s

/-- END is buffered and a core's early arrival fits no entry: it traps (13 R316). A saved core does so at its restore. -/
def State.earlyTrap (s : State) (node c : Nat) : State :=
  if (s.core c).early && (s.core c).bound == some node then (s.modCore c (fun k => { k with early := false })).deckleTrap c node else s

def State.endEarly (s : State) (t : Stream) : State := (s.nodeCores (s.node t.node)).foldl (fun st c => st.earlyTrap t.node c) s

/-- A FIRE or PHASE entry enters the buffer with its group's members as the fetcher's SETs leave them. -/
def State.bufferEntry (s : State) (i : Nat) (t : Stream) (kind : Rec) (gid : Nat) : State :=
  let e : Entry := ⟨t.next, kind, gid, ((tabGet t.groups gid).map (·.members)).getD [], false, 0, false, false⟩
  (s.modStream i (fun t => { t with pos := t.pos + 1, next := t.next + 1, buf := t.buf ++ [e] })).matchEarly i t e

/-- DECKLE_FETCH: the next record goes into the buffer's youngest free entry, or fails the node. -/
def execDeckleFetch (stream : Nat) (s : State) : Out :=
  match s.stream stream with
  | none => .next s
  | some t =>
    let n := s.node t.node
    if t.ended || t.buf.length ≥ 64 then .next s
    else
      let ws := n.desc.deckle.drop t.pos
      match parseRecord n ws with
      | none => .next (s.deckleFault t.node (ws.headD 0))
      | some .fin => .next ((s.modStream stream (fun t => { t with pos := t.pos + 1, next := t.next + 1, ended := true })).endEarly t)
      | some (.fire g) => .next (s.bufferEntry stream t .fire g)
      | some (.phase g idl) => .next (s.bufferEntry stream t (.phase idl) g)
      | some (.set g ms words) =>
        let old := ((tabGet t.groups g).map (·.members)).getD []
        let gs := tabSet t.groups g { ((tabGet t.groups g).getD ⟨[], 0⟩) with members := ms }
        if !groupsFit n gs then .next (s.deckleFault t.node (ws.headD 0))
        else
          let e : Entry := ⟨t.next, .set old ms, g, ms.foldl setInsert old, false, 0, false, false⟩
          .next ((s.modStream stream (fun t => { t with
            pos := t.pos + words, next := t.next + 1, groups := gs, buf := t.buf ++ [e] })).setEffects stream)

/-! ## Firing and release (13 R317) -/

/-- The conditions of R317 for an entry: the opening PHASE needs a complete launch, a later PHASE its report. -/
def State.mayFire (s : State) (i : Nat) (t : Stream) (e : Entry) : Bool :=
  if e.num = 0 then (s.node t.node).launched
  else
    e.members.all (fun h => (t.oldest h).map (·.num) == some e.num && s.arrivedAt i t.node e h
      && !s.gone t.node (s.coreOf (s.node t.node) h)) &&
    (match e.kind with
    | .phase _ => e.report
    | _ => true)

/-- Entries whose conditions hold fire at T + 4. -/
def State.fireTry (s : State) (i : Nat) (t : Stream) : State :=
  let ready := t.buf.filter (fun e => e.fires && !e.due && s.mayFire i t e)
  ready.foldl (fun st e => st.due (st.clk + 4) (.deckleFire i e.num))
    (s.modStream i (fun t => { t with buf := t.buf.map (fun e => if ready.any (fun r => r.num == e.num) then { e with due := true } else e) }))

/-- DECKLE_FIRE: the entry leaves the buffer, its members' arrivals are spent, the SETs behind it take effect, and the release follows 40
ck on. -/
def execDeckleFire (stream entry : Nat) (s : State) : Out :=
  match s.stream stream with
  | none => .next s
  | some t =>
    match t.buf.find? (fun e => e.num == entry && e.due) with
    | none => .next s
    | some e =>
      let u := e.members.foldl (fun st h => st.modCore (st.coreOf (st.node t.node) h) (fun k =>
        if k.matched = some (stream, entry) then { k with matched := none } else k)) s
      .next (((u.modStream stream (fun t => { t with
        buf := t.buf.filter (fun x => x.num != entry)
        opened := t.opened || entry == 0
        firing := tabSet t.firing entry e.members })).setEffects stream).due (s.clk + 40) (.deckleRelease stream entry))

/-- The threads of a core that a release resumes: those in WAIT go on after it; at the opening release those that have not begun. -/
def Core.release (k : Core) (node : Nat) (opening : Bool) : Core :=
  { k with slots := k.slots.map (fun o => o.map (fun th =>
      if th.node ≠ node then th
      else if th.run = .waiting then th.retire noPend 1
      else if opening && th.run == .blocked .start then { th with run := .ready }
      else th)) }

/-- DECKLE_RELEASE: every thread of every member resumes at F + 40. -/
def execDeckleRelease (stream entry : Nat) (s : State) : Out :=
  match s.stream stream with
  | none => .next s
  | some t =>
    match tabGet t.firing entry with
    | none => .next s
    | some ms =>
      let u := ms.foldl (fun st h => st.modCore (st.coreOf (st.node t.node) h) (fun k =>
        if k.bound = some t.node then k.release t.node (entry == 0) else k)) s
      .next (u.modStream stream (fun t => { t with firing := tabErase t.firing entry }))

/-! ## Felt probe and idle tree (13 R320 to R322) -/

/-- The oldest PHASE entry of a stream. -/
def Stream.phase (t : Stream) : Option Entry := t.buf.find? (fun e => match e.kind with
  | .phase _ => true
  | _ => false)

def Entry.idl (e : Entry) : Bool :=
  match e.kind with
  | .phase b => b
  | _ => false

def Stream.modEntry (t : Stream) (num : Nat) (f : Entry → Entry) : Stream :=
  { t with buf := t.buf.map (fun e => if e.num = num then f e else e) }

/-- The counts of a node's cores, saved ones as their images hold them. -/
def State.nodeCounts (s : State) (node : Nat) : List Core :=
  (s.nodeCores (s.node node)).map (fun c => match tabGet s.saved (savedKey node c) with
    | some sv => sv.core
    | none => s.core c)

/-- A pass of the felt probe finds the token white and its sum zero. -/
def State.quietPass (s : State) (node : Nat) : Bool :=
  let ks := s.nodeCounts node
  ks.all (fun k => !k.black) && (ks.foldl (fun (a : BitVec 32) k => a + (k.sent - k.recv)) 0) == 0

/-- A pass whitens the cores. -/
def State.whiten (s : State) (node : Nat) : State :=
  let t : State := { s with saved := s.saved.map (fun (x, sv) => if x / 8192 = node then (x, { sv with core := { sv.core with black := false } }) else (x, sv)) }
  (s.nodeCores (s.node node)).foldl (fun st c => st.modCore c (fun k => if k.bound = some node then { k with black := false } else k)) t

/-- FELT_PROBE_PASS: a pass ends; the second consecutive quiet one reports. -/
def execFeltProbePass (stream : Nat) (s : State) : Out :=
  match s.stream stream with
  | none => .next s
  | some t =>
    match t.phase with
    | none => .next s
    | some e =>
      if !e.probing then .next s
      else
        let q := if s.quietPass t.node then e.quiet + 1 else 0
        let u := (s.whiten t.node).modStream stream (fun t => t.modEntry e.num (fun e => { e with
          quiet := q, report := decide (q ≥ 2), probing := decide (q < 2) }))
        .next (if q ≥ 2 then u else u.due (s.clk + 80) (.feltProbePass stream))

/-- The core whose network interface holds the message of a step that is due: the home core of an access to another core, the core of the
operation that a reply or an acknowledgement comes back to. -/
def State.interfaceOf (s : State) : Instr → Option Nat
  | .remoteAccessPerformed op => (tabGet s.ops op).bind (fun o => match o.kind with
    | .access a => a.home
    | _ => none)
  | .remoteReply op | .globalAccessComplete op | .fabricAck op _ _ => (tabGet s.ops op).map (·.core)
  | _ => none

/-- The engines or the interface of its core hold an operation: a copy, an exchange or a collective; a primitive that has not left; an access
issued since operation `seen`, whose message is injected in this ck. -/
def Op.lowers (seen id : Nat) (o : Op) : Bool :=
  match o.kind with
  | .access _ => decide (seen ≤ id)
  | .copy _ => true
  | .coll _ => true
  | .fab f => !f.sent

/-- Every idle wire of the node is high: no network interface of its cores holds a message to inject or receive, whichever node's it is, and
their engines hold no copy, exchange or collective (13 R322). A message between two interfaces lowers no wire. An interface holds a message in
the ck of its issue, in the ck of its arrival, and as long as the arrival waits (DEDUCED, log 71). -/
def State.wiresHigh (s : State) (node seen : Nat) : Bool :=
  let cs := s.nodeCores (s.node node)
  !s.agenda.any (fun e => decide (e.1 ≤ s.clk + 1) && ((s.interfaceOf e.2).map cs.contains).getD false) &&
    !s.ops.any (fun (id, o) => cs.contains o.core && !s.away o && o.lowers seen id)

/-- IDLE_TREE_REPORT: the AND of the wires has stayed high for 512 ck. -/
def execIdleTreeReport (stream : Nat) (s : State) : Out :=
  match s.stream stream with
  | none => .next s
  | some t =>
    match t.phase, t.idle with
    | some e, some c =>
      if e.idl && decide (c + 512 ≤ s.clk) && s.complete stream t e then
        .next (s.modStream stream (fun t => t.modEntry e.num (fun e => { e with report := true })))
      else .next s
    | _, _ => .next s

/-- The idle wires as they stand in this ck. -/
def State.watchIdle (s : State) (i : Nat) (t : Stream) : State :=
  s.modStream i (fun t' => { t' with idle := if s.wiresHigh t.node t.seen then some (t.idle.getD s.clk) else none, seen := s.nextOp })

/-- The oldest PHASE, once every member has arrived, starts its probe or gets the idle tree's report. -/
def State.reportTry (s : State) (i : Nat) (t : Stream) : State :=
  match t.phase with
  | none => s
  | some e =>
    if e.num = 0 || e.report || !s.complete i t e then s
    else if e.idl then
      (match t.idle with
      | some c => if c + 512 ≤ s.clk ∧ !s.agenda.any (fun x => x.2 == .idleTreeReport i) then s.due s.clk (.idleTreeReport i) else s
      | none => s)
    else if e.probing then s
    else (s.modStream i (fun t => t.modEntry e.num (fun e => { e with probing := true, quiet := 0 }))).due (s.clk + 80) (.feltProbePass i)

/-- What the Deckle does for a stream in one ck. -/
def State.deckleTurn (s : State) (i : Nat) : State :=
  match s.stream i with
  | none => s
  | some t0 =>
    let s1 := s.watchIdle i t0
    match s1.stream i with
    | none => s1
    | some t =>
      let s2 := s1.reportTry i t
      match s2.stream i with
      | none => s2
      | some t =>
        let s3 := s2.fireTry i t
        if t.ended || t.buf.length ≥ 64 || s3.agenda.any (fun x => x.2 == .deckleFetch i) then s3 else s3.due (s.clk + 1) (.deckleFetch i)

/-! ## The park detector (13 R324) -/

/-- The thread lets its core raise the park line. -/
def Thread.lineHigh (th : Thread) : Bool :=
  !th.stopped && (match th.run with
    | .waiting => true
    | .parked _ _ => true
    | .blocked .join => true
    | .blocked (.lq q need) => decide ((th.lqOf q).length < need)
    | _ => false)

/-- A wake is armed for a thread: it is parked on a global word, or a wake or a formation is on its way. -/
def State.armed (s : State) (c t : Nat) (th : Thread) : Bool :=
  (match th.run with
    | .parked g _ => g
    | _ => false) || s.agenda.any (fun e => e.2 == .parkWake c t || e.2 == .gangForm c t)

/-- No entry of a stream can fire, none is firing, no PHASE awaits a report that has not come, and nothing is left to fetch. -/
def State.streamStuck (s : State) (i : Nat) (t : Stream) : Bool :=
  t.firing.isEmpty && (t.ended || decide (t.buf.length ≥ 64)) &&
    t.buf.all (fun e => !e.fires || (!e.due && !s.mayFire i t e && !(e.num != 0 && s.complete i t e && (match e.kind with
      | .phase _ => !e.report
      | _ => false))))

/-- The node's context is switched out: its saved cores are not cores of the quire that a displacement has saved (13 R324, R326). -/
def State.switchedOut (s : State) (node : Nat) : Bool := tabGet (s.vd (s.node node).vd).ctxSt (s.node node).ctx == some .switched

/-- A copy: where its core is saved it stands in the image and in no engine (17 R371). -/
def Op.suspends (o : Op) : Bool :=
  match o.kind with
  | .copy _ => true
  | _ => false

/-- The quire is deadlocked (13 R324). A quire on which no launched node runs is not, nor one on which a launch, a save or a restore is under way
or a node has come to its end; a context that is switched out does not count. -/
def State.deadlocked (s : State) (vd : Fin 8) : Bool :=
  let v := s.vd vd
  let cs := v.coresOf 0 (v.qlen - 1)
  v.en && s.nodes.any (fun (i, n) => n.vd == vd && n.st.live && n.launched && n.test.isNone && n.copy.isNone && !s.switchedOut i) &&
    cs.all (fun c =>
      let k := s.core c
      k.press.isEmpty && k.wm.isNone && k.threads.all (fun (t, th) => th.lineHigh && !s.armed c t th)) &&
    s.saved.all (fun (k, _) => (s.node (k / 8192)).vd != vd || s.switchedOut (k / 8192)) &&
    s.nodes.all (fun (i, n) => n.vd != vd || ((!n.st.live || n.launched || n.copy.isSome) && n.ladder != .stopping && n.ladder != .saving && n.restoring.isEmpty && !s.nodeDone i)) &&
    s.ops.all (fun (_, o) => (s.node o.node).vd != vd || (s.away o && s.switchedOut o.node && o.suspends)) &&
    s.streams.all (fun (i, t) => (s.node t.node).vd != vd || s.streamStuck i t)

/-- DEADLOCK_TRAP: every node that holds cores of the quire is Failed, and a record goes to the fault server (13 R324). -/
def execDeadlockTrap (vd : Fin 8) (s : State) : Out :=
  if !s.deadlocked vd then .next s
  else
    let live := (s.nodes.filter (fun (i, n) => n.vd == vd && n.st.live && n.copy.isNone && !s.switchedOut i)).map (·.1)
    .next ((live.foldl (fun st n => st.failNode n) s).sendRecord (s.vdRecord 5 vd 0 0))

end Sys2Proof.Machine
end

