-- ==== Sys2Proof/Machine/Preempt.lean ====
section
/-!
DEFINITION. The pre-emption ladder, saving and restoring (13_progress_scheduling.md R325 to R328, 17_recovery.md R370 to R376).
-/
namespace Sys2Proof.Machine

/-! ## Stopping (13 R327) -/

/-- Another member of the thread's gang waits for service, so that the thread stays Stopped (17 R359). -/
def State.gangHeld (s : State) (c t : Nat) : Bool :=
  (s.gangMembers c t).any (fun (a, b) => (a, b) != (c, t) && ((s.thread a b).map (fun th => th.handler && (th.awaiting || th.eret.isSome))).getD false)

/-- A core stops at an instruction boundary; a thread that the Watermark unit has not accepted is at its instruction (08 R233). -/
def Core.stop (k : Core) (node : Nat) : Core :=
  { k with
    slots := Vector.ofFn (fun t => (k.slots[t]).map (fun th =>
      if th.node ≠ node then th
      else { th with stopped := true, run := if k.wmWait.any (fun x => x.1 == t.val) ∧ th.run = .blocked .unit then .ready else th.run }))
    wmWait := [] }

/-- The stop tree halts a core: its threads stop, CLK is recorded, and its engines settle, the Watermark unit within 16 ck (07 R212, 08 R233, 13
R327, R405, 17 R371). -/
def State.stopCore (s : State) (node c : Nat) : State :=
  let d := Config.freeNat s.fresh % 17
  (s.drawn.modCore c (fun k =>
    { ((k.stop node).stopWm s.clk d) with stopClk := s.clk, settled := max (s.clk + d) (k.pressSettled s.clk) })).stopPress c

/-- The stop tree is on its way to the cores of a list: each stops within 80 ck (13 R327, R405). -/
def State.sendStop (s : State) (node : Nat) (cs : List Nat) : State :=
  cs.foldl (fun st c =>
    if (st.core c).bound = some node && (st.core c).stopAt.isNone then
      ({ st with fresh := st.fresh + 1 } : State).modCore c (fun k => { k with stopAt := some (s.clk + 1 + Config.freeNat st.fresh % 80) })
    else st) s

/-- The cores that stop in this ck. -/
def State.stopsDue (s : State) (node : Nat) : State :=
  (s.boundCores node).foldl (fun st c => if (st.core c).stopAt = some s.clk then st.stopCore node c else st) s

/-- The threads of a core that is not halted go on, but for those that wait for service. -/
def State.freeThreads (s : State) (c : Nat) : State :=
  let k := s.core c
  if k.halted || k.stopAt.isSome then s
  else s.setCore c { k with slots := Vector.ofFn (fun t => (k.slots[t]).map (fun th =>
    if th.awaiting || s.gangHeld c t.val then th else { th with stopped := false })) }

/-- A core that the stop tree had halted goes on, with its Watermark unit; its Press starts what is left by itself. -/
def State.startCore (s : State) (c : Nat) : State :=
  ((s.modCore c (fun k => { k with stopAt := none })).freeThreads c).resumeWm c

/-- The ck of the last stop of a node's cores. -/
def State.lastStop (s : State) (node : Nat) : Nat := ((s.boundCores node).filterMap (fun c => (s.core c).stopAt)).foldl max 0

/-- SOFT_REQUEST: a context is asked to leave; its running nodes go on until the grace timer expires (13 R326). -/
def execSoftRequest (vd : Fin 8) (ctx : Nat) (s : State) : Out :=
  if (tabGet (s.vd vd).ctxSt ctx).isSome then .next s
  else
    let t := s.modVd vd (fun v => { v with ctxSt := tabSet v.ctxSt ctx .soft })
    let ns := (s.nodes.filter (fun (_, n) => n.vd == vd && n.ctx == ctx && n.st.live && n.copy.isNone && n.test.isNone)).map (·.1)
    .next (ns.foldl (fun st n =>
      let cs := st.furtherCores n (st.boundCores n)
      if cs.isEmpty then st else st.climb n cs (st.vd vd).grace true) t)

/-- GRACE_EXPIRY: the stop tree halts every core of the node within 80 ck; the kill timer runs from the last stop (13 R325 to R327). -/
def execGraceExpiry (node : Nat) (s : State) : Out :=
  let n := s.node node
  if n.ladder ≠ .soft || !n.st.live then .next s
  else
    let t := s.sendStop node (s.boundCores node)
    let kill := max s.clk (t.lastStop node) + (s.vd n.vd).killt
    .next ((t.modNode node (fun n => { n with ladder := .stopping, resumeAt := some (t.lastStop node + 8), killAt := some kill })).due
      kill (.killtExpiry node))

/-- The stops of a node under way; the cores that are not saved resume together, 8 ck after the last has stopped (13 R310), and victims that
joined since are stopped too. -/
def State.resumeTry (s : State) (node : Nat) (n : Node) : State :=
  let t := s.stopsDue node
  if n.resumeAt = some s.clk ∧ n.st.live then
    ((t.boundCores node).filter (fun c => !n.victims.contains c)).foldl (fun st c => st.startCore c) t
  else if n.ladder = .stopping then t.sendStop node n.victims
  else t

/-! ## Saving (17 R374) -/

/-- A victim has stopped and its engines have settled (07 R212, 08 R233). -/
def Core.atRest (k : Core) (clk : Nat) : Bool :=
  k.treeStopped clk && decide (k.settled ≤ clk) && k.press.all (fun p => p.started.isNone)

/-- The victims are at rest, their global accesses are complete, messages from them and to them are delivered or 400 ck have gone by, and no
release of theirs is under way (13 R327, 17 R374). -/
def State.settledCores (s : State) (node : Nat) (n : Node) : Bool :=
  n.victims.all (fun c => (s.core c).atRest s.clk) &&
  !s.ops.any (fun (_, o) => o.node == node && (match o.kind with
    | .access a =>
      (match a.home with
      | none => n.victims.contains o.core
      | some h => !a.performed && (n.victims.contains o.core || n.victims.contains h) && decide (s.clk < s.lastStop node + 400))
    | _ => false)) &&
  (match n.stream.bind s.stream with
    | none => true
    | some t => !(t.buf.any (fun e => e.due && e.members.any (fun h => n.victims.contains (s.coreOf n h)))) &&
        !(t.firing.any (fun (_, ms) => ms.any (fun h => n.victims.contains (s.coreOf n h)))))

/-- The node is ready for its Saving step: every core of it has been stopped. -/
def State.saveReady (s : State) (node : Nat) (n : Node) : Bool :=
  n.ladder == .stopping && n.launched && n.restoring.isEmpty && decide (n.resumeAt.getD 0 ≤ s.clk + 8) && s.settledCores node n

/-- Bytes that a save of the virtual device's contexts needs (17 R370). -/
def saveNeed (v : Vd) : Nat := 0x10000 + v.qlen * 0x61000

/-- A context kill (17 R378): its nodes are Failed, its REAM-LOADs are performed or not, its queues are disabled, and a record goes to the
fault server once the kill is complete, at a ck that the spec leaves open within 8,000,000 (13 R405). -/
def State.killCtx (s : State) (vd : Fin 8) (ctx : Nat) : State :=
  let ns := (s.nodes.filter (fun (_, n) => n.vd == vd && n.ctx == ctx && !n.st.over)).map (·.1)
  let t := ns.foldl (fun st n => st.failNode n) s
  let ls := (t.vd vd).loads.filter (fun (_, l) => l.ctx == ctx)
  let u := ls.foldl (fun st (id, _) =>
    let st' := if Config.freeNat st.fresh % 2 = 0 then st.drawn
      else match execReamLoadComplete vd id st.drawn with
        | .next x => x
        | _ => st.drawn
    st'.modVd vd (fun v => { v with loads := tabErase v.loads id })) t
  let qs := (List.range 64).filter (fun q => s.queueCtx vd q == some ctx)
  ((u.forget (fun i => (packetQueue i).any (fun x => x.1 == vd && qs.contains x.2.val))).modVd vd (fun v => { v with
    ctxSt := tabErase v.ctxSt ctx
    queues := Vector.ofFn (fun q => if qs.contains q.val then { v.queues[q] with en := false, hold := none } else v.queues[q]) })).sendWithin
    8000000 (s.vdRecord 6 vd ctx 0)

/-! ## The image (17 R370 to R372) -/

/-- The core header: the state at the stop, with CLK then (17 R371). -/
def State.coreHeader (s : State) (node c : Nat) (k : Core) : List Byte :=
  let n := s.node node
  let mask := (k.threads.map (fun x => 2 ^ x.1)).sum
  let deck := match k.matched with
    | some (i, e) =>
      let pos := ((s.stream i).map (fun t => t.buf.findIdx (fun x => x.num == e))).getD 0
      i % 32 + pos % 64 * 256 + 2 ^ 16 + 2 ^ 18
    | none => (n.stream.getD 0) % 32 + (if k.early then 2 ^ 17 else 0)
  padTo 256 (wordBytes [wordOf ((c - (s.vd n.vd).qbase) + mask * 2 ^ 16 + n.index % 65536 * 2 ^ 32),
    wordOf (k.sent.toNat + k.recv.toNat * 2 ^ 32), wordOf deck, gmemWord k.groups, wordOf k.stopClk])

/-- The words of a shape record. -/
def recWords (x : BitVec 256) : List Word := (List.range 4).map (fun i => x.extractLsb' (64 * i) 64)

/-- The words of a list of numbers, with its length first. -/
def listWords (l : List Nat) : List Word := wordOf l.length :: l.map wordOf

/-- The words of a memory. -/
def memWords (m : Memory) : List Word := wordOf m.length :: m.flatMap (fun (k, b) => [wordOf k, b.setWidth 64])

/-- What a Press record holds of a request. -/
def PressReq.words : PressReq → List Word
  | .pmm rows na nb ad xi a b f =>
    [0, wordOf (na.toNat + 2 * nb.toNat + 4 * ad.toNat + 8 * xi.toNat), f.setWidth 64] ++ recWords a ++ recWords b ++
      (wordOf rows.length :: rows.map (fun r => match r with
        | none => BitVec.allOnes 64
        | some i => wordOf i))
  | .plda r f => [1, f.setWidth 64] ++ recWords r
  | .psta ad r f => [2, wordOf ad.toNat, f.setWidth 64] ++ recWords r
  | .pz => [3]
  | .pcvt x => [4, wordOf x.toNat]

/-- What a Press record holds: the operation, its operands, its progress, the SEED that it still owes and its registrations (07 R212). -/
def PressOp.words (p : PressOp) : List Word :=
  [wordOf p.id, wordOf p.slot, wordOf p.tag, wordOf p.acc, wordOf p.blocks, wordOf p.left, p.rnd.setWidth 64, p.seed.setWidth 64] ++
    p.req.words ++ memWords p.mem ++ memWords p.rmem ++ listWords p.reads ++ listWords p.writes

/-- A Watermark instruction as words: its number and its register codes. -/
def WmReq.words : WmReq → List Word
  | .wmcf d a b => [0, d.setWidth 64, a.setWidth 64, b.setWidth 64]
  | .wmz => [1]
  | .wmst a b => [2, a.setWidth 64, b.setWidth 64]
  | .wmsn a => [3, a.setWidth 64]
  | .wmjn a b => [4, a.setWidth 64, b.setWidth 64]
  | .wmlg a b => [5, a.setWidth 64, b.setWidth 64]
  | .wmrd d a => [6, d.setWidth 64, a.setWidth 64]

/-- What the Watermark section holds: the instruction, its operand values, the increment, level and coefficient at which it stands, the partial values,
and its registrations (08 R233). -/
def WmOp.words (w : WmOp) : List Word :=
  w.req.words ++ w.vals ++ [wordOf w.id, wordOf w.slot, wordOf w.tag, wordOf w.left, wordOf w.position.1, wordOf w.position.2.1,
    wordOf w.position.2.2] ++ (w.seq.flatMap (fun (o, v) => [wordOf o, wordOf v])) ++ listWords w.reads ++ listWords (w.writes.map (·.1))

/-- What a couch slot holds of a copy (17 R370). -/
def Copy.words (c : Copy) : List Word :=
  listWords (c.descr.map (·.toNat)) ++ (c.runs.flatMap (fun r => [wordOf (r.sg.toNat + 2 * r.dg.toNat), wordOf r.src, wordOf r.dst, wordOf r.len])) ++
    [wordOf c.registered.toNat, wordOf c.chunks.length] ++ listWords ((c.chunks.flatMap id).map (fun x => x.1.key)) ++
    listWords ((c.srcs.flatMap id).map (·.key))

/-- The copies that a core's couch engine holds, one by one. -/
def State.couch (s : State) (node c : Nat) : List (List Word) :=
  s.ops.filterMap (fun (id, o) => match o.kind with
    | .copy x => if o.node = node ∧ o.core = c then some ([wordOf id, wordOf o.slot, wordOf o.tag] ++ x.words) else none
    | _ => none)

/-- A table of n records of a part whose places are open, each of its own bytes; the records that nothing fills are zeros. -/
def openTable (part n bytes : Nat) (rs : List (List Word)) : List Byte :=
  (List.range n).flatMap (fun i => match rs[i]? with
    | none => List.replicate bytes 0
    | some ws => openPart part bytes ws)

/-- A tile's lanes, 5 bytes each, in ascending (i, j). -/
def Tile.bytes (t : Tile) : List Byte :=
  (List.range 1024).flatMap (fun l => leBytes 5 (((tabGet t.lanes l).getD 0).toNat))

/-- A tile's tag word (17 R370). -/
def Tile.tagWord (t : Tile) : Word :=
  BitVec.ofNat 64 ((match t.use with
    | .xi => 1
    | .fp32 => 0) + (match t.pair with
    | none => 2
    | some (a, b) => a % 2 ^ 24 * 2 ^ 32 + b % 2 ^ 24 * 256))

/-- Entries of the discard list that obey its limits: first and last core, scratchpad range, and tiles (17 R375). -/
def State.discards (s : State) (vd : Fin 8) (ctx : Nat) (c : Ctx) : List (Nat × Nat × Nat × Nat × BitVec 8) :=
  (List.range c.dcount).filterMap (fun i =>
    match s.vaLocs vd ctx (c.dlist + BitVec.ofNat 64 (16 * i)) 16 ⟨true, false, false⟩ with
    | .error _ => none
    | .ok ls =>
      let w0 : Word := BitVec.ofNat 64 (s.locsNat (ls.take 8))
      let w1 : Word := BitVec.ofNat 64 (s.locsNat (ls.drop 8))
      let last := (w0.extractLsb' 32 12).toNat
      let first := (w0.extractLsb' 0 12).toNat
      let en := (w1.extractLsb' 32 19).toNat
      let st := (w1.extractLsb' 0 19).toNat
      if w0 &&& 0x00FFF000FFFFF000 = 0 ∧ w1 &&& 0xFFF80000FFF80000 = 0 ∧ first ≤ last ∧ last < (s.vd vd).qlen ∧ en % 128 = 0 ∧ st % 128 = 0
          ∧ st < en ∧ en ≤ 0x40000 then some (first, last, st, en, w0.extractLsb' 56 8)
      else none)

/-- Scratchpad lines of a core that a save leaves out: discarded ones that hold no register of a resident thread. -/
def dropLines (ds : List (Nat × Nat × Nat × Nat × BitVec 8)) (h : Nat) (k : Core) : List Nat :=
  (List.range 2048).filter (fun l =>
    ds.any (fun (a, b, st, en, _) => decide (a ≤ h ∧ h ≤ b ∧ st ≤ 128 * l ∧ 128 * l < en)) &&
    !k.threads.any (fun x => decide (x.2.wp < 128 * l + 128 ∧ 128 * l < x.2.wp + Config.registerBytes)))

/-- Tiles that a save leaves out. -/
def dropTile (ds : List (Nat × Nat × Nat × Nat × BitVec 8)) (h t : Nat) : Bool :=
  ds.any (fun (a, b, _, _, m) => decide (a ≤ h ∧ h ≤ b) && m.getLsbD t)

/-- The pieces of a core image behind the scratchpad, by offset; lanes of discarded tiles are left out. `k` is the core as it is saved. -/
def State.imageTail (s : State) (node c : Nat) (k : Core) (skip : Nat → Bool) : List (Nat × List Byte) :=
  [(0x40000, s.coreHeader node c k), (0x40100, openTable 1 16 64 (k.press.map PressOp.words)),
   (0x40500, openPart 2 256 (match k.wm with
     | none => []
     | some w => w.words)), (0x40600, List.replicate 2560 0)]
    ++ (List.range 4).map (fun t => (0x41000 + 0x2000 * t, match k.thread t with
        | none => List.replicate 8192 0
        | some th => padTo 8192 (threadRecord th)))
    ++ ((List.range 8).filter (fun t => !skip t)).map (fun t => (0x49000 + 5120 * t, (k.tile t).bytes))
    ++ [(0x53000, wordBytes (k.tiles.toList.map (·.tagWord))), (0x53040, List.replicate 4032 0), (0x54000, openTable 3 120 384 (s.couch node c)),
        (0x5F400, padTo 4096 k.plan), (0x60400, List.replicate 3072 0)]

/-- The part of a piece that lies in a range of offsets. -/
def clip (lo hi : Nat) (p : Nat × List Byte) : Nat × List Byte :=
  let a := max lo p.1
  (a, (p.2.drop (a - p.1)).take (hi - a))

/-- Lines of a core image. -/
def imageLines : Nat := 3104

/-- The pieces that the handler writes between two lines: scratchpad lines that are not discarded, and what follows them (17 R370, R374). -/
def State.imagePieces (s : State) (node c : Nat) (sv : Saved) (skip : Nat → Bool) (lo hi : Nat) : List (Nat × List Byte) :=
  (((List.range (hi - lo)).map (lo + ·)).filter (fun l => decide (l < headerLine) && !sv.drop.contains l)).map (fun l =>
      (128 * l, memBytes s.spad (spadKey c (128 * l)) 128))
    ++ (if hi ≤ headerLine then []
        else ((s.imageTail node c sv.core skip).map (clip (128 * lo) (128 * hi))).filter (fun p => !p.2.isEmpty))

/-- Bytes written at a virtual address, none where a page of them is missing or an engine holds one of them. -/
def State.writeVa (s : State) (vd : Fin 8) (ctx : Nat) (va : Word) (bs : List Byte) : Option State :=
  match s.vaLocs vd ctx va bs.length ⟨false, true, false⟩ with
  | .error _ => none
  | .ok ls => if s.anyHeldW ls then none else some (s.vaStore vd ctx va ls bs)

/-- Lines of an image that hold poisoned bytes are poisoned (17 R383). -/
def State.poisonImage (s : State) (vd : Fin 8) (ctx : Nat) (image : Word) (bad : List (Nat × Nat)) : State :=
  bad.foldl (fun st (off, n) => match st.vaLocs vd ctx (image + wordOf off) n ⟨false, false, false⟩ with
    | .error _ => st
    | .ok ls => { st with poisonD := ((ls.map (fun l => l.key / 128)).foldl setInsert st.poisonD) }) s

/-- The poisoned data units of a core by their places in its image: scratchpad units, lanes and words of the plan store (17 R370, R383). -/
def State.imageBad (s : State) (core : Nat) (skip : Nat → Bool) : List (Nat × Nat) :=
  (s.poisonS.filter (fun u => u / 2 ^ 15 == core)).map (fun u => (u % 2 ^ 15 * 8, 8)) ++
    (s.poisonT.filter (fun u => u / 8192 == core && !skip (u / 1024 % 8))).map (fun u => (0x49000 + u % 8192 / 1024 * 5120 + u % 1024 * 5, 5)) ++
    (s.poisonP.filter (fun u => u / 512 == core)).map (fun u => (0x5F400 + u % 512 * 8, 8))

/-- A thread as its save leaves it: one that was Parked is at its PARK, to execute it again (11 R291). -/
def Thread.asSaved (th : Thread) : Thread :=
  match th.run with
  | .parked _ _ => { th with run := .ready }
  | _ => th

/-- A core enters Saving: the status blocks of its threads are written, its image begins to stand in for its scratchpad, and it holds no thread
any more; its handler still writes the image (02 R47, 17 R374, R376). -/
def State.enterSaving (s : State) (node : Nat) (c : Ctx) (core : Nat) : State :=
  let n := s.node node
  let h := core - (s.vd n.vd).qbase
  let ds := s.discards n.vd n.ctx c
  let k := s.core core
  let kept : Core := { k with
    slots := k.slots.map (·.map Thread.asSaved)
    tiles := Vector.ofFn (fun i => if dropTile ds h i.val then Tile.reset else k.tiles[i])
    stopAt := none }
  let sv : Saved := ⟨kept, 0, c.savea + wordOf (0x10000 + h * 0x61000), dropLines ds h k, []⟩
  let t : State := { (s.forget (fun i => coreStep i == some core && (match i with
      | .resume _ _ _ => false
      | _ => true))) with
    spad := k.threads.foldl (fun m x => memPut m (spadKey core (x.2.wp + 2688)) x.2.statusBytes) s.spad
    saved := tabSet s.saved (savedKey node core) sv }
  t.setCore core { k.emptied with bound := some node }

/-- SAVING begins, or the context is killed for want of room (17 R370, R374). -/
def execSaving (node : Nat) (s : State) : Out :=
  let n := s.node node
  if !s.saveReady node n then .next s
  else
    match (s.vd n.vd).ctx s.dram n.ctx with
    | none => .next (s.killCtx n.vd n.ctx)
    | some c =>
      if c.savelen.toNat < saveNeed (s.vd n.vd) then .next (s.killCtx n.vd n.ctx)
      else
        let t := n.victims.foldl (fun st core => st.enterSaving node c core) (s.modNode node (fun n => { n with ladder := .saving }))
        .next (t.dueWithin (s.imageBound n.vd n.victims.length) (.saveComplete node))

/-- The tiles of a saved core whose lanes are left out. -/
def State.skipTiles (s : State) (node core : Nat) : Nat → Bool :=
  let n := s.node node
  match (s.vd n.vd).ctx s.dram n.ctx with
  | none => fun _ => false
  | some c => dropTile (s.discards n.vd n.ctx c) (core - (s.vd n.vd).qbase)

/-- Poisoned units of a saving core that its image does not show yet below a line: those in lines that are being written, and those found poisoned
since their line was written (17 R365, R383). -/
def State.newBad (s : State) (core : Nat) (sv : Saved) (skip : Nat → Bool) (hi : Nat) : List (Nat × Nat) :=
  (s.imageBad core skip).filter (fun x => decide (x.1 / 128 < hi) && !sv.drop.contains (x.1 / 128) &&
    (decide (sv.lines ≤ x.1 / 128) || !sv.bad.contains x))

/-- The handler of a saving core writes its image up to a line; none while a page is missing. -/
def State.saveLines (s : State) (node hi core : Nat) : Option State :=
  match tabGet s.saved (savedKey node core) with
  | none => some s
  | some sv =>
    let n := s.node node
    let bad := s.newBad core sv (s.skipTiles node core) hi
    ((s.imagePieces node core sv (s.skipTiles node core) sv.lines hi).foldlM (fun (st : State) (off, bs) =>
      st.writeVa n.vd n.ctx (sv.image + wordOf off) bs) s).map (fun (t : State) =>
        let u := t.poisonImage n.vd n.ctx sv.image bad
        { u with saved := tabSet u.saved (savedKey node core) { sv with lines := hi, bad := sv.bad ++ bad } })

/-- In each ck the handlers of saving cores pass some lines; how many is left open (17 R374, 13 R405). -/
def State.saveTurn (s : State) (node : Nat) (n : Node) : State :=
  if n.ladder ≠ .saving then s
  else n.victims.foldl (fun st core =>
    match tabGet st.saved (savedKey node core) with
    | none => st
    | some sv => (st.drawn.saveLines node (min imageLines (sv.lines + Config.freeNat st.fresh % 4)) core).getD st) s

/-! ### The header of the virtual device (17 R373) -/

def NodeSt.code : NodeSt → Nat
  | .pending => 0 | .ready => 1 | .running => 2 | .displaced => 3 | .completed => 4 | .failed => 5

/-- A queue in the header: RPTR, the INDIRECT chain, and the header of the packet at which it is held. -/
def State.queueWords (s : State) (vd : Fin 8) (q : Fin 64) : List Word :=
  let x := s.queue vd q
  [wordOf q.val, wordOf x.rptr, wordOf x.chain.length] ++ x.chain.flatMap (fun f => [f.addr, wordOf f.next]) ++
    (if x.hold.isSome then [((s.qWord vd q 0).getD 0).setWidth 64] else [])

/-- A node in the header: its state and its argument snapshot. -/
def Node.words (n : Node) : List Word :=
  [wordOf n.mould, wordOf n.replay, wordOf n.index, wordOf n.st.code, wordOf n.count, wordOf n.age] ++ listWords (n.args.map (·.toNat))

/-- A buffer entry of stream i in the header, with its state and the members that have arrived at it (13 R318). -/
def State.entryWords (s : State) (i : Nat) (t : Stream) (e : Entry) : List Word :=
  (match e.kind with
    | .fire => [0]
    | .phase b => [1, wordOf b.toNat]
    | .set old new => [2] ++ listWords old ++ listWords new) ++
  [wordOf e.num, wordOf e.gid, wordOf e.report.toNat, wordOf e.quiet, wordOf e.due.toNat] ++ listWords e.members ++
    listWords (e.members.filter (s.arrivedAt i t.node e))

/-- A Deckle stream in the header. -/
def State.streamWords (s : State) (i : Nat) (t : Stream) : List Word :=
  [wordOf i, wordOf t.pos, wordOf t.next, wordOf t.ended.toNat, wordOf t.opened.toNat] ++ t.buf.flatMap (s.entryWords i t) ++
    t.firing.flatMap (fun (k, ms) => wordOf k :: listWords ms)

/-- The items of the virtual-device header of a context. -/
def State.headerWords (s : State) (vd : Fin 8) (ctx : Nat) : List Word :=
  let mine (n : Node) : Bool := n.vd == vd && n.ctx == ctx
  (((List.range 64).map (Fin.ofNat 64)).filter (fun q => s.queueCtx vd q.val == some ctx)).flatMap (s.queueWords vd) ++
    (s.nodes.filter (fun x => mine x.2)).flatMap (fun x => x.2.words) ++
    (s.vd vd).moulds.flatMap (fun (h, l) => [wordOf h, wordOf l.vlast]) ++
    (s.streams.filter (fun x => mine (s.node x.2.node))).flatMap (fun (i, t) => s.streamWords i t)

/-- The 64 KiB header; the places of its items are open. -/
def State.vdHeader (s : State) (vd : Fin 8) (ctx : Nat) : List Byte := openPart 0 0x10000 (s.headerWords vd ctx)

/-- SAVE_COMPLETE: what is left of the images and the header are written, the victims are free, and the node is Displaced; while a page of the save
area is missing the save is not done (17 R374). -/
def execSaveComplete (node : Nat) (s : State) : Out :=
  let n := s.node node
  if n.ladder ≠ .saving || !n.st.live then .next s
  else
    match (s.vd n.vd).ctx s.dram n.ctx with
    | none => .next (s.due (s.clk + 1) (.saveComplete node))
    | some c =>
      match (n.victims.foldlM (fun (st : State) core => st.saveLines node imageLines core) s).bind (fun t =>
          t.writeVa n.vd n.ctx c.savea (t.vdHeader n.vd n.ctx)) with
      | none => .next (s.due (s.clk + 1) (.saveComplete node))
      | some t =>
        let u := n.victims.foldl (fun st core => st.modCore core (fun k => { k with bound := none })) t
        .next (u.modNode node (fun n => { n with ladder := .saved, st := .displaced, victims := [], killAt := none }))

/-! ## Restore (17 R374, R375) -/

/-- The scratchpad of a core as its image holds it: discarded lines that nothing wrote read as zero. None while a page of it is missing. -/
def State.readImage (s : State) (n : Node) (sv : Saved) : Option (List Byte) :=
  match s.vaLocs n.vd n.ctx sv.image Config.spadBytes ⟨false, false, false⟩ with
  | .error _ => none
  | .ok ls => some ((ls.zipIdx).map (fun (x, i) => if sv.drop.contains (i / 128) then 0 else s.readLoc x))

/-- A line of an image is poisoned. -/
def State.lineBad (s : State) (n : Node) (sv : Saved) (l : Nat) : Bool :=
  !sv.drop.contains l && (match s.translate n.vd n.ctx (sv.image + wordOf (128 * l)) ⟨false, false, false⟩ with
    | .ok k => s.poisonD.contains (k / 128)
    | _ => false)

/-- A data unit of a core is poisoned as its image holds it: its line is poisoned, for the unit itself or as a whole (17 R383). -/
def State.unitBad (s : State) (n : Node) (sv : Saved) (off len : Nat) : Bool :=
  [off / 128, (off + len - 1) / 128].any (fun l => s.lineBad n sv l &&
    (sv.bad.contains (off, len) || !sv.bad.any (fun x => x.1 / 128 == l || (x.1 + x.2 - 1) / 128 == l)))

/-- The poisoned units of a restored core take their marks: scratchpad units, lanes and words of the plan store. -/
def State.poisonBack (s : State) (n : Node) (sv : Saved) (core : Nat) : State :=
  { s with
    poisonS := s.poisonS.filter (fun u => u / 2 ^ 15 != core) ++
      ((List.range (2 ^ 15)).filter (fun u => s.unitBad n sv (8 * u) 8)).map (fun u => core * 2 ^ 15 + u)
    poisonT := s.poisonT.filter (fun u => u / 8192 != core) ++
      ((List.range 8192).filter (fun u => s.unitBad n sv (0x49000 + u / 1024 * 5120 + u % 1024 * 5) 5)).map (fun u => core * 8192 + u)
    poisonP := s.poisonP.filter (fun u => u / 512 != core) ++
      ((List.range 512).filter (fun u => s.unitBad n sv (0x5F400 + 8 * u) 8)).map (fun u => core * 512 + u) }

/-- n bytes of an image from an offset, zeros where they cannot be read. -/
def State.imageBytes (s : State) (n : Node) (sv : Saved) (off len : Nat) : List Byte :=
  (List.range len).map (fun i =>
    match s.translate n.vd n.ctx (sv.image + wordOf (off + i)) ⟨false, false, false⟩ with
    | .ok k => memRead s.dram k
    | _ => 0)

/-- An 8-byte word of a list of bytes. -/
def wordAt (bs : List Byte) (off : Nat) : Word := BitVec.ofNat 64 (leNat ((bs.drop off).take 8))

/-- PC, FMT, RND, SEED, SIGD and FRB from eight-byte words; a value that its register does not list leaves the thread's (01 R33, 02 R67),
and so does a SEED of 0, which 04 R117 leaves open (DESIGN CHOICE, log 86). -/
def Thread.takeRegs (th : Thread) (w : Nat → Word) : Thread :=
  ((((({ th with pc := w 0 } : Thread).writeSReg .fmt (w 1)).writeSReg .rnd (w 2)).writeSReg .seed (w 3)).writeSReg .sigd (w 4)).writeSReg .frb (w 5)

/-- A thread as its record and its status block give it back: the words of both, and what the device keeps of its queues and operations (02 R47, 17
R372). A status block whose line the save left out gives nothing: those registers are the record's (17 R357, R374; DESIGN CHOICE, log 12). -/
def Thread.readBack (th : Thread) (block : Option (List Byte)) (r : List Byte) : Thread :=
  let w (i : Nat) : Word := wordAt r (8 * i)
  let regs : Nat → Word := match block with
    | some b => fun i => wordAt b (8 * i)
    | none => fun i => if i = 0 then w 1 else w (i + 2)
  { th.takeRegs regs with
    blk := BitVec.ofNat 8 ((w 2).toNat / 1024)
    tstat := tstatWrite th.tstat (w 9)
    taddr := w 10
    tinfo := tinfoWrite th.tinfo (w 11)
    gangWord := w 12
    handler := (w 0)[3]
    awaiting := (w 0)[4]
    bank := Vector.ofFn (fun i => wordAt r (256 + 8 * i.val))
    lq := Vector.ofFn (fun q => (th.lq[q]).zipIdx.map (fun (e, i) => match e with
      | .data _ => .data (wordAt r (512 + 256 * q.val + 8 * i))
      | e => e))
    sq := Vector.ofFn (fun q => (th.sq[q]).zipIdx.map (fun (_, i) => wordAt r (1536 + 256 * q.val + 8 * i))) }

/-- A tile as its lanes and its tag give it back (17 R370). -/
def tileOf (lanes : List Byte) (tag : Word) : Tile :=
  ⟨(List.range 1024).filterMap (fun l =>
      let x : BitVec 40 := BitVec.ofNat 40 (leNat ((lanes.drop (5 * l)).take 5))
      if x = 0 then none else some (l, x)),
    if tag[0] then .xi else .fp32,
    if tag[1] then none else some ((tag.extractLsb' 32 24).toNat, (tag.extractLsb' 8 24).toNat)⟩

/-- A core as its image gives it back (17 R374). `pad` is its scratchpad. Where an image holds a part in an open layout, and of the Deckle's and
the engines' state, the device goes by what it keeps (DESIGN CHOICE, log 12). -/
def State.readCore (s : State) (n : Node) (sv : Saved) (pad : List Byte) : Core :=
  let counts := s.imageBytes n sv 0x40008 8
  let tags := s.imageBytes n sv 0x53000 64
  { sv.core with
    slots := Vector.ofFn (fun t => (sv.core.slots[t]).map (fun th =>
      th.readBack (if sv.drop.contains ((th.wp + 2688) / 128) then none else some ((pad.drop (th.wp + 2688)).take 128))
        (s.imageBytes n sv (recordOff t.val) 2048)))
    tiles := Vector.ofFn (fun i => if sv.core.tiles[i] = Tile.reset then Tile.reset
      else tileOf (s.imageBytes n sv (0x49000 + 5120 * i.val) 5120) (wordAt tags (8 * i.val)))
    plan := if sv.core.plan.isEmpty then [] else s.imageBytes n sv 0x5F400 4096
    sent := BitVec.ofNat 32 (leNat (counts.take 4))
    recv := BitVec.ofNat 32 (leNat (counts.drop 4)) }

/-- The steps of operations that waited for their core go on by themselves (`unlessAway`), and those of its Press and of its new threads are put
on the agenda again; what a thread was in, it is in again, and the rotation goes on after the slot that issued last on the core (02 R45). -/
def State.restoreCore (s : State) (node core : Nat) (k : Core) (bytes : List Byte) : State :=
  let clean : Memory := s.spad.filter (fun (k, _) => k / 2 ^ 18 != core)
  let opened := ((s.node node).stream.bind s.stream).any (·.opened)
  let here := s.core core
  let t : State := { s.setCore core { k with bound := some node, lastSlot := here.lastSlot, l1d := here.l1d, l1i := here.l1i } with
    spad := memPut clean (spadKey core 0) bytes
    saved := tabErase s.saved (savedKey node core) }
  let u := k.press.foldl (fun st p => st.due (s.clk + 1) (.pressOpStart core p.id)) t
  k.threads.foldl (fun st (i, th) => if opened && th.run == .blocked .start then st.due (s.clk + 1) (.spawnThreadReady core i) else st) u

/-- RESTORE_COMPLETE: a core is back as it was at its stop; the node runs again once every saved core is (13 R308, R319). -/
def execRestoreComplete (node core : Nat) (s : State) : Out :=
  let n := s.node node
  match tabGet s.saved (savedKey node core) with
  | none => .next s
  | some sv =>
    if !n.restoring.contains core then .next s
    else if s.coreHeld core then .next (s.due (s.clk + 1) (.restoreComplete node core))
    else
      match s.readImage n sv with
      | none => .next (s.due (s.clk + 1) (.restoreComplete node core))
      | some bytes =>
        let rest := n.restoring.filter (· != core)
        let done := rest.isEmpty && (s.savedCores node).all (· == core)
        let t := ((s.poisonBack n sv core).restoreCore node core (s.readCore n sv bytes) bytes).modNode node (fun n => { n with
          restoring := rest
          ladder := if done && n.ladder == .saved then .running else n.ladder
          st := if done then .running else n.st })
        let halt := n.ladder == .stopping && (n.victims.contains core || decide (s.clk < n.resumeAt.getD 0))
        let u := if halt then t.modCore core (fun k => { k with stopAt := some s.clk }) else t.startCore core
        let v := if ((s.node node).stream.bind s.stream).any (·.ended) && ((u.node node).stream.bind u.stream).all (fun st =>
            (st.oldest (core - (s.vd n.vd).qbase)).isNone) then u.earlyTrap node core else u
        .next ((v.arrivalTry core node).gangTry)

/-- KILLT_EXPIRY: the save is not done (13 R325, R326). -/
def execKilltExpiry (node : Nat) (s : State) : Out :=
  let n := s.node node
  if (n.ladder == .stopping || n.ladder == .saving) && n.st.live && n.killAt.any (fun t => decide (t ≤ s.clk)) then .next (s.killCtx n.vd n.ctx)
  else .next s

/-- A context whose nodes have all left or been saved is switched out (13 R326). -/
def State.switchTry (s : State) (vd : Fin 8) : State :=
  (s.vd vd).ctxSt.foldl (fun st (c, x) =>
    if x = .soft ∧ s.nodes.all (fun (i, n) => n.vd != vd || n.ctx != c || !n.st.live || (n.st == .displaced && n.ladder == .saved && (s.boundCores i).isEmpty)) then
      st.modVd vd (fun v => { v with ctxSt := tabSet v.ctxSt c .switched })
    else st) s

/-- A context has work for the quire: a node that is Ready or holds cores. -/
def State.ctxWorks (s : State) (vd : Fin 8) (ctx : Nat) : Bool :=
  s.nodes.any (fun (_, n) => n.vd == vd && n.ctx == ctx && (n.st.live || n.st == .ready))

/-- The lowest switched-out context comes back once no context in service has work for the quire; when it does is left open (13 R294, R326;
DESIGN CHOICE, log 75). -/
def State.returnTry (s : State) (vd : Fin 8) : State :=
  if s.nodes.any (fun (_, n) => n.vd == vd && (tabGet (s.vd vd).ctxSt n.ctx) != some .switched && s.ctxWorks vd n.ctx) then s
  else
    match (s.vd vd).ctxSt.find? (fun x => x.2 == .switched) with
    | none => s
    | some (c, _) => s.modVd vd (fun v => { v with ctxSt := tabErase v.ctxSt c })

end Sys2Proof.Machine
end

