-- ==== Sys2Proof/Machine/Recovery.lean ====
section
/-!
DEFINITION. The resident handler, the fault server's actions, kills and resets, machine checks and self-test
(17_recovery.md R364 to R368, R378 to R385; 18_prog_pipeline_fault.md R389, R390; 16 R355).
-/
namespace Sys2Proof.Machine

/-! ## The resident handler (17 R364, 18 R389) -/

/-- TSTAT.KIND of a thread. -/
def Thread.kind (th : Thread) : Nat := (th.tstat.extractLsb' 16 8).toNat

/-- A thread's gang goes on where the thread stands, once no member of it waits for service: no follower owns a pc. A member whose
instruction its Watermark unit still holds comes there when that retires (02 R52, 08 R223, 17 R359). -/
def State.startGang (s : State) (c t : Nat) : State :=
  match s.thread c t with
  | none => s
  | some th =>
    let ms := s.gangMembers c t
    ms.foldl (fun st (x, _) => st.freeThreads x) (ms.foldl (fun st (x, y) => st.modThread x y (fun m =>
      { m with pc := if m.run = .blocked .unit then th.pc - 4 else th.pc })) s)

/-- The fetch of every word of the instruction at a code offset finds its page (03 R70, R71). -/
def State.codeFound (s : State) (th : Thread) (x : Word) : Bool :=
  match s.fetchWord th x with
  | .error k => k != 6
  | .ok w =>
    match s.fetchRest th (x + 4) (lenWords (lenOf w) - 1) with
    | .error k => k != 6
    | .ok _ => true

/-- The second walk finds the page: that of TADDR, or for a fault of the fetch those of the whole instruction there (17 R364). -/
def State.walkFinds (s : State) (th : Thread) : Bool :=
  let n := s.node th.node
  if th.codeFault then s.codeFound { th with handler := false } th.taddr
  else canonical th.taddr && (match s.translate n.vd n.ctx th.taddr ⟨false, false, false⟩ with
    | .ok _ => true
    | _ => false)

/-- A thread whose trap needs service: a record, and the thread Stopped in handler mode (17 R364). -/
def State.askService (s : State) (c t : Nat) (th : Thread) : State :=
  (s.setThread c t { th with awaiting := true, stopped := true }).sendRecord (s.recordOf 1 c t th)

/-- Offset of the drain word (18 R389). -/
def drainOff : Nat := 0x3FBF8

/-- The word that a core's drain word holds. -/
def State.drainWord (s : State) (c : Nat) : Nat := leNat (memBytes s.spad (spadKey c drainOff) 8)

/-- The note in a thread's handler bank that it is to be redirected: w31 of the bank is 1 (18 R389; DESIGN CHOICE, log 57). -/
def Thread.noted (th : Thread) : Bool := th.bank[31] == 1

def Thread.note (th : Thread) (on : Bool) : Thread := { th with bank := th.bank.set 31 (if on then 1 else 0) }

/-- The places of a core's drain word. -/
def drainLocs (c : Nat) : List Loc := spadLocs c drainOff 8

/-- The resident handler's act for a thread that has entered it: a translation fault that is gone is retried; under the stream policy the
drain word of the core decides over traps of KIND 4 to 9, once no engine holds it (07 R209, 08 R224); everything else asks for service. -/
def State.handlerAct (s : State) (c t : Nat) (th : Thread) : State :=
  let k := th.kind
  if k = 6 ∧ s.walkFinds th then (s.leaveTrap c t).startGang c t
  else if (s.vdOf th).policy.contains (s.node th.node).ctx ∧ 4 ≤ k ∧ k ≤ 9 then
    let w := s.drainWord c
    if s.anyHeld (drainLocs c) then s
    else if w % 2 = 0 then s.haltCore c t
    else if s.anyHeldW (drainLocs c) then s
    else
      let u := s.storeLocs ((drainLocs c).zip (leBytes 8 (w - 1)))
      (u.setThread c t { th.note true with awaiting := true, stopped := true }).sendRecord (s.recordOf 1 c t th)
  else s.askService c t th

/-- The handler acts for the thread: it is in handler mode, not yet served and not halted. The steps here stand for the handler's code
(DESIGN CHOICE, log 8). -/
def State.handlerDue (s : State) (th : Thread) : Bool := th.handler && !th.awaiting && !th.stopped && th.eret.isNone

/-- The handler's ERET after a RESUME: out of handler mode at TSTAT.RPC, and its gang goes on (17 R368). -/
def State.handlerEret (s : State) (c t : Nat) (th : Thread) : State :=
  ((s.setThread c t { th with eret := none }).leaveTrap c t).startGang c t

/-- The resident handlers of a core, in slot order (17 R365). -/
def State.handlerTurn (s : State) (c : Nat) : State :=
  (List.range 4).foldl (fun st t => match st.thread c t with
    | none => st
    | some th =>
      if th.eret.any (fun ck => decide (ck ≤ s.clk)) && !(st.core c).treeStopped s.clk then st.handlerEret c t th
      else if st.handlerDue th then st.handlerAct c t th
      else st) s

/-! ## Records and the fault server (17 R366 to R368, 18 R390) -/

/-- A fault record as it stands in memory: 64 bytes (17 R367). -/
def FaultRec.bytes (r : FaultRec) (seq dev : Nat) : List Byte :=
  [r.rkind % 256 * 2 ^ 56 + r.vd.val * 2 ^ 48 + r.ctx % 256 * 2 ^ 40 + r.h % 4096 * 2 ^ 28 + r.slot % 4 * 2 ^ 26 + dev % 1024 * 2 ^ 16 + seq % 65536,
    r.tstat.toNat, r.taddr.toNat, r.tinfo.toNat, r.clk, r.node % 65536 * 2 ^ 48 + r.mould % 64 * 2 ^ 42 + r.replay % 4 * 2 ^ 40, r.mc.toNat,
    r.info.toNat].flatMap (leBytes 8)

/-- Transit bound of an action: of the own mill role, or of a peer. -/
def State.actionBound (s : State) (vd : Fin 8) : Nat := if (s.vd vd).fsid[11] then 40000 else 2000

/-- The node that a record names. -/
def State.recordNode (s : State) (r : FaultRec) : Option Nat :=
  (s.nodes.find? (fun (_, n) => n.vd == r.vd && n.ctx == r.ctx && n.index == r.node && n.mould == r.mould && n.replay == r.replay && !n.st.over)).map (·.1)

/-- The node of the thread that a record is about. -/
def State.threadNode (s : State) (r : FaultRec) : Option Nat :=
  (s.thread ((s.vd r.vd).qbase + r.h) r.slot).bind (fun th => if th.awaiting then some th.node else none)

/-- The stream policy (18 R390): RESUME for a trap of KIND 4 to 9, KILL-NODE for everything else that names a node. -/
def State.streamAnswer (s : State) (r : FaultRec) : State :=
  let k := (r.tstat.extractLsb' 16 8).toNat
  match (if r.rkind ≤ 2 then s.threadNode r else none).or (s.recordNode r) with
  | none => s
  | some n => s.dueWithin (s.actionBound r.vd)
      (if r.rkind = 1 ∧ 4 ≤ k ∧ k ≤ 9 then .resume r.vd ((s.vd r.vd).qbase + r.h) ⟨n, r.slot⟩ else .killNode r.vd n)

/-- The server's answer: a contained machine-check record always receives KILL-CONTEXT or RESET-VD, the watchdog of a mill role RESET-VD, and
which is otherwise left open (17 R368, R382; an error without a virtual device has none to act on); for a context under
the stream policy the others follow R390; else the action comes from outside. -/
def State.serverAnswer (s : State) (r : FaultRec) : State :=
  if r.rkind = 7 then
    (if r.mc.extractLsb' 16 2 = 2 ∧ !r.alone then
      (if r.mc.toNat % 65536 < 0x41C0 ∧ Config.freeNat s.fresh % 2 = 0 then s.drawn.dueWithin (s.actionBound r.vd) (.killContext r.vd r.ctx)
       else s.drawn.dueWithin (s.actionBound r.vd) (.resetVd r.vd))
    else s)
  else if (s.vd r.vd).policy.contains r.ctx then s.streamAnswer r
  else s

/-! ### The firewall (16 R355) -/

/-- The boundary routers that a message between the array and the mill column passes in a row. -/
def State.passes (s : State) (cls row : Nat) : Bool := ((tabGet s.fw row).getD FwCfg.reset).pass.getLsbD cls

/-- The classes that the router of a spare core which stands in for an array core passes: every class toward the array, the reset ones toward
column 64. -/
def sparePass (toArray : Bool) : BitVec 8 := if toArray then 0xFF else FwCfg.reset.pass

/-- A message of a class passes between a core and the mill column: by the boundary router of its row, or by the router of the spare that stands in
for the core. -/
def State.reaches (s : State) (cls core : Nat) (toArray : Bool) : Bool :=
  if s.standIn.contains core then (sparePass toArray).getLsbD cls else s.passes cls (corePos core).2

/-- The link bank of the boundary router of a row. -/
def routerBank (row : Nat) : Nat := 0x30C0 + 64 * 64 + row

/-- A message whose class the firewall does not pass is dropped: the drop is logged, and the context that sent it is killed. -/
def State.firewallDrop (s : State) (vd : Fin 8) (ctx row : Nat) : State :=
  (s.machineCheck ⟨routerBank row, 9, .contained, none, some (BitVec.ofNat 64 (ctx % 256 * 2 ^ 40)), some vd, []⟩).killCtx vd ctx

/-- Row of a quire core. -/
def State.rowOf (s : State) (vd : Fin 8) (h : Nat) : Nat := (corePos ((s.vd vd).qbase + h)).2

/-- FAULT_RECORD: the record crosses the firewall where a core sent it, takes its sequence number, leaves for its server, on lane 2 to a peer, and is
answered (16 R355, 17 R366 to R368, 19 R395). -/
def execFaultRecord (fr : FaultRec) (s : State) : Out :=
  if fr.rkind ≤ 2 && !s.reaches 5 ((s.vd fr.vd).qbase + fr.h) false then .next (s.firewallDrop fr.vd fr.ctx (s.rowOf fr.vd fr.h))
  else
    let m : Sent := .record s.seq.toNat s.devid fr
    let fsid := (s.vd fr.vd).fsid
    let peer := (fsid.extractLsb' 0 10).toNat
    let t : State := { s with seq := s.seq + 1 }
    .next ((if fsid[11] && peer != s.devid then t.depart peer 2 m else { t with outbox := t.outbox ++ [m] }).serverAnswer fr)

/-- The thread of a node that an action names is saved, or about to be: the action waits (17 R365). -/
def State.actionWaits (s : State) (node core slot : Nat) : Bool :=
  let waits (k : Core) : Bool := (k.thread slot).any (fun th => th.node == node && th.awaiting)
  let n := s.node node
  (tabGet s.saved (savedKey node core)).any (fun sv => waits sv.core) ||
    (waits (s.core core) && (n.ladder == .stopping || n.ladder == .saving) && n.victims.contains core)

/-- RESUME: the handler of the thread of a node that waits for service executes its ERET within 64 ck, at TSTAT.RPC, which for a thread that carries the
note becomes the drain word with bit 0 clear, read once no engine holds it; a halted core issues again. An action that names a thread which is gone
is discarded (05 R156, 13 R405, 17 R365, R368, 18 R389). -/
def execResume (vd : Fin 8) (core : Nat) (slot : ThreadSlot) (s : State) : Out :=
  if s.actionWaits slot.node core slot.slot then .next (s.due (s.clk + 1) (.resume vd core slot))
  else
    match s.thread core slot.slot with
    | none => .next s
    | some th =>
      if th.node ≠ slot.node ∨ (s.node slot.node).vd ≠ vd ∨ !th.awaiting then .next s
      else if !s.reaches 4 core true then .next (s.firewallDrop vd (s.node slot.node).ctx (corePos core).2)
      else if th.noted && s.anyHeld (drainLocs core) then .next (s.due (s.clk + 1) (.resume vd core slot))
      else
        let drain : Word := BitVec.ofNat 64 (s.drainWord core / 2 * 2)
        let back : Thread := if th.noted then { th.note false with tstat := (drain <<< 32) ||| (th.tstat &&& 0xFFFFFFFF) } else th
        .next ((({ s with fresh := s.fresh + 1 } : State).modCore core (fun k => { k with halted := false })).setThread core slot.slot
          { back with awaiting := false, stopped := (s.core core).stopAt.isSome, eret := some (s.later 64) } |>.freeThreads core)

/-- HOLD: the thread stays Stopped until a later action (17 R368). -/
def execHold (_vd : Fin 8) (_core _slot : Nat) (s : State) : Out := .next s

/-- A core of a node is saved with a thread that waits for service: the action waits (17 R365). -/
def State.killWaits (s : State) (node : Nat) : Bool :=
  s.saved.any (fun (k, sv) => k / 8192 == node && sv.core.threads.any (fun x => x.2.awaiting))

/-- KILL-NODE, which crosses the firewall to the node's cores: the node is Failed and a record goes to the fault server (13 R308, 16 R355, 17 R368;
log 77). -/
def execKillNode (vd : Fin 8) (node : Nat) (s : State) : Out :=
  let n := s.node node
  if n.vd ≠ vd || n.st.over then .next s
  else if s.killWaits node then .next (s.due (s.clk + 1) (.killNode vd node))
  else match (s.boundCores node).find? (fun c => !s.reaches 4 c true) with
  | some c => .next (s.firewallDrop vd n.ctx (corePos c).2)
  | none => .next ((s.failNode node).sendRecord (s.nodeRecord 6 n 0))

/-- KILL-CONTEXT (17 R378). -/
def execKillContext (vd : Fin 8) (ctx : Nat) (s : State) : Out := .next (s.killCtx vd ctx)

/-! ## Virtual-device reset (17 R379, R380) -/

/-- A queue that is drained. -/
def Queue.drained (x : Queue) : Queue := { x with rptr := x.wptr, chain := [], hold := none, en := false }

/-- Contexts of a virtual device: those of its table and those of its nodes. -/
def State.contexts (s : State) (vd : Fin 8) : List Nat :=
  (List.range 256).filter (fun c => ((s.vd vd).ctx s.dram c).isSome || s.nodes.any (fun (_, n) => n.vd == vd && n.ctx == c && !n.st.over))

/-- A member-reset notice goes to a device on lane 2; this device takes its own (17 R379, 19 R395, R396). -/
def State.sendNotice (s : State) (vd : Fin 8) (dev : Nat) : State :=
  if dev = s.devid then s.dueWithin 1024 (.memberResetNotice vd dev) else s.depart dev 2 (.notice dev vd)

/-- The contexts for which the fault server of a virtual device keeps the stream policy: its mill role's, as the firmware image has it (18
R390). -/
def policyOf (vd : Fin 8) : List Nat := (List.range 256).filter (Config.streamPolicy vd.val)

/-- RESET-VD: every context is killed, the queues are drained, the bound devices receive notices, the Headbox entries answer status 1, the
mill role is reloaded, and the teardown begins. A virtual device that is being formed is reset once it is. -/
def execResetVd (vd : Fin 8) (s : State) : Out :=
  let v := s.vd vd
  if v.en && v.busy then .next (s.due (s.clk + 1) (.resetVd vd))
  else
    let t := (s.contexts vd).foldl (fun st c => st.killCtx vd c) s
    let u := t.modVd vd (fun v => { v with
      queues := v.queues.map Queue.drained, headOff := true, moulds := [], policy := policyOf vd })
    let w := v.bind.foldl (fun st (d, _) => st.sendNotice vd d) u
    .next (if v.en then w.dueWithin 12000000 (.teardown vd) else w)

/-- Parked threads of a context wake as if their lines had been written (17 R380). -/
def State.wakeParked (s : State) (vd : Fin 8) : State :=
  { s with agenda := s.agenda ++ (s.cores.flatMap (fun (c, k) => k.threads.filterMap (fun (t, th) =>
      match th.run with
      | .parked _ _ => if (s.node th.node).vd = vd then some (s.clk + 4, Instr.parkWake c t) else none
      | _ => none))) }

/-- Bit 0 of a context's abort word is set by one atomic OR, or a record says that it could not be (17 R380). -/
def State.abortWord (s : State) (vd : Fin 8) (dev c : Nat) : State :=
  match (s.vd vd).ctx s.dram c with
  | none => s
  | some k =>
    if k.abortw = 0 then s
    else
      let fail := s.sendRecord (s.vdRecord 9 vd c (BitVec.ofNat 64 (2 ^ 63 + dev % 1024)))
      if k.abortw.toNat % 8 ≠ 0 then fail
      else
        match s.vaLocs vd c k.abortw 8 ⟨true, true, false⟩ with
        | .error _ => fail
        | .ok ls => s.vaStoreNat vd c k.abortw ls (Nat.lor (s.locsNat ls) 1)

/-- An engine holds a context's abort word (10 R257). -/
def State.abortHeld (s : State) (vd : Fin 8) (c : Nat) : Bool :=
  match (s.vd vd).ctx s.dram c with
  | none => false
  | some k =>
    k.abortw != 0 && k.abortw.toNat % 8 == 0 && (match s.vaLocs vd c k.abortw 8 ⟨true, true, false⟩ with
      | .error _ => false
      | .ok ls => s.anyHeldW ls)

/-- A request of a virtual device to a device that has not left yet. -/
def State.unsent (s : State) (vd : Fin 8) (dev : Nat) (e : Nat × Nat × Sent) : Bool :=
  e.1 == dev && (match e.2.2.primitive with
    | none => false
    | some id => (tabGet s.ops id).any (fun o => (s.node o.node).vd == vd))

/-- MEMBER_RESET_NOTICE (17 R380): primitives to the peer fail and nothing further of them is performed, Parked threads wake, abort words are
set, and a record is sent. A virtual device that is not bound to that peer takes none. -/
def execMemberResetNotice (vd : Fin 8) (dev : Nat) (s : State) : Out :=
  if !(s.vd vd).bind.any (fun b => b.1 == dev) then .next s
  else if (s.contexts vd).any (s.abortHeld vd) then .next (s.due (s.clk + 1) (.memberResetNotice vd dev))
  else
    let t := s.modVd vd (fun v => { v with resetPeers := setInsert v.resetPeers dev })
    let u := t.ops.foldl (fun st (id, o) => match o.kind with
      | .fab f => if (st.node o.node).vd = vd ∧ f.dev = dev ∧ f.sent then st.dueWithin 1024 (.fabricAck id 3 []) else st
      | _ => st) { t with egress := t.egress.filter (fun e => !s.unsent vd dev e) }
    let w := (s.contexts vd).foldl (fun st c => st.abortWord vd dev c) (u.wakeParked vd)
    .next (w.sendRecord (s.vdRecord 9 vd 0 (BitVec.ofNat 64 (dev % 1024))))

/-! ## Machine checks (17 R381 to R383) -/

/-- The classes that R382 lists for a detector; a contained watchdog error is of a mill role's bank. -/
def mcListed (bank src : Nat) (k : McClass) : Bool :=
  match src, k with
  | 1, _ => true
  | 2, .fatal => false | 2, _ => true
  | 3, .fatal => false | 3, _ => true
  | 4, .contained => true
  | 5, .contained => true
  | 6, .contained => false | 6, _ => true
  | 7, .fatal => false | 7, _ => true
  | 8, .fatal => false | 8, _ => true
  | 9, .contained => true
  | 10, .contained => true
  | 11, .contained => decide (0x41C0 ≤ bank) | 11, .fatal => true
  | _, _ => false

/-- A residue mismatch strikes the operation that runs in a core's array, or in its Watermark unit, from a coefficient on that is left open (07 R214,
08 R235, 17 R382; log 69). -/
def Core.mismatch (k : Core) (src f : Nat) : Core :=
  if src = 5 then { k with press := k.press.map (fun p => if p.array && p.started.isSome then { p with bad := true } else p) }
  else if src = 4 then { k with wm := k.wm.map (fun w => { w with bad := some (f % max 1 w.seq.length) }) }
  else k

/-- The bytes of a w, v or m register of a workspace, by offset: one of 56, as a number says (02 R46). -/
def registerArea (n : Nat) : Nat × Nat :=
  if n < 32 then (8 * n, 8) else if n < 48 then (256 + 128 * (n - 32), 128) else (2304 + 16 * (n - 48), 16)

/-- A residue mismatch of an integer or vector instruction poisons its destination: of the thread that issued last on the core, a register that is left
open, where the detector names no unit and no Watermark instruction runs (17 R382, R383; DEDUCED, log 69). -/
def State.spoilDest (s : State) (c : Nat) (ev : McEvent) : State :=
  let k := s.core c
  if ev.src ≠ 4 || !ev.poison.isEmpty || k.wm.isSome then s
  else
    match k.thread k.lastSlot with
    | none => s
    | some th =>
      let (off, n) := registerArea (Config.freeNat s.fresh % 56)
      { s.drawn with poisonS := ((List.range (n / 8)).map (fun i => spadKey c (th.wp + off) / 8 + i)).foldl setInsert s.poisonS }

/-- The cores whose bank a machine check names. -/
def State.bankCores (s : State) (bank : Nat) : List Nat := (tabKeys s.cores).filter (fun c => coreBank c == bank)

/-- MACHINE_CHECK: an error of a detector and a class that R382 lists; a firewall drop kills the context that sent the message (16 R355). -/
def execMachineCheck (ev : McEvent) (s : State) : Out :=
  if !mcListed ev.bank ev.src ev.cls then .next s
  else
    let t := s.machineCheck ev
    let u := (s.bankCores ev.bank).foldl (fun st c =>
      (st.spoilDest c ev).drawn.modCore c (fun k => k.mismatch ev.src (Config.freeNat st.fresh))) t
    match ev.src, ev.vd with
    | 9, some vd => .next (u.killCtx vd ((ev.misc.getD 0).extractLsb' 40 8).toNat)
    | _, _ => .next u

/-- A write to a bank's STATUS: VAL is cleared by writing 1, and its fields return to their reset values (17 R381). -/
def execMcStatusClear (bank : Nat) (val : Word) (s : State) : Out :=
  if val[63] then .next (s.setBank bank { s.bank bank with status := Bank.reset.status }) else .next s

/-- The virtual device that owns a DRAM channel. -/
def State.channelVd (s : State) (ch : Nat) : Option (Fin 8) :=
  ((List.range 8).map (Fin.ofNat 8)).find? (fun v => (s.vd v).en && (s.vd v).chmask.getLsbD ch)

/-- PATROL_SCRUB: a line of DRAM is checked (17 R382, SRC 3). -/
def execPatrolScrub (line : Nat) (found : Scrub) (s : State) : Out :=
  let ch := line * 128 / 2 ^ 33
  let ev (k : McClass) : McEvent := ⟨0x3080 + ch, 3, k, some (BitVec.ofNat 64 (line * 128)), none, s.channelVd ch,
    if k = .contained then [.dram (line * 128)] else []⟩
  match found with
  | .clean => .next s
  | .corrected => .next (s.machineCheck (ev .corrected))
  | .contained => .next (s.machineCheck (ev .contained))

/-! ## Self-test (17 R384, R385) -/

/-- Scratchpad, and with test bit 5 the Ream share, of a tested core read as zero, and its L1s are empty (17 R384). -/
def State.testZero (s : State) (c : Nat) (share : Nat) (ream : Bool) : State :=
  let t : State := { s.modCore c (fun k => { k with l1d := [], l1i := [] }) with
    spad := s.spad.filter (fun (k, _) => k / 2 ^ 18 != c), poisonS := s.poisonS.filter (fun u => u / 2 ^ 15 != c) }
  if ream then { t with
    ream := t.ream.filter (fun (k, _) => !(k / 2 ^ 19 == c && decide (k % 2 ^ 19 < share)))
    poisonR := t.poisonR.filter (fun b => !(b / 2 ^ 13 == c && decide (b % 2 ^ 13 * 64 < share))) }
  else t

/-- A failing core: its bank, FAILMAP (17 R384, R385). -/
def State.testFail (s : State) (vd : Fin 8) (c : Nat) : State :=
  let t := s.machineCheck ⟨coreBank c, 10, .contained, none, none, some vd, []⟩
  { t with failmap := setInsert t.failmap c }

/-- An engine holds bytes of a self-test's result (10 R257). -/
def State.testHeld (s : State) (vd : Fin 8) (n : Node) (st : SelfTest) : Bool :=
  match s.vaLocs vd n.ctx st.addr (32 + 8 * (st.last + 1 - st.first)) ⟨false, true, false⟩ with
  | .error _ => false
  | .ok ls => s.anyHeldW ls

/-- SELFTEST_COMPLETE: which cores fail which tests is left open; the result is written, failures are logged and reported (17 R384). -/
def execSelftestComplete (vd : Fin 8) (id : Nat) (s : State) : Out :=
  match tabGet s.nodes id with
  | none => .next s
  | some n =>
    match n.test with
    | none => .next s
    | some (st, start) =>
      if n.vd ≠ vd ∨ n.st ≠ .running then .next s
      else if s.testHeld vd n st then .next (s.due (s.clk + 1) (.selftestComplete vd id))
      else
        let cs := s.nodeCores n
        let res := cs.zipIdx.map (fun (c, i) => (c, Nat.land st.tset (Config.freeNat (s.fresh + i))))
        let bad := res.filter (fun x => x.2 != 0)
        let t := cs.foldl (fun x c => x.testZero c ((s.vd vd).reamk * 65536) (st.tset / 32 % 2 == 1)) { s with fresh := s.fresh + cs.length }
        let out := wordBytes ([if bad.isEmpty then 0 else 1, BitVec.ofNat 64 start, BitVec.ofNat 64 s.clk, BitVec.ofNat 64 cs.length] ++
          res.map (fun x => BitVec.ofNat 64 x.2))
        let u := (t.writeVa vd n.ctx st.addr out).getD t
        let w := bad.foldl (fun x b => x.testFail vd b.1) u
        let y := if bad.isEmpty then w else w.sendRecord (s.vdRecord 8 vd n.ctx (BitVec.ofNat 64 (bad.foldl (fun m b => Nat.lor m b.2) 0)))
        .next ((y.completeNode id).msix 8 2)

end Sys2Proof.Machine
end

