-- ==== Sys2Proof/Machine/Isolation.lean ====
section
/-!
DEFINITION. The walls between virtual devices (16_isolation.md R336 to R356): formation and teardown, TLB invalidation, occupancy samples, the
calender; and what the host reaches through a virtual function's BAR2 and function level reset (19 R392).
-/
namespace Sys2Proof.Machine

/-! ## Formation (16 R337, R338) -/

/-- The other virtual devices that are enabled. -/
def State.otherVds (s : State) (vd : Fin 8) : List Vd :=
  (((List.range 8).map (Fin.ofNat 8)).filter (fun v => v != vd && (s.vd v).en)).map s.vd

/-- Set bits of a register's field. -/
def bitsSet (x : Nat) : Nat := ((List.range 64).filter (fun i => x.testBit i)).length

/-- The quires of two virtual devices share a core. -/
def Vd.sharesCore (a b : Vd) : Bool := decide (a.qbase < b.qbase + b.qlen ∧ b.qbase < a.qbase + a.qlen)

/-- The first check of R338 that fails, by its code; 0 when every check passes. -/
def State.formErr (s : State) (vd : Fin 8) : Nat :=
  let v := s.vd vd
  let others := s.otherVds vd
  let sum (f : Vd → Nat) : Nat := ((v :: others).map f).sum
  if v.qbase + v.qlen > 4096 ∨ v.qlen < 1 then 1
  else if others.any v.sharesCore then 2
  else if bitsSet v.chmask.toNat < 8 ∨ others.any (fun o => o.chmask &&& v.chmask != 0) then 3
  else if v.vways = 0 ∨ others.any (fun o => o.vways &&& v.vways != 0) then 4
  else if !s.cal.toList.contains vd.val then 5
  else if v.s2lim < 1 ∨ v.s2base + v.s2lim > 98304 * bitsSet v.chmask.toNat then 6
  else if sum (·.dsq) > 32 ∨ sum (·.walkq) > 16 ∨ sum (·.tlbq) > 32 then 7
  else 0

/-- Absolute cores of a quire. -/
def Vd.quire (v : Vd) : List Nat := (List.range v.qlen).map (v.qbase + ·)

/-- A core of the quire. -/
def Vd.inQuire (v : Vd) (c : Nat) : Bool := decide (v.qbase ≤ c ∧ c < v.qbase + v.qlen)

/-- The L1s of a quire hold no line (16 R338). -/
def State.clearL1s (s : State) (v : Vd) : State :=
  { s with cores := s.cores.map (fun (c, k) => (c, if v.inQuire c then { k with l1d := [], l1i := [] } else k)) }

/-- The scratchpads and the Ream shares of a quire read as zero and are not poisoned (16 R338). -/
def State.zeroQuire (s : State) (v : Vd) : State :=
  { s with
    spad := s.spad.filter (fun (k, _) => !v.inQuire (k / 2 ^ 18))
    poisonS := s.poisonS.filter (fun u => !v.inQuire (u / 2 ^ 15))
    ream := s.ream.filter (fun (k, _) => !(v.inQuire (k / 2 ^ 19) && decide (k % 2 ^ 19 < v.reamk * 65536)))
    poisonR := s.poisonR.filter (fun u => !(v.inQuire (u / 2 ^ 13) && decide (u % 2 ^ 13 * 64 < v.reamk * 65536))) }

/-- The virtual device's entries leave the TLBs. -/
def State.dropTlb (s : State) (vd : Fin 8) : State := { s with tlb := s.tlb.filter (fun t => t.vd != vd.val) }

/-- Cores of a quire for which a spare stands in from the formation on; with a mill width of 2 none does (17 R386, 19 R400). -/
def State.standIns (s : State) (v : Vd) : List Nat :=
  if s.millWidth = 2 then []
  else v.quire.filter (fun c =>
    let (col, row) := hpos c
    let r := (s.spmap[row]?).getD 0
    r[15] && decide ((r.extractLsb' 0 6).toNat = col))

/-- The registers and tables of a virtual device that begin with its formation (16 R356). -/
def Vd.fresh (v : Vd) : Vd :=
  { v with queues := Vector.replicate 64 Queue.reset, moulds := [], ctxs := [], ctxSt := [], loads := [], pdrop := false, mdone := false,
           mhandle := 0, mstat := 0, resetPeers := [], policy := [], errored := [] }

/-- FORM: a write of 1 to EN while EN is 0. The first check that fails is noted and nothing else happens; else the virtual device is
enabled and BUSY, its memories are zeroed, its mill role's policy and the resident handler are loaded from the running firmware image (17 R363, R379, 18
R390, 19 R401), and formation ends within 2,000,000 ck. -/
def execForm (vd : Fin 8) (s : State) : Out :=
  let v := s.vd vd
  if v.en || v.busy || !s.devReady then .next s
  else if s.formErr vd ≠ 0 then .next (s.modVd vd (fun v => { v with err := s.formErr vd }))
  else
    let t := (((s.zeroQuire v).clearL1s v).dropTlb vd).modVd vd (fun v => { v.fresh with
      en := true, busy := true, policy := policyOf vd, handlerCode := Config.handlerImage s.running })
    let u : State := { t with standIn := s.standIn.filter (fun c => !v.inQuire c) ++ s.standIns v }
    .next (u.dueWithin 2000000 (.formationComplete vd))

/-- FORMATION_COMPLETE: BUSY is cleared; the Headbox serves the virtual device again (17 R379). -/
def execFormationComplete (vd : Fin 8) (s : State) : Out :=
  if (s.vd vd).en && (s.vd vd).busy then .next (s.modVd vd (fun v => { v with busy := false, headOff := false })) else .next s

/-! ## Teardown (16 R338) -/

/-- A step on the agenda is for a virtual device that is torn down: for its queues, moulds, nodes, streams or cores. -/
def State.stepOf (s : State) (vd : Fin 8) (i : Instr) : Bool :=
  packetVd i == some vd || (coreStep i).any (s.vd vd).inQuire ||
    (streamStep i).any (fun j => (tabGet s.streams j).any (fun t => (s.node t.node).vd == vd)) ||
    (match i with
    | .mload v _ => v == vd
    | .mfree v _ => v == vd
    | .pullWrite v _ _ => v == vd
    | .nodeDispatch v _ => v == vd
    | .displace v _ => v == vd
    | .deadlockTrap v => v == vd
    | .teardown v => v == vd
    | _ => false)

/-- Nodes, operations, streams and saved cores of a virtual device are discarded, with the steps that were due for them. -/
def State.discardWork (s : State) (vd : Fin 8) : State :=
  { s.forget (s.stepOf vd) with
    nodes := s.nodes.filter (fun (_, n) => n.vd != vd)
    ops := s.ops.filter (fun (_, o) => (s.node o.node).vd != vd)
    streams := s.streams.filter (fun (_, t) => (s.node t.node).vd != vd)
    saved := s.saved.filter (fun (k, _) => (s.node (k / 8192)).vd != vd)
    poisonT := s.poisonT.filter (fun u => !(s.vd vd).inQuire (u / 8192))
    poisonP := s.poisonP.filter (fun u => !(s.vd vd).inQuire (u / 512))
    cores := s.cores.filter (fun (c, _) => !(s.vd vd).inQuire c) }

/-- Every byte of every channel of a virtual device is zero. -/
def State.zeroChannels (s : State) (v : Vd) : State :=
  { s with
    dram := s.dram.filter (fun (k, _) => !v.chmask.getLsbD (k / 2 ^ 33))
    poisonD := s.poisonD.filter (fun u => !v.chmask.getLsbD (u / 2 ^ 26)) }

/-- TEARDOWN: a write of 0 to EN while EN is 1. The lines of the virtual device in the Vat and its L1s are dropped without write-back. -/
def execTeardown (vd : Fin 8) (s : State) : Out :=
  let v := s.vd vd
  if !v.en || v.busy then .next s
  else
    let t := ((((s.discardWork vd).zeroQuire v).zeroChannels v).dropTlb vd).modVd vd (fun v => { v.fresh with
      en := false, busy := true, tags := 0, pulp := 0 })
    .next (({ t with vat := s.vat.dropVd vd.val } : State).dueWithin 28000000 (.teardownComplete vd))

/-- TEARDOWN_COMPLETE: BUSY is cleared. -/
def execTeardownComplete (vd : Fin 8) (s : State) : Out :=
  if !(s.vd vd).en && (s.vd vd).busy then .next (s.modVd vd (fun v => { v with busy := false })) else .next s

/-! ## TLB invalidation (16 R348) -/

/-- TLBINV: a write starts the invalidation; it is ignored while DONE is 0. KIND 3, and a VPN with bits 63:48 set, are not listed and keep the old value
(01 R33). The entries are dropped within 38,000 ck, so that the accesses that used them, which take at most 1,024 ck where no engine holds them, are
performed within the 40,000 ck of 16 R348; DONE returns at any time up to then (13 R405). -/
def execTlbinv (vd : Fin 8) (val : Word) (s : State) : Out :=
  if !(s.vd vd).invDone then .next s
  else
    .next ((s.modVd vd (fun v => { v with
      invVpn := if val.extractLsb' 48 16 = 0 then val &&& 0x0000FFFFFFFFF000 else v.invVpn
      invKind := if val.extractLsb' 10 2 = 3 then v.invKind else (val.extractLsb' 10 2).toNat
      invCtx := (val.extractLsb' 2 8).toNat
      invDone := false
      invBy := s.clk + 40000
      invOps := none })).dueWithin 38000 (.tlbinvDone vd))

/-- The invalidation names a TLB entry. -/
def Vd.invNames (v : Vd) (vd : Fin 8) (t : TlbEntry) : Bool :=
  t.vd == vd.val && (match v.invKind with
    | 0 => true
    | 1 => t.ctx == v.invCtx
    | _ => t.covers vd.val v.invCtx v.invVpn.toNat)

/-- The named entries leave the TLBs; the cached context entries go with a whole context or virtual device (17 R369). -/
def State.dropNamed (s : State) (vd : Fin 8) : State :=
  let v := s.vd vd
  ({ s with tlb := s.tlb.filter (fun t => !v.invNames vd t) } : State).modVd vd (fun v => { v with
    invOps := some s.nextOp
    ctxs := match v.invKind with
      | 0 => []
      | 1 => tabErase v.ctxs v.invCtx
      | _ => v.ctxs })

/-- An operation has still to perform a global access by a translation that it took; those of a copy are performed at its registration (10 R241). -/
def Op.owesGlobal (o : Op) : Bool :=
  match o.kind with
  | .access a => !a.performed && a.locs.any (·.glob)
  | _ => false

/-- An operation older than the dropping of the entries has a global access to perform. -/
def State.invWaits (s : State) (vd : Fin 8) (n : Nat) : Bool :=
  s.ops.any (fun (id, o) => decide (id < n) && (s.node o.node).vd == vd && o.owesGlobal)

/-- TLBINV_DONE: the named entries are dropped; at a ck up to 40,000 after the write that the spec leaves open, and once every earlier access has been
performed, DONE is set. -/
def execTlbinvDone (vd : Fin 8) (s : State) : Out :=
  let v := s.vd vd
  if v.invDone then .next s
  else
    match v.invOps with
    | none => .next ((s.dropNamed vd).dueWithin (max 1 (v.invBy - s.clk)) (.tlbinvDone vd))
    | some n =>
      if s.invWaits vd n then .next (s.due (s.clk + 1) (.tlbinvDone vd))
      else .next (s.modVd vd (fun v => { v with invDone := true, invOps := none }))

/-! ## Occupancy and calender (16 R341, R342, R353) -/

/-- DDSTAT_SAMPLE: the tags and pulp entries of each enabled virtual device in use; the next sample is 4096 ck on. -/
def execDdstatSample (s : State) : Out :=
  .next (({ s with
    vds := Vector.ofFn (fun i => if s.vds[i].en then { s.vds[i] with tags := s.vat.tagsOf i.val, pulp := s.vat.pulpsOf i.val }
      else s.vds[i]) } : State).due (s.clk + 4096) .ddstatSample)

/-- Every bucket of a link gains SPRW.W tokens up to 128. -/
def State.refill (s : State) (b : Vector Nat 8) : Vector Nat 8 := Vector.ofFn (fun i => min 128 (b[i] + s.vds[i].sprw))

/-- CALENDER_FRAME: a frame begins: slots pass to the owners written last, and the buckets of every link and bank port gain tokens. -/
def execCalenderFrame (s : State) : Out :=
  .next (({ s with
    calNow := s.cal
    buckets := s.refill s.buckets
    links := s.links.map (fun (i, l) => (i, { l with tokens := s.refill l.tokens })) } : State).due (s.clk + 64) .calenderFrame)

/-- A link or a bank port, by its number: one at which no spare slot has been taken yet holds the buckets that all such share. -/
def State.link (s : State) (i : Nat) : Link := (tabGet s.links i).getD ⟨s.buckets, 7⟩

/-- The virtual device that takes a spare slot among those that wait for it: of those that take part and have a token, the one with the most, a
tie to the first after the one that took the last (16 R342). -/
def State.spareWinner (s : State) (l : Link) (waits : Nat → Bool) : Option Nat :=
  let order := (List.range 8).map (fun i => (l.last + 1 + i) % 8)
  let ok := order.filter (fun v => (s.vd (Fin.ofNat 8 v)).en && (s.vd (Fin.ofNat 8 v)).spare && waits v && decide ((l.tokens[v]?).getD 0 > 0))
  let most := (ok.map (fun v => (l.tokens[v]?).getD 0)).foldl max 0
  ok.find? (fun v => (l.tokens[v]?).getD 0 == most)

/-- A spare slot at a link or a bank port: the winner pays one token. -/
def State.spareSlot (s : State) (i : Nat) (waits : Nat → Bool) : State :=
  let l := s.link i
  match s.spareWinner l waits with
  | none => s
  | some v => { s with links := tabSet s.links i ⟨l.tokens.setIfInBounds v ((l.tokens[v]?).getD 0 - 1), v⟩ }

/-- n spare slots at links and ports whose numbers rise from i on. -/
def State.spareSlots (s : State) : Nat → Nat → State
  | 0, _ => s
  | n + 1, i =>
    let j := i + Config.freeNat s.fresh
    State.spareSlots (({ s with fresh := s.fresh + 2 } : State).spareSlot j (fun v => (Config.freeNat (s.fresh + 1)).testBit v)) n (j + 1)

/-- The spare slots of a ck, one at each link and port: at which of them messages of which virtual devices wait is left open (16 R341, R342; DESIGN
CHOICE, log 76). -/
def State.spareTurn (s : State) : State :=
  if ((s.calNow[s.clk % 64]?).getD 15) = 15 ∧ s.vds.toList.any (fun v => v.en && v.spare) then s.drawn.spareSlots (Config.freeNat s.fresh) 0
  else s

/-! ## The host (19 R392, 16 R356) -/

/-- The places of n bytes from an intermediate address; none for a byte outside the window. -/
def Vd.iaLocs (v : Vd) (ia n : Nat) : List (Option Loc) := (List.range n).map (fun i => (v.iaKey (ia + i)).map (fun k => ⟨true, k⟩))

/-- HOST_BAR2_ACCESS: the window's bytes are written, or read into the answer; bytes outside it read zero and ignore writes, and so do writes to
those of a running mould's image: those bytes are dropped, since a host has no thread to trap (03 R71; DESIGN CHOICE, log 81). A read gives its
length by the length of `data`. Bytes that an engine holds are waited for. -/
def execHostBar2Access (vd : Fin 8) (ia : Word) (wr : Bool) (data : List Byte) (s : State) : Out :=
  let v := s.vd vd
  let ls := if v.formed then v.iaLocs ia.toNat data.length else data.map (fun _ => none)
  let ws : List (Loc × Byte) := (ls.zip data).filterMap (fun (l, b) => l.bind (fun x => if s.inImage vd x.key then none else some (x, b)))
  if (if wr then s.anyHeldW (ls.filterMap id) else s.anyHeld (ls.filterMap id)) then .next (s.due (s.clk + 1) (.hostBar2Access vd ia wr data))
  else if wr then .next ((s.storeLocs ws).vatTouch vd 0 true (ws.map (·.1)))
  else
    let t := s.vatTouch vd 0 false (ls.filterMap id)
    .next { t with outbox := t.outbox ++ [.hostData (ls.map (fun l => match l with
      | none => 0
      | some x => s.readLoc x))] }

/-- FUNCTION_LEVEL_RESET: of virtual function n, the reset of virtual device n; of the physical function, device reset. What the package
keeps, the flash and the fused counter, stays, and so does what has left the device. -/
def execFunctionLevelReset (fn : Nat) (s : State) : Out :=
  if h : fn < 8 then execResetVd ⟨fn, h⟩ s
  else if fn = 8 then .next { State.reset with flash := s.flash, fused := s.fused, fresh := s.fresh, outbox := s.outbox }
  else .next s

end Sys2Proof.Machine
end

