-- ==== Sys2Proof/Machine/Platform.lean ====
section
/-!
DEFINITION. Register writes, firmware, bring-up, the Tvedten ports and the package (01_notation_listing.md R33, 19_system_interfaces.md R393 to
R403, and the register maps of the other chapters).
-/
namespace Sys2Proof.Machine

/-! ## Fields (01 R33) -/

/-- A field of a written value. -/
def fieldAt (x : Word) (lo n : Nat) : Nat := (x.extractLsb' lo n).toNat

/-- A field that keeps its previous value where the new one is not listed. -/
def keepUnless (listed : Bool) (new old : Nat) : Nat := if listed then new else old

/-! ## The configuration block of a virtual device (16 R336) -/

/-- A write to VDCTL: SPARE, then EN, which forms the virtual device or tears it down (16 R337, R338). -/
def State.writeVdctl (s : State) (vd : Fin 8) (val : Word) : Out :=
  let t := s.modVd vd (fun v => { v with spare := val[2] })
  if val[0] && !(s.vd vd).en then execForm vd t
  else if !val[0] && (s.vd vd).en then execTeardown vd t
  else .next t

/-- A class register with its fields of 16 R351. -/
def clsValue (old val : Word) : Word :=
  let w := val &&& 0xFFFF23
  if fieldAt val 3 2 = 3 then w ||| (old &&& 0x18) else w ||| (val &&& 0x18)

/-- A write to a register of the block that EN protects. -/
def Vd.writeBlock (v : Vd) (off : Nat) (val : Word) : Vd :=
  if off = 0x008 then { v with qbase := fieldAt val 0 12 }
  else if off = 0x010 then { v with qlen := keepUnless (decide (1 ≤ fieldAt val 0 13 ∧ fieldAt val 0 13 ≤ 4096)) (fieldAt val 0 13) v.qlen }
  else if off = 0x018 then { v with chmask := val }
  else if off = 0x020 then { v with reamk := keepUnless (decide (fieldAt val 0 4 ≤ 8)) (fieldAt val 0 4) v.reamk }
  else if off = 0x028 then { v with vways := val.extractLsb' 0 16 }
  else if off = 0x030 then { v with s2base := fieldAt val 0 24 }
  else if off = 0x038 then { v with s2lim := fieldAt val 0 24 }
  else if off = 0x040 then
    { v with
      dsq := keepUnless (decide (1 ≤ fieldAt val 16 6 ∧ fieldAt val 16 6 ≤ 32)) (fieldAt val 16 6) v.dsq
      walkq := keepUnless (decide (1 ≤ fieldAt val 8 5 ∧ fieldAt val 8 5 ≤ 16)) (fieldAt val 8 5) v.walkq
      tlbq := keepUnless (decide (1 ≤ fieldAt val 0 6 ∧ fieldAt val 0 6 ≤ 32)) (fieldAt val 0 6) v.tlbq }
  else if 0x080 ≤ off ∧ off ≤ 0x0B8 ∧ off % 8 = 0 then
    { v with cls := v.cls.setIfInBounds ((off - 0x080) / 8) (clsValue ((v.cls[(off - 0x080) / 8]?).getD 0) val) }
  else v

/-- A write to the block of virtual device vd: while EN is 1 only VDCTL, SPRW and TLBINV take it. -/
def State.writeConfig (s : State) (vd : Fin 8) (off : Nat) (val : Word) : Out :=
  if off = 0x000 then s.writeVdctl vd val
  else if off = 0x048 then
    .next (s.modVd vd (fun v => { v with sprw := keepUnless (decide (fieldAt val 0 7 ≤ 64)) (fieldAt val 0 7) v.sprw }))
  else if off = 0x0C8 then execTlbinv vd val s
  else if (s.vd vd).en then .next s
  else .next (s.modVd vd (fun v => v.writeBlock off val))

/-! ## Other registers of the physical function -/

/-- CALj: its sixteen slots; a write that takes an enabled virtual device's last slot is ignored (16 R341). -/
def State.writeCal (s : State) (j : Nat) (val : Word) : State :=
  let new : Vector Nat 64 := Vector.ofFn (fun i =>
    let f := fieldAt val (4 * (i.val % 16)) 4
    if i.val / 16 = j then keepUnless (decide (f ≤ 7 ∨ f = 15)) f s.cal[i] else s.cal[i])
  if (List.range 8).any (fun v => (s.vd (Fin.ofNat 8 v)).en && s.cal.toList.contains v && !new.toList.contains v) then s
  else { s with cal := new }

/-- A core belongs to an enabled virtual device. -/
def State.coreOwned (s : State) (c : Nat) : Bool := (List.range 8).any (fun v => (s.vd (Fin.ofNat 8 v)).en && (s.vd (Fin.ofNat 8 v)).inQuire c)

/-- The core that an SPMAP value replaces in row r. -/
def spReplaced (r : Nat) (x : BitVec 16) : Option Nat := if x[15] then some (hindex (x.extractLsb' 0 6).toNat r) else none

/-- SPMAPr (17 R386). -/
def State.writeSpmap (s : State) (r : Nat) (val : Word) : State :=
  let new : BitVec 16 := val.extractLsb' 0 16 &&& 0x803F
  let old := (s.spmap[r]?).getD 0
  if s.millWidth = 2 || ((spReplaced r old).toList ++ (spReplaced r new).toList).any s.coreOwned then s
  else { s with spmap := s.spmap.setIfInBounds r new }

/-- FAILMAPi: each 1 clears its bit (17 R385). -/
def State.writeFailmap (s : State) (i : Nat) (val : Word) : State :=
  { s with failmap := s.failmap.filter (fun c => !(c / 64 == i && val.getLsbD (c % 64))) }

/-- A ladder timer (13 R325). -/
def Vd.writeTimer (v : Vd) (off : Nat) (val : Word) : Vd :=
  let x := fieldAt val 0 32
  if off = 0 then { v with grace := x }
  else if off = 8 then { v with dgrace := x }
  else if off = 0x10 then { v with killt := keepUnless (decide (x ≠ 0)) x v.killt }
  else v

/-- The bindings after a write to FBINDn,k: a field of 8 to 14 keeps its value; a written field is renewed (17 R380, 19 R396). -/
def Vd.writeBind (v : Vd) (k : Nat) (val : Word) : Vd :=
  (List.range 16).foldl (fun (u : Vd) i =>
    let d := 16 * k + i
    let f := fieldAt val (4 * i) 4
    if f ≤ 7 then { u with bind := tabSet u.bind d f, resetPeers := u.resetPeers.filter (· != d) }
    else if f = 15 then { u with bind := tabErase u.bind d, resetPeers := u.resetPeers.filter (· != d) }
    else u) v

/-- FBINDn,k: only while virtual device n is not enabled; a write that would bind it to another virtual device of this device is
ignored. -/
def State.writeFbind (s : State) (vd : Fin 8) (k : Nat) (val : Word) : State :=
  let own := fieldAt val (4 * (s.devid % 16)) 4
  if (s.vd vd).en || (s.devid / 16 == k && decide (own ≤ 7 ∧ own ≠ vd.val)) then s
  else s.modVd vd (fun v => v.writeBind k val)

/-- ROUTEd (19 R397). -/
def routeValue (old val : Word) : Word :=
  BitVec.ofNat 64 ((if val[15] then 2 ^ 15 else 0) + keepUnless (decide (fieldAt val 8 7 ≤ 95)) (fieldAt val 8 7) (fieldAt old 8 7) * 256
    + keepUnless (decide (fieldAt val 0 7 ≤ 95)) (fieldAt val 0 7) (fieldAt old 0 7))

/-- A write to a machine-check bank: STATUS.VAL is cleared by 1, COUNT takes its fields (17 R381). -/
def State.writeBank (s : State) (i : Nat) (reg : Nat) (val : Word) : Out :=
  if reg = 0 then execMcStatusClear i val s
  else if reg = 24 then .next (s.setBank i { s.bank i with count := val &&& 0xFFFFFFFF })
  else .next s

/-- GO of FWSTAGE: the check of the staged contents starts; ignored while STAT is 1. The bit is write-1-to-set and stays set until device reset
(01 R33, 19 R401; DEDUCED, log 82). -/
def State.fwGo (s : State) (img table : List Byte) : State :=
  if s.fwstat = 1 then s else ({ s with fwgo := true, fwstat := 1, staged := (img, table) } : State).dueWithin 1024 .firmwareCheckComplete

/-- A write to FWSTAGE. -/
def State.writeFwstage (s : State) (val : Word) : State := if val[0] then s.fwGo s.staged.1 s.staged.2 else s

/-- A write through the physical function's BAR0 (19 R393). -/
def State.writePf (s : State) (off : Nat) (val : Word) : Out :=
  if off % 8 ≠ 0 then .next s
  else if 0x100000 ≤ off ∧ off < 0x108000 then s.writeConfig (Fin.ofNat 8 ((off - 0x100000) / 0x1000)) (off % 0x1000) val
  else if 0x0E0000 ≤ off ∧ off < 0x0E1000 then .next (s.writeFbind (Fin.ofNat 8 ((off - 0x0E0000) / 0x200)) (off % 0x200 / 8) val)
  else if 0x0E2000 ≤ off ∧ off < 0x0E4000 then
    let d := (off - 0x0E2000) / 8
    .next { s with route := tabSet s.route d (routeValue ((tabGet s.route d).getD 0) val) }
  else if 0x0F0000 ≤ off ∧ off < 0x0F0020 then .next (s.writeCal ((off - 0x0F0000) / 8) val)
  else if 0x0F1000 ≤ off ∧ off < 0x0F1200 then .next (s.writeSpmap ((off - 0x0F1000) / 8) val)
  else if 0x0F2000 ≤ off ∧ off < 0x0F2200 then .next (s.writeFailmap ((off - 0x0F2000) / 8) val)
  else if 0x0F3000 ≤ off ∧ off < 0x0F3100 then .next (s.modVd (Fin.ofNat 8 ((off - 0x0F3000) / 0x20)) (fun v => v.writeTimer (off % 0x20) val))
  else if off = 0x0F4000 then
    .next { s with msglim := keepUnless (decide (1 ≤ fieldAt val 0 5 ∧ fieldAt val 0 5 ≤ 16)) (fieldAt val 0 5) s.msglim }
  else if off = 0x0F4008 then
    .next (if s.vds.toList.any (·.en) then s else { s with devid := fieldAt val 0 10 })
  else if off = 0x0F5000 then .next (s.writeFwstage val)
  else if 0x800000 ≤ off ∧ off < 0x800000 + 32 * 0x41E0 then s.writeBank ((off - 0x800000) / 32) (off % 32) val
  else .next s

/-! ## Registers of a virtual function (13 R296, R303, R304, 16 R356) -/

/-- QCTL: SIZE keeps its value while EN is 1 and where it is not listed (13 R296). -/
def Queue.writeCtl (x : Queue) (val : Word) : Queue :=
  { x with
    en := val[8]
    pri := fieldAt val 6 2
    size := if x.en then x.size else keepUnless (decide (12 ≤ fieldAt val 0 5 ∧ fieldAt val 0 5 ≤ 24)) (fieldAt val 0 5) x.size }

/-- QRING: the ring's canonical address; ignored while EN is 1 (13 R296). -/
def Queue.writeRing (x : Queue) (val : Word) : Queue :=
  if x.en then x else { x with ring := ((val &&& 0x0000FFFFFFFFF000).extractLsb' 0 48 : BitVec 48).signExtend 64 }

/-- A write to a register of queue q. -/
def State.writeQueue (s : State) (vd : Fin 8) (q : Fin 64) (reg : Nat) (val : Word) : Out :=
  if !(s.vd vd).formed then .next s
  else if reg = 0x00 then .next (s.modQueue vd q (fun x => x.writeRing val))
  else if reg = 0x08 then .next (s.modQueue vd q (fun x => x.writeCtl val))
  else if reg = 0x18 then execDoorbell vd q val s
  else if reg = 0x28 then (if val[63] then execQstatErrClear vd q s else .next s)
  else .next s

/-- A write through virtual function n's BAR0: its TLBINV, its queues and its mould registers; every other write is ignored. -/
def State.writeVf (s : State) (vd : Fin 8) (off : Nat) (val : Word) : Out :=
  if off % 8 ≠ 0 then .next s
  else if off = 0x80C8 then execTlbinv vd val s
  else if 0x10000 ≤ off ∧ off < 0x11000 then s.writeQueue vd (Fin.ofNat 64 ((off - 0x10000) / 0x40)) (off % 0x40) val
  else if 0x20000 ≤ off ∧ off < 0x20200 then execPullWrite vd ((off - 0x20000) / 8) val s
  else if off = 0x30000 then
    .next (if (s.vd vd).formed then (s.modVd vd (fun v => { v with mdone := false })).dueWithin 1024 (.mload vd val) else s)
  else if off = 0x30008 then .next (if (s.vd vd).formed && val[16] then s.modVd vd (fun v => { v with pdrop := false }) else s)
  else if off = 0x30010 then (if val.toNat < 64 then execMfree vd val.toNat s else .next s)
  else .next s

/-! ## The service table (13 R311) -/

/-- An entry of the service table after firmware writes one of its words. -/
def svcWrite (e : BitVec 256) (word : Nat) (val : Word) : BitVec 256 :=
  let put (lo n : Nat) (x : Nat) (e : BitVec 256) : BitVec 256 :=
    (e &&& ~~~(BitVec.ofNat 256 ((2 ^ n - 1) * 2 ^ lo))) ||| BitVec.ofNat 256 (x % 2 ^ n * 2 ^ lo)
  match word with
  | 0 => put 48 10 (fieldAt val 48 10) e
  | 1 => put 64 10 (fieldAt val 0 10) (put 80 48 (fieldAt val 16 48) e)
  | 2 =>
    let burst := keepUnless (decide (fieldAt val 8 8 ≠ 0)) (fieldAt val 8 8) (svcField e 136 8)
    let arg := keepUnless (decide (fieldAt val 45 11 ≤ 1024 ∧ fieldAt val 45 11 % 16 = 0)) (fieldAt val 45 11) (svcField e 173 11)
    let tlen := keepUnless (decide (6 ≤ fieldAt val 56 8 ∧ fieldAt val 56 8 ≤ 64)) (fieldAt val 56 8) (svcField e 184 8)
    put 128 1 (fieldAt val 0 1) (put 136 8 burst (put 144 16 (fieldAt val 16 16) (put 160 6 (fieldAt val 32 6) (put 173 11 arg (put 184 8 tlen e)))))
  | _ => put 192 48 (keepUnless (decide (fieldAt val 0 3 = 0)) (fieldAt val 0 48) (svcField e 192 48)) e

/-- The refill of an entry's bucket is on the agenda. -/
def State.refillPending (s : State) (vd : Fin 8) (i : Fin 64) : Bool := s.agenda.any (fun e => e.2 == .headboxTokenRefill vd i)

/-- Firmware writes a word of the service table: offset 32 × entry + 8 × word (DEDUCED, log 22). -/
def State.writeService (s : State) (vd : Fin 8) (off : Nat) (val : Word) : State :=
  if off % 8 ≠ 0 ∨ 2048 ≤ off then s
  else
    let i : Fin 64 := Fin.ofNat 64 (off / 32)
    let e := svcWrite (s.vd vd).service[i] (off % 32 / 8) val
    let t := s.modVd vd (fun v => { v with service := v.service.set i e })
    if svcRate e ≠ 0 && !t.refillPending vd i then t.due (t.clk + svcRate e * 256) (.headboxTokenRefill vd i) else t

/-- REGISTER_WRITE: of virtual function fn below 8, of the physical function (8), or, from 16 on, of firmware into the service table of
virtual device fn - 16. In recovery the physical function exposes only DEVSTAT and FWSTAGE (19 R401). -/
def execRegisterWrite (fn off : Nat) (val : Word) (s : State) : Out :=
  if s.devSt = .recovery then .next (if fn = 8 ∧ off = 0x0F5000 then s.writeFwstage val else s)
  else if fn < 8 then s.writeVf (Fin.ofNat 8 fn) off val
  else if fn = 8 then s.writePf off val
  else if 16 ≤ fn ∧ fn < 24 then .next (s.writeService (Fin.ofNat 8 (fn - 16)) off val)
  else .next s

/-! ## Firmware and the configuration table (19 R399 to R401) -/

/-- An entry of the role map (19 R400). -/
structure MillRole where
  dev   : Nat
  count : Nat
  first : Nat
  vd    : Nat
  kind  : Nat
  deriving DecidableEq, Repr

def roleOf (w : Nat) : MillRole := ⟨w / 2 ^ 32 % 1024, w / 2 ^ 24 % 256, w / 2 ^ 16 % 256, w / 2 ^ 8 % 256, w % 256⟩

/-- The role map of a table: the entries after the header, at most 32; an entry of zero is no entry (DESIGN CHOICE, log 13). -/
def rolesOf (t : List Byte) : List MillRole :=
  ((List.range (min 32 ((t.length - 64) / 8))).map (fun i => roleOf (leNat ((t.drop (64 + 8 * i)).take 8)))).filter (fun r => r != ⟨0, 0, 0, 0, 0⟩)

/-- Two entries share a mill core. -/
def rolesMeet : List MillRole → Bool
  | [] => false
  | r :: t => t.any (fun q => decide (r.first < q.first + q.count ∧ q.first < r.first + r.count)) || rolesMeet t

/-- Default DEVID of a table. -/
def tableDevid (t : List Byte) : Nat := leNat ((t.drop 2).take 2)

/-- The table is not refused (19 R400). -/
def tableOk (t : List Byte) : Bool :=
  let rs := rolesOf t
  decide (tableDevid t ≤ 1023) && !rolesMeet rs && !rs.any (fun r => r.kind == 1 && r.vd == 0xFF)
    && (List.range 8).all (fun v => rs.any (fun r => r.kind == 1 && r.vd == v))
    && (List.range 5).all (fun k => rs.any (fun r => r.kind == k + 2))

/-- FSID of virtual device n: PEER from the header, DEV from the role of kind 3 that serves it (17 R366, 19 R400). -/
def tableFsid (t : List Byte) (n : Nat) : Word :=
  let peer := ((t.getD (8 + n) 0).toNat / 128) % 2
  let dev := (((rolesOf t).find? (fun r => r.kind == 3 && (r.vd == n || r.vd == 0xFF))).map (·.dev)).getD 0
  BitVec.ofNat 64 (peer * 2 ^ 11 + dev)

/-- The outcome of the boot ROM's checks: FWSTAGE.STAT 2 to 5 (19 R399, R401). -/
def checkStaged (fused : Nat) (img table : List Byte) : Nat :=
  if !Config.signatureOk img || !Config.signatureOk table then 3
  else if Config.imageRollback img < fused then 4
  else if !tableOk table then 5
  else 2

/-- FWSTAGE_GO: an image and a table are staged and GO is set. -/
def execFwstageGo (img table : List Byte) (s : State) : Out := .next (s.fwGo img table)

/-- FIRMWARE_CHECK_COMPLETE: contents that pass are written to flash; in recovery, bring-up restarts (19 R401). -/
def execFirmwareCheckComplete (s : State) : Out :=
  if s.fwstat ≠ 1 then .next s
  else
    let st := checkStaged s.fused s.staged.1 s.staged.2
    if st = 2 then .next { s with fwstat := 2, flash := s.staged, devSt := if s.devSt = .recovery then .booting else s.devSt }
    else .next { s with fwstat := st }

/-! ## Bring-up (19 R402) -/

/-- FWCFG of every boundary router as the boot ROM leaves it: the reset classes, locked (16 R355; DEDUCED, log 77). -/
def lockedFw : Tab FwCfg := (List.range 128).map (fun r => (r, { FwCfg.reset with lock := true }))

/-- Mill width of a table; a byte other than 1 and 2, of which 19 R400 says nothing, counts as 1 (DESIGN CHOICE, log 78). -/
def tableWidth (t : List Byte) : Nat := if t.getD 0 0 = 2 then 2 else 1

/-- BRING_UP: image and table are checked; FWCFG is locked, DEVID and the roles are taken from the table. `failed` are the cores that
self-test finds, `ports` the Tvedten ports that train. -/
def execBringUp (failed ports : List Nat) (s : State) : Out :=
  if s.devSt ≠ .booting ∨ s.boot.isSome then .next s
  else if checkStaged s.fused s.flash.1 s.flash.2 ≠ 2 then .next { s with devSt := .recovery, devid := 0 }
  else
    .next (({ s with
      fw := lockedFw
      devid := tableDevid s.flash.2
      millWidth := tableWidth s.flash.2
      running := s.flash.1
      vds := Vector.ofFn (fun i => { s.vds[i] with fsid := tableFsid s.flash.2 i.val })
      boot := some (failed, ports) } : State).dueWithin 48000000000 .bringUpComplete)

/-- A port that does not train is logged (19 R402, 17 R382). -/
def State.portFail (s : State) (p : Nat) : State := s.machineCheck ⟨0x4140 + p, 8, .contained, none, none, none, []⟩

/-- A core that fails its self-test at bring-up, of the array, the mill column or the spare column: its bank, and FAILMAP of an array core (19
R402, 17 R385). -/
def State.bootFail (s : State) (c : Nat) : State :=
  let t := s.machineCheck ⟨coreBank c, 10, .contained, none, none, none, []⟩
  if c < Config.cores then { t with failmap := setInsert t.failmap c } else t

/-- The memories after bring-up: zero, and unpoisoned. -/
def State.zeroMemories (s : State) : State := { s with spad := [], ream := [], dram := [], poisonS := [], poisonR := [], poisonD := [], poisonT := [], poisonP := [] }

/-- BRING_UP_COMPLETE: memories are zero, failing cores marked, ports trained, and the device is READY; the calender and the samplers run. -/
def execBringUpComplete (s : State) : Out :=
  match s.boot with
  | none => .next s
  | some (failed, ports) =>
    let t := (failed.filter (· < 4224)).foldl State.bootFail s.zeroMemories
    let u : State := { t with ports := ((List.range 96).filter ports.contains).map (fun p => (p, { Port.reset with up := true })) }
    let w := ((List.range 96).filter (fun p => !ports.contains p)).foldl State.portFail u
    let r : State := { w with boot := none, devSt := .ready, devReady := true, fwver := Config.imageVersion w.running }
    .next ((r.due ((r.clk / 64 + 1) * 64) .calenderFrame).due (r.clk + 4096) .ddstatSample)

/-! ## Tvedten ports (19 R395, R397) -/

def State.port (s : State) (p : Nat) : Port := (tabGet s.ports p).getD Port.reset

def State.setPort (s : State) (p : Nat) (x : Port) : State := { s with ports := tabSet s.ports p x }

/-- A primitive of this device that has left it and whose device no port reaches any more. -/
def State.cutOff (s : State) (o : Op) : Bool :=
  match o.kind with
  | .fab f => f.sent && f.dev != s.devid && (s.portTo f.dev).isNone
  | _ => false

/-- The link of a port goes down: a contained error, and primitives that no port reaches fail with status 4 (17 R382, 11 R290). -/
def State.linkDown (s : State) (p : Nat) : State :=
  let t := (s.setPort p { s.port p with up := false, retries := 0 }).machineCheck ⟨0x4140 + p, 8, .contained, none, none, none, []⟩
  (t.ops.filter (fun (_, o) => t.cutOff o)).foldl (fun st (id, _) => st.dueWithin 1024 (.fabricAck id 4 [])) t

/-- A frame toward another device goes out on lane 3, waits for a paused lane, or is dropped (19 R395, R397). -/
def State.forward (s : State) (p : Nat) (f : Frame) : State := if f.dest = s.devid then s else s.depart f.dest 3 (.forward p f)

/-- TVEDTEN_FRAME: a frame that fails its CRC is retried, eight times at most; a good one after a failure is a corrected error. What a frame
for this device carries is a step of its own. -/
def execTvedtenFrame (port : Nat) (fr : Frame) (s : State) : Out :=
  let x := s.port port
  if !x.up then .next s
  else if !fr.good then
    (if x.retries ≥ 8 then .next (s.linkDown port) else .next (s.setPort port { x with retries := x.retries + 1 }))
  else if x.retries = 0 then .next (s.forward port fr)
  else
    .next (((s.setPort port { x with retries := 0 }).machineCheck ⟨0x4140 + port, 8, .corrected, none, none, none, []⟩).forward port fr)

/-- PAUSE_FRAME: a virtual lane of a port is paused or goes on; no other lane is stopped. -/
def execPauseFrame (port lane : Nat) (on : Bool) (s : State) : Out :=
  if port < 96 then .next (s.setPort port { s.port port with paused := (s.port port).paused.setIfInBounds lane on }) else .next s

/-! ## Register reads (16 R336, R356, 19 R392, R393, R401, R402) -/

/-- VDCTL (16 R337). -/
def Vd.vdctl (v : Vd) : Word := wordOf (v.err % 256 * 256 + (if v.spare then 4 else 0) + (if v.busy then 2 else 0) + (if v.en then 1 else 0))

/-- TLBINV (16 R348). -/
def Vd.tlbinv (v : Vd) : Word := v.invVpn ||| wordOf (v.invKind % 4 * 1024 + v.invCtx % 256 * 4 + (if v.invDone then 1 else 0))

/-- A register of the configuration block. -/
def Vd.readBlock (v : Vd) (off : Nat) : Word :=
  if off = 0x000 then v.vdctl
  else if off = 0x008 then wordOf v.qbase
  else if off = 0x010 then wordOf v.qlen
  else if off = 0x018 then v.chmask
  else if off = 0x020 then wordOf v.reamk
  else if off = 0x028 then v.vways.setWidth 64
  else if off = 0x030 then wordOf v.s2base
  else if off = 0x038 then wordOf v.s2lim
  else if off = 0x040 then wordOf (v.dsq * 65536 + v.walkq * 256 + v.tlbq)
  else if off = 0x048 then wordOf v.sprw
  else if 0x080 ≤ off ∧ off ≤ 0x0B8 ∧ off % 8 = 0 then (v.cls[(off - 0x080) / 8]?).getD 0
  else if off = 0x0C0 then wordOf (v.tags % 2 ^ 28 * 2 ^ 28 + v.pulp % 2 ^ 28)
  else if off = 0x0C8 then v.tlbinv
  else 0

/-- FBINDn,k (19 R396). -/
def Vd.readBind (v : Vd) (k : Nat) : Word := wordOf ((List.range 16).map (fun i => (tabGet v.bind (16 * k + i)).getD 15 * 16 ^ i)).sum

/-- CALj as last written (16 R341). -/
def State.readCal (s : State) (j : Nat) : Word := wordOf ((List.range 16).map (fun i => (s.cal[16 * j + i]?).getD 15 * 16 ^ i)).sum

/-- FAILMAPi (17 R385). -/
def State.readFailmap (s : State) (i : Nat) : Word := wordOf ((List.range 64).map (fun j => if s.failmap.contains (64 * i + j) then 2 ^ j else 0)).sum

/-- DEVSTAT (19 R402). -/
def State.devstat (s : State) : Word :=
  wordOf (s.fwver.toNat * 2 ^ 32 + (match s.devSt with
    | .booting => 0 | .ready => 1 | .recovery => 2 | .stopped => 3) * 2 + (if s.devReady then 1 else 0))

/-- A register of a machine-check bank (17 R381). -/
def Bank.reg (b : Bank) (off : Nat) : Word :=
  if off = 0 then b.status else if off = 8 then b.addr else if off = 16 then b.misc else b.count

/-- The register that the physical function answers at an offset of BAR0 (19 R393); in recovery DEVSTAT and FWSTAGE alone (19 R401). -/
def State.readPf (s : State) (off : Nat) : Word :=
  if off = 0x0F4010 then s.devstat
  else if off = 0x0F5000 then wordOf (s.fwstat * 256 + s.fwgo.toNat)
  else if s.devSt = .recovery ∨ off % 8 ≠ 0 then 0
  else if 0x100000 ≤ off ∧ off < 0x108000 then (s.vd (Fin.ofNat 8 ((off - 0x100000) / 0x1000))).readBlock (off % 0x1000)
  else if 0x0E0000 ≤ off ∧ off < 0x0E1000 then (s.vd (Fin.ofNat 8 ((off - 0x0E0000) / 0x200))).readBind (off % 0x200 / 8)
  else if 0x0E2000 ≤ off ∧ off < 0x0E4000 then (tabGet s.route ((off - 0x0E2000) / 8)).getD 0
  else if 0x0F0000 ≤ off ∧ off < 0x0F0020 then s.readCal ((off - 0x0F0000) / 8)
  else if 0x0F1000 ≤ off ∧ off < 0x0F1200 then ((s.spmap[(off - 0x0F1000) / 8]?).getD 0).setWidth 64
  else if 0x0F2000 ≤ off ∧ off < 0x0F2200 then s.readFailmap ((off - 0x0F2000) / 8)
  else if 0x0F3000 ≤ off ∧ off < 0x0F3100 then
    let v := s.vd (Fin.ofNat 8 ((off - 0x0F3000) / 0x20))
    (if off % 0x20 = 0 then wordOf v.grace else if off % 0x20 = 8 then wordOf v.dgrace else if off % 0x20 = 0x10 then wordOf v.killt else 0)
  else if off = 0x0F4000 then wordOf s.msglim
  else if off = 0x0F4008 then wordOf s.devid
  else if 0x800000 ≤ off ∧ off < 0x800000 + 32 * 0x41E0 then (s.bank ((off - 0x800000) / 32)).reg (off % 32)
  else 0

/-- A register of a queue (13 R296). -/
def Queue.reg (x : Queue) (off : Nat) : Word :=
  if off = 0x00 then x.ring &&& 0x0000FFFFFFFFF000
  else if off = 0x08 then wordOf ((if x.en then 256 else 0) + x.pri * 64 + x.size)
  else if off = 0x10 then wordOf x.rptr
  else if off = 0x18 then wordOf x.wptr
  else if off = 0x20 then x.erra
  else if off = 0x28 then x.qstat
  else 0

/-- MSTAT (13 R303). -/
def Vd.mstatWord (v : Vd) : Word :=
  wordOf ((if v.pdrop then 65536 else 0) + (if v.mdone then 32768 else 0) + v.mhandle % 128 * 256 + v.mstat % 256)

/-- The register that virtual function n answers at an offset of BAR0: its block at 0x8000, and once it is formed its queues and MSTAT; every other
reads zero (16 R336, R356). -/
def State.readVf (s : State) (vd : Fin 8) (off : Nat) : Word :=
  let v := s.vd vd
  if s.devSt = .recovery ∨ off % 8 ≠ 0 then 0
  else if 0x8000 ≤ off ∧ off < 0x9000 then v.readBlock (off - 0x8000)
  else if !v.formed then 0
  else if 0x10000 ≤ off ∧ off < 0x11000 then (v.queue (Fin.ofNat 64 ((off - 0x10000) / 0x40))).reg (off % 0x40)
  else if off = 0x30008 then v.mstatWord
  else 0

/-- The answer to a configuration request: Retry Status until bring-up is complete (19 R392, R402). -/
inductive ConfigAnswer where
  | retryStatus
  | completed
  deriving DecidableEq, Repr

def State.configRequest (s : State) : ConfigAnswer := if s.devReady || s.devSt == .recovery then .completed else .retryStatus

/-! ## Package (19 R403) and refresh (02 R68) -/

/-- A thermal error in the host-link bank; no SRC is given for it. -/
def State.thermal (s : State) (k : McClass) : State := s.drawn.machineCheck ⟨0x41A0, Config.freeNat s.fresh % 256, k, none, none, none, []⟩

/-- THERMAL_THROTTLE: at 105 °C the clock goes to 3.0 GHz and a corrected check is logged. -/
def execThermalThrottle (on : Bool) (s : State) : Out :=
  if on then .next (({ s with throttled := true } : State).thermal .corrected) else .next { s with throttled := false }

/-- THERMAL_TRIP: at 115 °C the device takes a fatal error. -/
def execThermalTrip (s : State) : Out := .next (s.thermal .fatal)

/-- REFRESH_WINDOW_END: a Ream slice leaves its refresh window; a read that waited for it is tried again by itself (05 R164). -/
def execRefreshWindowEnd (_core : Nat) (s : State) : Out := .next s

end Sys2Proof.Machine
end

