-- ==== Sys2Proof/Machine/Scalar.lean ====
section
/-!
DEFINITION. The integer instructions of 05_isa_scalar_control.md (R130 to R137) and the hint space (03 R103).
-/
namespace Sys2Proof.Machine

/-! ## Result functions (05 R131, R132) -/

def mulHigh (x y : Word) : Word := BitVec.ofInt 64 ((x.toInt * y.toInt) / 2 ^ 64)
def mulHighU (x y : Word) : Word := BitVec.ofNat 64 ((x.toNat * y.toNat) / 2 ^ 64)
/-- DIV (05 R132): toward zero; −1 for a zero divisor; −2^63 for the overflowing pair. -/
def divS (x y : Word) : Word := if y = 0 then -1 else BitVec.ofInt 64 (x.toInt.tdiv y.toInt)
def divU (x y : Word) : Word := if y = 0 then -1 else BitVec.ofNat 64 (x.toNat / y.toNat)
def remS (x y : Word) : Word := if y = 0 then x else BitVec.ofInt 64 (x.toInt.tmod y.toInt)
def remU (x y : Word) : Word := if y = 0 then x else BitVec.ofNat 64 (x.toNat % y.toNat)
/-- The shift amount b[5:0]. -/
def amount (y : Word) : Nat := y.toNat % 64
def shlW (x y : Word) : Word := x <<< amount y
def shrW (x y : Word) : Word := x >>> amount y
def sarW (x y : Word) : Word := x.sshiftRight (amount y)
def rolW (x y : Word) : Word := x.rotateLeft (amount y)
def minS (x y : Word) : Word := if y.slt x then y else x
def maxS (x y : Word) : Word := if x.slt y then y else x
def minU (x y : Word) : Word := if y.ult x then y else x
def maxU (x y : Word) : Word := if x.ult y then y else x
/-- Zero bits above the highest 1 among the low n bits. -/
def clzFrom (x : Word) : Nat → Nat
  | 0 => 0
  | n + 1 => if x.getLsbD n then 0 else clzFrom x n + 1
def clzW (x : Word) : Word := BitVec.ofNat 64 (clzFrom x 64)
/-- Zero bits below the lowest 1 among the n bits from bit k. -/
def ctzFrom (x : Word) (k : Nat) : Nat → Nat
  | 0 => 0
  | n + 1 => if x.getLsbD k then 0 else ctzFrom x (k + 1) n + 1
def ctzW (x : Word) : Word := BitVec.ofNat 64 (ctzFrom x 0 64)
def cpopFrom (x : Word) : Nat → Nat
  | 0 => 0
  | n + 1 => (if x.getLsbD n then 1 else 0) + cpopFrom x n
def cpopW (x : Word) : Word := BitVec.ofNat 64 (cpopFrom x 64)
/-- BFI (05 R137): bits pos + len − 1 to pos of the old value replaced by the low len bits of a. -/
def insertBits (a old : Word) (pos len : Nat) : Word :=
  let m : Word := BitVec.ofNat 64 ((2 ^ len - 1) <<< pos)
  (old &&& ~~~m) ||| ((a <<< pos) &&& m)

/-! ## Major 0x00 -/

def execAdd (d a b : Code) (s : State) : Out := scalar2 d a b (fun x y => x + y) s
def execSub (d a b : Code) (s : State) : Out := scalar2 d a b (fun x y => x - y) s
def execMul (d a b : Code) (s : State) : Out := scalar2 d a b (fun x y => x * y) s
def execMulh (d a b : Code) (s : State) : Out := scalar2 d a b mulHigh s
def execMulhu (d a b : Code) (s : State) : Out := scalar2 d a b mulHighU s
def execDiv (d a b : Code) (s : State) : Out := scalar2 d a b divS s
def execDivu (d a b : Code) (s : State) : Out := scalar2 d a b divU s
def execRem (d a b : Code) (s : State) : Out := scalar2 d a b remS s
def execRemu (d a b : Code) (s : State) : Out := scalar2 d a b remU s
def execAnd (d a b : Code) (s : State) : Out := scalar2 d a b (fun x y => x &&& y) s
def execOr (d a b : Code) (s : State) : Out := scalar2 d a b (fun x y => x ||| y) s
def execXor (d a b : Code) (s : State) : Out := scalar2 d a b (fun x y => x ^^^ y) s
def execAndn (d a b : Code) (s : State) : Out := scalar2 d a b (fun x y => x &&& ~~~y) s
def execShl (d a b : Code) (s : State) : Out := scalar2 d a b shlW s
def execShr (d a b : Code) (s : State) : Out := scalar2 d a b shrW s
def execSar (d a b : Code) (s : State) : Out := scalar2 d a b sarW s
def execRol (d a b : Code) (s : State) : Out := scalar2 d a b rolW s
def execMin (d a b : Code) (s : State) : Out := scalar2 d a b minS s
def execMax (d a b : Code) (s : State) : Out := scalar2 d a b maxS s
def execMinu (d a b : Code) (s : State) : Out := scalar2 d a b minU s
def execMaxu (d a b : Code) (s : State) : Out := scalar2 d a b maxU s
def execClz (d a : Code) (s : State) : Out := scalar1 1 d a clzW s
def execCtz (d a : Code) (s : State) : Out := scalar1 1 d a ctzW s
def execCpop (d a : Code) (s : State) : Out := scalar1 1 d a cpopW s
def execMov (d a : Code) (s : State) : Out := scalar1 1 d a (fun x => x) s
/-- SEL (05 R133): d is read after a and b. -/
def execSel (d a b : Code) (s : State) : Out := scalar3 d a b (fun x y z => if z ≠ 0 then x else y) s
def execLea1 (d a b : Code) (s : State) : Out := scalar2 d a b (fun x y => x + y) s
def execLea2 (d a b : Code) (s : State) : Out := scalar2 d a b (fun x y => x + y * 2) s
def execLea4 (d a b : Code) (s : State) : Out := scalar2 d a b (fun x y => x + y * 4) s
def execLea8 (d a b : Code) (s : State) : Out := scalar2 d a b (fun x y => x + y * 8) s
def execSetc (c : Cond) (d a b : Code) (s : State) : Out := scalar2 d a b (fun x y => boolWord (condHolds c x y)) s

/-! ## Immediate forms (05 R134, R136, R137) -/

def execAddImm (d a : Code) (imm : BitVec 12) (s : State) : Out := scalar1 1 d a (fun x => x + off64 imm) s
def execAddLit (d a : Code) (lit : Word) (s : State) : Out := scalar1 3 d a (fun x => x + lit) s
def execSubImm (d a : Code) (imm : BitVec 12) (s : State) : Out := scalar1 1 d a (fun x => x - off64 imm) s
def execSubLit (d a : Code) (lit : Word) (s : State) : Out := scalar1 3 d a (fun x => x - lit) s
def execAndImm (d a : Code) (imm : BitVec 12) (s : State) : Out := scalar1 1 d a (fun x => x &&& off64 imm) s
def execAndLit (d a : Code) (lit : Word) (s : State) : Out := scalar1 3 d a (fun x => x &&& lit) s
def execOrImm (d a : Code) (imm : BitVec 12) (s : State) : Out := scalar1 1 d a (fun x => x ||| off64 imm) s
def execOrLit (d a : Code) (lit : Word) (s : State) : Out := scalar1 3 d a (fun x => x ||| lit) s
def execXorImm (d a : Code) (imm : BitVec 12) (s : State) : Out := scalar1 1 d a (fun x => x ^^^ off64 imm) s
def execXorLit (d a : Code) (lit : Word) (s : State) : Out := scalar1 3 d a (fun x => x ^^^ lit) s
def execMovi (d : Code) (imm : BitVec 12) (s : State) : Out := scalar0 1 d (off64 imm) s
def execMoviLit (d : Code) (lit : Word) (s : State) : Out := scalar0 3 d lit s
def execShlImm (d a : Code) (n : BitVec 6) (s : State) : Out := scalar1 1 d a (fun x => x <<< n.toNat) s
def execShrImm (d a : Code) (n : BitVec 6) (s : State) : Out := scalar1 1 d a (fun x => x >>> n.toNat) s
def execSarImm (d a : Code) (n : BitVec 6) (s : State) : Out := scalar1 1 d a (fun x => x.sshiftRight n.toNat) s
def execRolImm (d a : Code) (n : BitVec 6) (s : State) : Out := scalar1 1 d a (fun x => x.rotateLeft n.toNat) s
def execSext (d a : Code) (n : BitVec 7) (s : State) : Out := scalar1 1 d a (sextFrom n.toNat) s
def execZext (d a : Code) (n : BitVec 7) (s : State) : Out := scalar1 1 d a (zextFrom n.toNat) s
def execBfx (d a : Code) (pos lenm1 : BitVec 6) (s : State) : Out :=
  scalar1 1 d a (fun x => zextFrom (lenm1.toNat + 1) (x >>> pos.toNat)) s
/-- BFI reads a, then d (05 R137). -/
def execBfi (d a : Code) (pos lenm1 : BitVec 6) (s : State) : Out :=
  checked (legalBoth d && legalSrc a) s (fun _ =>
    reading (s.read a noPend) s (fun x p =>
      reading (s.read d p) s (fun z p =>
        writing (s.write d (insertBits x z pos.toNat (lenm1.toNat + 1))) p 1 s)))

/-! ## Hint space (03 R103, 05 R157): a no-operation of the length that LEN gives -/

def execNop (_v : BitVec 16) (s : State) : Out := withThread s (fun _ => .next (s.retire noPend 1))
def execLpad (_v : BitVec 16) (s : State) : Out := withThread s (fun _ => .next (s.retire noPend 1))
def execHint (_body : BitVec 24) (len : BitVec 2) (_x1 _x2 _x3 _x4 : Word32) (s : State) : Out :=
  withThread s (fun _ => .next (s.retire noPend (lenWords len)))

end Sys2Proof.Machine
end

