-- ==== Sys2Proof/Machine/Dispatch.lean ====
section
/-!
DEFINITION. The dispatch: one arm per constructor of Instr, each a call of that instruction's meaning.
-/
namespace Sys2Proof.Machine

def exec (i : Instr) (s : State) : Host.Outcome State Fault Refusal :=
  match i with
  | .spawnThreadReady core slot => Sys2Proof.Machine.execSpawnThreadReady core slot s
  | .gangForm core slot => Sys2Proof.Machine.execGangForm core slot s
  | .remoteAccessPerformed op => Sys2Proof.Machine.execRemoteAccessPerformed op s
  | .remoteReply op => Sys2Proof.Machine.execRemoteReply op s
  | .globalAccessComplete op => Sys2Proof.Machine.execGlobalAccessComplete op s
  | .parkWake core slot => Sys2Proof.Machine.execParkWake core slot s
  | .pressOpStart core op => Sys2Proof.Machine.execPressOpStart core op s
  | .pressOpComplete core op => Sys2Proof.Machine.execPressOpComplete core op s
  | .watermarkAccept core => Sys2Proof.Machine.execWatermarkAccept core s
  | .watermarkComplete core => Sys2Proof.Machine.execWatermarkComplete core s
  | .copyRegistration op => Sys2Proof.Machine.execCopyRegistration op s
  | .copyChunk op => Sys2Proof.Machine.execCopyChunk op s
  | .copyComplete op => Sys2Proof.Machine.execCopyComplete op s
  | .collectiveDelivery op => Sys2Proof.Machine.execCollectiveDelivery op s
  | .fabricRequest src req => Sys2Proof.Machine.execFabricRequest src req s
  | .fabricAck op status data => Sys2Proof.Machine.execFabricAck op status data s
  | .doorbell vd q val => Sys2Proof.Machine.execDoorbell vd q val s
  | .qstatErrClear vd q => Sys2Proof.Machine.execQstatErrClear vd q s
  | .write vd q addr data => Sys2Proof.Machine.execWrite vd q addr data s
  | .signal vd q addr op val => Sys2Proof.Machine.execSignal vd q addr op val s
  | .waitValue vd q addr cmp val mask => Sys2Proof.Machine.execWaitValue vd q addr cmp val mask s
  | .waitValueComplete vd q => Sys2Proof.Machine.execWaitValueComplete vd q s
  | .writeSignal vd q addr saddr op val data => Sys2Proof.Machine.execWriteSignal vd q addr saddr op val data s
  | .indirect vd q addr nwi => Sys2Proof.Machine.execIndirect vd q addr nwi s
  | .pull vd q mh paddr table => Sys2Proof.Machine.execPull vd q mh paddr table s
  | .reamLoad vd q ld => Sys2Proof.Machine.execReamLoad vd q ld s
  | .reamLoadComplete vd id => Sys2Proof.Machine.execReamLoadComplete vd id s
  | .selftest vd q st => Sys2Proof.Machine.execSelftest vd q st s
  | .selftestComplete vd id => Sys2Proof.Machine.execSelftestComplete vd id s
  | .timestamp vd q addr => Sys2Proof.Machine.execTimestamp vd q addr s
  | .fencePacket vd q => Sys2Proof.Machine.execFencePacket vd q s
  | .fencePacketComplete vd q => Sys2Proof.Machine.execFencePacketComplete vd q s
  | .v2Packet vd q pkt => Sys2Proof.Machine.execV2Packet vd q pkt s
  | .mload vd va => Sys2Proof.Machine.execMload vd va s
  | .mfree vd h => Sys2Proof.Machine.execMfree vd h s
  | .pullWrite vd h val => Sys2Proof.Machine.execPullWrite vd h val s
  | .nodeDispatch vd node => Sys2Proof.Machine.execNodeDispatch vd node s
  | .launchComplete node => Sys2Proof.Machine.execLaunchComplete node s
  | .displace vd node => Sys2Proof.Machine.execDisplace vd node s
  | .restore node => Sys2Proof.Machine.execRestore node s
  | .restoreComplete node core => Sys2Proof.Machine.execRestoreComplete node core s
  | .headboxRequest vd req => Sys2Proof.Machine.execHeadboxRequest vd req s
  | .headboxTokenRefill vd entry => Sys2Proof.Machine.execHeadboxTokenRefill vd entry s
  | .deckleFetch stream => Sys2Proof.Machine.execDeckleFetch stream s
  | .coreArrival core => Sys2Proof.Machine.execCoreArrival core s
  | .deckleFire stream entry => Sys2Proof.Machine.execDeckleFire stream entry s
  | .deckleRelease stream entry => Sys2Proof.Machine.execDeckleRelease stream entry s
  | .feltProbePass stream => Sys2Proof.Machine.execFeltProbePass stream s
  | .idleTreeReport stream => Sys2Proof.Machine.execIdleTreeReport stream s
  | .deadlockTrap vd => Sys2Proof.Machine.execDeadlockTrap vd s
  | .calenderFrame => Sys2Proof.Machine.execCalenderFrame s
  | .softRequest vd ctx => Sys2Proof.Machine.execSoftRequest vd ctx s
  | .graceExpiry node => Sys2Proof.Machine.execGraceExpiry node s
  | .saving node => Sys2Proof.Machine.execSaving node s
  | .saveComplete node => Sys2Proof.Machine.execSaveComplete node s
  | .killtExpiry node => Sys2Proof.Machine.execKilltExpiry node s
  | .faultRecord fr => Sys2Proof.Machine.execFaultRecord fr s
  | .resume vd core slot => Sys2Proof.Machine.execResume vd core slot s
  | .hold vd core slot => Sys2Proof.Machine.execHold vd core slot s
  | .killNode vd node => Sys2Proof.Machine.execKillNode vd node s
  | .killContext vd ctx => Sys2Proof.Machine.execKillContext vd ctx s
  | .resetVd vd => Sys2Proof.Machine.execResetVd vd s
  | .memberResetNotice vd dev => Sys2Proof.Machine.execMemberResetNotice vd dev s
  | .machineCheck ev => Sys2Proof.Machine.execMachineCheck ev s
  | .mcStatusClear bank val => Sys2Proof.Machine.execMcStatusClear bank val s
  | .patrolScrub line found => Sys2Proof.Machine.execPatrolScrub line found s
  | .form vd => Sys2Proof.Machine.execForm vd s
  | .formationComplete vd => Sys2Proof.Machine.execFormationComplete vd s
  | .teardown vd => Sys2Proof.Machine.execTeardown vd s
  | .teardownComplete vd => Sys2Proof.Machine.execTeardownComplete vd s
  | .tlbinv vd val => Sys2Proof.Machine.execTlbinv vd val s
  | .tlbinvDone vd => Sys2Proof.Machine.execTlbinvDone vd s
  | .ddstatSample => Sys2Proof.Machine.execDdstatSample s
  | .hostBar2Access vd ia wr data => Sys2Proof.Machine.execHostBar2Access vd ia wr data s
  | .functionLevelReset fn => Sys2Proof.Machine.execFunctionLevelReset fn s
  | .tvedtenFrame port fr => Sys2Proof.Machine.execTvedtenFrame port fr s
  | .pauseFrame port lane on => Sys2Proof.Machine.execPauseFrame port lane on s
  | .fwstageGo img table => Sys2Proof.Machine.execFwstageGo img table s
  | .firmwareCheckComplete => Sys2Proof.Machine.execFirmwareCheckComplete s
  | .bringUp failed ports => Sys2Proof.Machine.execBringUp failed ports s
  | .bringUpComplete => Sys2Proof.Machine.execBringUpComplete s
  | .thermalThrottle on => Sys2Proof.Machine.execThermalThrottle on s
  | .thermalTrip => Sys2Proof.Machine.execThermalTrip s
  | .registerWrite fn off val => Sys2Proof.Machine.execRegisterWrite fn off val s
  | .refreshWindowEnd core => Sys2Proof.Machine.execRefreshWindowEnd core s
  | .add d a b => Sys2Proof.Machine.execAdd d a b s
  | .sub d a b => Sys2Proof.Machine.execSub d a b s
  | .mul d a b => Sys2Proof.Machine.execMul d a b s
  | .mulh d a b => Sys2Proof.Machine.execMulh d a b s
  | .mulhu d a b => Sys2Proof.Machine.execMulhu d a b s
  | .div d a b => Sys2Proof.Machine.execDiv d a b s
  | .divu d a b => Sys2Proof.Machine.execDivu d a b s
  | .rem d a b => Sys2Proof.Machine.execRem d a b s
  | .remu d a b => Sys2Proof.Machine.execRemu d a b s
  | .and d a b => Sys2Proof.Machine.execAnd d a b s
  | .or d a b => Sys2Proof.Machine.execOr d a b s
  | .xor d a b => Sys2Proof.Machine.execXor d a b s
  | .andn d a b => Sys2Proof.Machine.execAndn d a b s
  | .shl d a b => Sys2Proof.Machine.execShl d a b s
  | .shr d a b => Sys2Proof.Machine.execShr d a b s
  | .sar d a b => Sys2Proof.Machine.execSar d a b s
  | .rol d a b => Sys2Proof.Machine.execRol d a b s
  | .min d a b => Sys2Proof.Machine.execMin d a b s
  | .max d a b => Sys2Proof.Machine.execMax d a b s
  | .minu d a b => Sys2Proof.Machine.execMinu d a b s
  | .maxu d a b => Sys2Proof.Machine.execMaxu d a b s
  | .clz d a => Sys2Proof.Machine.execClz d a s
  | .ctz d a => Sys2Proof.Machine.execCtz d a s
  | .cpop d a => Sys2Proof.Machine.execCpop d a s
  | .mov d a => Sys2Proof.Machine.execMov d a s
  | .sel d a b => Sys2Proof.Machine.execSel d a b s
  | .lea1 d a b => Sys2Proof.Machine.execLea1 d a b s
  | .lea2 d a b => Sys2Proof.Machine.execLea2 d a b s
  | .lea4 d a b => Sys2Proof.Machine.execLea4 d a b s
  | .lea8 d a b => Sys2Proof.Machine.execLea8 d a b s
  | .setc c d a b => Sys2Proof.Machine.execSetc c d a b s
  | .addImm d a imm => Sys2Proof.Machine.execAddImm d a imm s
  | .addLit d a lit => Sys2Proof.Machine.execAddLit d a lit s
  | .subImm d a imm => Sys2Proof.Machine.execSubImm d a imm s
  | .subLit d a lit => Sys2Proof.Machine.execSubLit d a lit s
  | .andImm d a imm => Sys2Proof.Machine.execAndImm d a imm s
  | .andLit d a lit => Sys2Proof.Machine.execAndLit d a lit s
  | .orImm d a imm => Sys2Proof.Machine.execOrImm d a imm s
  | .orLit d a lit => Sys2Proof.Machine.execOrLit d a lit s
  | .xorImm d a imm => Sys2Proof.Machine.execXorImm d a imm s
  | .xorLit d a lit => Sys2Proof.Machine.execXorLit d a lit s
  | .movi d imm => Sys2Proof.Machine.execMovi d imm s
  | .moviLit d lit => Sys2Proof.Machine.execMoviLit d lit s
  | .shlImm d a n => Sys2Proof.Machine.execShlImm d a n s
  | .shrImm d a n => Sys2Proof.Machine.execShrImm d a n s
  | .sarImm d a n => Sys2Proof.Machine.execSarImm d a n s
  | .rolImm d a n => Sys2Proof.Machine.execRolImm d a n s
  | .sext d a n => Sys2Proof.Machine.execSext d a n s
  | .zext d a n => Sys2Proof.Machine.execZext d a n s
  | .bfx d a pos lenm1 => Sys2Proof.Machine.execBfx d a pos lenm1 s
  | .bfi d a pos lenm1 => Sys2Proof.Machine.execBfi d a pos lenm1 s
  | .bc c a b disp => Sys2Proof.Machine.execBc c a b disp s
  | .loop a disp => Sys2Proof.Machine.execLoop a disp s
  | .b c a b disp => Sys2Proof.Machine.execB c a b disp s
  | .j disp => Sys2Proof.Machine.execJ disp s
  | .call disp => Sys2Proof.Machine.execCall disp s
  | .ret a => Sys2Proof.Machine.execRet a s
  | .jmpt a b => Sys2Proof.Machine.execJmpt a b s
  | .yield => Sys2Proof.Machine.execYield s
  | .trap n => Sys2Proof.Machine.execTrap n s
  | .spawn d a b => Sys2Proof.Machine.execSpawn d a b s
  | .exit => Sys2Proof.Machine.execExit s
  | .gang a => Sys2Proof.Machine.execGang a s
  | .ungang => Sys2Proof.Machine.execUngang s
  | .rdsr d num => Sys2Proof.Machine.execRdsr d num s
  | .wrsr a num => Sys2Proof.Machine.execWrsr a num s
  | .ld w d a b => Sys2Proof.Machine.execLd w d a b s
  | .ldX w d a b off => Sys2Proof.Machine.execLdX w d a b off s
  | .ldImm d a imm => Sys2Proof.Machine.execLdImm d a imm s
  | .st w d a b => Sys2Proof.Machine.execSt w d a b s
  | .stX w d a b off => Sys2Proof.Machine.execStX w d a b off s
  | .stImm d a imm => Sys2Proof.Machine.execStImm d a imm s
  | .ldq w d a b => Sys2Proof.Machine.execLdq w d a b s
  | .ldqX w d a b off => Sys2Proof.Machine.execLdqX w d a b off s
  | .stq w d a b => Sys2Proof.Machine.execStq w d a b s
  | .stqX w d a b off => Sys2Proof.Machine.execStqX w d a b off s
  | .vld d a b => Sys2Proof.Machine.execVld d a b s
  | .vldX d a b off me msk => Sys2Proof.Machine.execVldX d a b off me msk s
  | .vst d a b => Sys2Proof.Machine.execVst d a b s
  | .vstX d a b off me msk => Sys2Proof.Machine.execVstX d a b off me msk s
  | .ldw d a b => Sys2Proof.Machine.execLdw d a b s
  | .ldwX d a b off => Sys2Proof.Machine.execLdwX d a b off s
  | .ldg w d a b => Sys2Proof.Machine.execLdg w d a b s
  | .ldgX w d a b off ox => Sys2Proof.Machine.execLdgX w d a b off ox s
  | .ldgImm d a imm => Sys2Proof.Machine.execLdgImm d a imm s
  | .stg w d a b => Sys2Proof.Machine.execStg w d a b s
  | .stgX w d a b off ox => Sys2Proof.Machine.execStgX w d a b off ox s
  | .stgImm d a imm => Sys2Proof.Machine.execStgImm d a imm s
  | .vldg d a b => Sys2Proof.Machine.execVldg d a b s
  | .vldgX d a b off ox me msk => Sys2Proof.Machine.execVldgX d a b off ox me msk s
  | .vstg d a b => Sys2Proof.Machine.execVstg d a b s
  | .vstgX d a b off ox me msk => Sys2Proof.Machine.execVstgX d a b off ox me msk s
  | .pref a b => Sys2Proof.Machine.execPref a b s
  | .prefX a b off => Sys2Proof.Machine.execPrefX a b off s
  | .flsh a b => Sys2Proof.Machine.execFlsh a b s
  | .flshX a b off => Sys2Proof.Machine.execFlshX a b off s
  | .amadd d a b => Sys2Proof.Machine.execAmadd d a b s
  | .amaddX d a b off ox => Sys2Proof.Machine.execAmaddX d a b off ox s
  | .amadd32 d a b => Sys2Proof.Machine.execAmadd32 d a b s
  | .amadd32X d a b off ox => Sys2Proof.Machine.execAmadd32X d a b off ox s
  | .amswp d a b => Sys2Proof.Machine.execAmswp d a b s
  | .amswpX d a b off ox => Sys2Proof.Machine.execAmswpX d a b off ox s
  | .amswp32 d a b => Sys2Proof.Machine.execAmswp32 d a b s
  | .amswp32X d a b off ox => Sys2Proof.Machine.execAmswp32X d a b off ox s
  | .amcas d a b => Sys2Proof.Machine.execAmcas d a b s
  | .amcasX d a b off ox => Sys2Proof.Machine.execAmcasX d a b off ox s
  | .amcas32 d a b => Sys2Proof.Machine.execAmcas32 d a b s
  | .amcas32X d a b off ox => Sys2Proof.Machine.execAmcas32X d a b off ox s
  | .ammin d a b => Sys2Proof.Machine.execAmmin d a b s
  | .amminX d a b off ox => Sys2Proof.Machine.execAmminX d a b off ox s
  | .ammin32 d a b => Sys2Proof.Machine.execAmmin32 d a b s
  | .ammin32X d a b off ox => Sys2Proof.Machine.execAmmin32X d a b off ox s
  | .ammax d a b => Sys2Proof.Machine.execAmmax d a b s
  | .ammaxX d a b off ox => Sys2Proof.Machine.execAmmaxX d a b off ox s
  | .ammax32 d a b => Sys2Proof.Machine.execAmmax32 d a b s
  | .ammax32X d a b off ox => Sys2Proof.Machine.execAmmax32X d a b off ox s
  | .amminu d a b => Sys2Proof.Machine.execAmminu d a b s
  | .amminuX d a b off ox => Sys2Proof.Machine.execAmminuX d a b off ox s
  | .amminu32 d a b => Sys2Proof.Machine.execAmminu32 d a b s
  | .amminu32X d a b off ox => Sys2Proof.Machine.execAmminu32X d a b off ox s
  | .ammaxu d a b => Sys2Proof.Machine.execAmmaxu d a b s
  | .ammaxuX d a b off ox => Sys2Proof.Machine.execAmmaxuX d a b off ox s
  | .ammaxu32 d a b => Sys2Proof.Machine.execAmmaxu32 d a b s
  | .ammaxu32X d a b off ox => Sys2Proof.Machine.execAmmaxu32X d a b off ox s
  | .amand d a b => Sys2Proof.Machine.execAmand d a b s
  | .amandX d a b off ox => Sys2Proof.Machine.execAmandX d a b off ox s
  | .amand32 d a b => Sys2Proof.Machine.execAmand32 d a b s
  | .amand32X d a b off ox => Sys2Proof.Machine.execAmand32X d a b off ox s
  | .amor d a b => Sys2Proof.Machine.execAmor d a b s
  | .amorX d a b off ox => Sys2Proof.Machine.execAmorX d a b off ox s
  | .amor32 d a b => Sys2Proof.Machine.execAmor32 d a b s
  | .amor32X d a b off ox => Sys2Proof.Machine.execAmor32X d a b off ox s
  | .amxor d a b => Sys2Proof.Machine.execAmxor d a b s
  | .amxorX d a b off ox => Sys2Proof.Machine.execAmxorX d a b off ox s
  | .amxor32 d a b => Sys2Proof.Machine.execAmxor32 d a b s
  | .amxor32X d a b off ox => Sys2Proof.Machine.execAmxor32X d a b off ox s
  | .fence scope set => Sys2Proof.Machine.execFence scope set s
  | .park a b => Sys2Proof.Machine.execPark a b s
  | .wait => Sys2Proof.Machine.execWait s
  | .cpy a b => Sys2Proof.Machine.execCpy a b s
  | .exch a => Sys2Proof.Machine.execExch a s
  | .waitc ld st cp pr cr => Sys2Proof.Machine.execWaitc ld st cp pr cr s
  | .ared d a fmto mode gid => Sys2Proof.Machine.execAred d a fmto mode gid s
  | .rsct d a fmto mode gid => Sys2Proof.Machine.execRsct d a fmto mode gid s
  | .agth d a fmto gid => Sys2Proof.Machine.execAgth d a fmto gid s
  | .atoa d a fmto gid => Sys2Proof.Machine.execAtoa d a fmto gid s
  | .bcst d a fmto gid root => Sys2Proof.Machine.execBcst d a fmto gid root s
  | .ored d a gid root => Sys2Proof.Machine.execOred d a gid root s
  | .puts d a b c => Sys2Proof.Machine.execPuts d a b c s
  | .get a b c => Sys2Proof.Machine.execGet a b c s
  | .radd a b c => Sys2Proof.Machine.execRadd a b c s
  | .apnd d a b c => Sys2Proof.Machine.execApnd d a b c s
  | .fadd d a b => Sys2Proof.Machine.execFadd d a b s
  | .faddX d a b fmto => Sys2Proof.Machine.execFaddX d a b fmto s
  | .fsub d a b => Sys2Proof.Machine.execFsub d a b s
  | .fsubX d a b fmto => Sys2Proof.Machine.execFsubX d a b fmto s
  | .fmul d a b => Sys2Proof.Machine.execFmul d a b s
  | .fmulX d a b fmto => Sys2Proof.Machine.execFmulX d a b fmto s
  | .ffma d a b c fmto => Sys2Proof.Machine.execFfma d a b c fmto s
  | .fdiv d a b => Sys2Proof.Machine.execFdiv d a b s
  | .fdivX d a b fmto => Sys2Proof.Machine.execFdivX d a b fmto s
  | .fsqrt d a => Sys2Proof.Machine.execFsqrt d a s
  | .fsqrtX d a fmto => Sys2Proof.Machine.execFsqrtX d a fmto s
  | .fmin d a b => Sys2Proof.Machine.execFmin d a b s
  | .fminX d a b fmto => Sys2Proof.Machine.execFminX d a b fmto s
  | .fmax d a b => Sys2Proof.Machine.execFmax d a b s
  | .fmaxX d a b fmto => Sys2Proof.Machine.execFmaxX d a b fmto s
  | .fcmp p d a b => Sys2Proof.Machine.execFcmp p d a b s
  | .fcmpX p d a b fmto => Sys2Proof.Machine.execFcmpX p d a b fmto s
  | .fcvt d a fmto fmtd => Sys2Proof.Machine.execFcvt d a fmto fmtd s
  | .fcls d a => Sys2Proof.Machine.execFcls d a s
  | .fclsX d a fmto => Sys2Proof.Machine.execFclsX d a fmto s
  | .vadd d a b => Sys2Proof.Machine.execVadd d a b s
  | .vaddX d a b vx => Sys2Proof.Machine.execVaddX d a b vx s
  | .vaddLit d a lit vx => Sys2Proof.Machine.execVaddLit d a lit vx s
  | .vsub d a b => Sys2Proof.Machine.execVsub d a b s
  | .vsubX d a b vx => Sys2Proof.Machine.execVsubX d a b vx s
  | .vsubLit d a lit vx => Sys2Proof.Machine.execVsubLit d a lit vx s
  | .vmul d a b => Sys2Proof.Machine.execVmul d a b s
  | .vmulX d a b vx => Sys2Proof.Machine.execVmulX d a b vx s
  | .vmulLit d a lit vx => Sys2Proof.Machine.execVmulLit d a lit vx s
  | .vfma d a b c vx => Sys2Proof.Machine.execVfma d a b c vx s
  | .vfmaLit d a lit c vx => Sys2Proof.Machine.execVfmaLit d a lit c vx s
  | .vmin d a b => Sys2Proof.Machine.execVmin d a b s
  | .vminX d a b vx => Sys2Proof.Machine.execVminX d a b vx s
  | .vminLit d a lit vx => Sys2Proof.Machine.execVminLit d a lit vx s
  | .vmax d a b => Sys2Proof.Machine.execVmax d a b s
  | .vmaxX d a b vx => Sys2Proof.Machine.execVmaxX d a b vx s
  | .vmaxLit d a lit vx => Sys2Proof.Machine.execVmaxLit d a lit vx s
  | .vabs d a => Sys2Proof.Machine.execVabs d a s
  | .vabsX d a vx => Sys2Proof.Machine.execVabsX d a vx s
  | .vneg d a => Sys2Proof.Machine.execVneg d a s
  | .vnegX d a vx => Sys2Proof.Machine.execVnegX d a vx s
  | .vand d a b => Sys2Proof.Machine.execVand d a b s
  | .vandX d a b vx => Sys2Proof.Machine.execVandX d a b vx s
  | .vandLit d a lit vx => Sys2Proof.Machine.execVandLit d a lit vx s
  | .vor d a b => Sys2Proof.Machine.execVor d a b s
  | .vorX d a b vx => Sys2Proof.Machine.execVorX d a b vx s
  | .vorLit d a lit vx => Sys2Proof.Machine.execVorLit d a lit vx s
  | .vxor d a b => Sys2Proof.Machine.execVxor d a b s
  | .vxorX d a b vx => Sys2Proof.Machine.execVxorX d a b vx s
  | .vxorLit d a lit vx => Sys2Proof.Machine.execVxorLit d a lit vx s
  | .vshl d a b => Sys2Proof.Machine.execVshl d a b s
  | .vshlX d a b vx => Sys2Proof.Machine.execVshlX d a b vx s
  | .vshlLit d a lit vx => Sys2Proof.Machine.execVshlLit d a lit vx s
  | .vshr d a b => Sys2Proof.Machine.execVshr d a b s
  | .vshrX d a b vx => Sys2Proof.Machine.execVshrX d a b vx s
  | .vshrLit d a lit vx => Sys2Proof.Machine.execVshrLit d a lit vx s
  | .vsar d a b => Sys2Proof.Machine.execVsar d a b s
  | .vsarX d a b vx => Sys2Proof.Machine.execVsarX d a b vx s
  | .vsarLit d a lit vx => Sys2Proof.Machine.execVsarLit d a lit vx s
  | .vscl d a b => Sys2Proof.Machine.execVscl d a b s
  | .vsclX d a b vx => Sys2Proof.Machine.execVsclX d a b vx s
  | .vsclLit d a lit vx => Sys2Proof.Machine.execVsclLit d a lit vx s
  | .vrcp d a => Sys2Proof.Machine.execVrcp d a s
  | .vrcpX d a vx => Sys2Proof.Machine.execVrcpX d a vx s
  | .vrsq d a => Sys2Proof.Machine.execVrsq d a s
  | .vrsqX d a vx => Sys2Proof.Machine.execVrsqX d a vx s
  | .vex2 d a => Sys2Proof.Machine.execVex2 d a s
  | .vex2X d a vx => Sys2Proof.Machine.execVex2X d a vx s
  | .vlg2 d a => Sys2Proof.Machine.execVlg2 d a s
  | .vlg2X d a vx => Sys2Proof.Machine.execVlg2X d a vx s
  | .vcvt d a vx fmtd => Sys2Proof.Machine.execVcvt d a vx fmtd s
  | .vcmp p d a b => Sys2Proof.Machine.execVcmp p d a b s
  | .vcmpX p d a b vx => Sys2Proof.Machine.execVcmpX p d a b vx s
  | .vcmpLit p d a lit vx => Sys2Proof.Machine.execVcmpLit p d a lit vx s
  | .vsel d a b vx => Sys2Proof.Machine.execVsel d a b vx s
  | .vselLit d a lit vx => Sys2Proof.Machine.execVselLit d a lit vx s
  | .mand d a b => Sys2Proof.Machine.execMand d a b s
  | .mor d a b => Sys2Proof.Machine.execMor d a b s
  | .mnot d a => Sys2Proof.Machine.execMnot d a s
  | .vred d a => Sys2Proof.Machine.execVred d a s
  | .vredX d a vx => Sys2Proof.Machine.execVredX d a vx s
  | .vredSat d a => Sys2Proof.Machine.execVredSat d a s
  | .vredSatX d a vx => Sys2Proof.Machine.execVredSatX d a vx s
  | .vrmx d a => Sys2Proof.Machine.execVrmx d a s
  | .vrmxX d a vx => Sys2Proof.Machine.execVrmxX d a vx s
  | .vrmn d a => Sys2Proof.Machine.execVrmn d a s
  | .vrmnX d a vx => Sys2Proof.Machine.execVrmnX d a vx s
  | .vprm d a b => Sys2Proof.Machine.execVprm d a b s
  | .vprmX d a b vx => Sys2Proof.Machine.execVprmX d a b vx s
  | .vprmLit d a lit vx => Sys2Proof.Machine.execVprmLit d a lit vx s
  | .vbrd d a => Sys2Proof.Machine.execVbrd d a s
  | .vbrdX d a vx => Sys2Proof.Machine.execVbrdX d a vx s
  | .viot d => Sys2Proof.Machine.execViot d s
  | .viotX d vx => Sys2Proof.Machine.execViotX d vx s
  | .vpck d a b vx fmtd => Sys2Proof.Machine.execVpck d a b vx fmtd s
  | .vupk d a b vx fmtd => Sys2Proof.Machine.execVupk d a b vx fmtd s
  | .vmv d a => Sys2Proof.Machine.execVmv d a s
  | .vmvX d a vx => Sys2Proof.Machine.execVmvX d a vx s
  | .vins d a b => Sys2Proof.Machine.execVins d a b s
  | .vinsX d a b fmto => Sys2Proof.Machine.execVinsX d a b fmto s
  | .vext d a b => Sys2Proof.Machine.execVext d a b s
  | .vextX d a b fmto => Sys2Proof.Machine.execVextX d a b fmto s
  | .pshp d a => Sys2Proof.Machine.execPshp d a s
  | .pmm acc sa sb na nb ad xi fmto => Sys2Proof.Machine.execPmm acc sa sb na nb ad xi fmto s
  | .pmmg acc sa sb idx na nb ad xi fmto => Sys2Proof.Machine.execPmmg acc sa sb idx na nb ad xi fmto s
  | .plda acc sa fmto => Sys2Proof.Machine.execPlda acc sa fmto s
  | .psta acc sa ad fmto => Sys2Proof.Machine.execPsta acc sa ad fmto s
  | .pz d => Sys2Proof.Machine.execPz d s
  | .pcvt acc fmto => Sys2Proof.Machine.execPcvt acc fmto s
  | .wmcf d a b => Sys2Proof.Machine.execWmcf d a b s
  | .wmz => Sys2Proof.Machine.execWmz s
  | .wmst a b => Sys2Proof.Machine.execWmst a b s
  | .wmsn a => Sys2Proof.Machine.execWmsn a s
  | .wmjn a b => Sys2Proof.Machine.execWmjn a b s
  | .wmlg a b => Sys2Proof.Machine.execWmlg a b s
  | .wmrd d a => Sys2Proof.Machine.execWmrd d a s
  | .eret => Sys2Proof.Machine.execEret s
  | .halt => Sys2Proof.Machine.execHalt s
  | .nop v => Sys2Proof.Machine.execNop v s
  | .lpad v => Sys2Proof.Machine.execLpad v s
  | .hint body len x1 x2 x3 x4 => Sys2Proof.Machine.execHint body len x1 x2 x3 x4 s

end Sys2Proof.Machine
end

