-- ==== Sys2Proof/Machine/Steer.lean ====
section
/-!
DEFINITION. What makes up a step (DESIGN CHOICE, log 3): the steps that are due, the steering stages of the cores with gangs (02 R44, R45, R51, R52, 05 R144), and
what the units look at once in every ck.
-/
namespace Sys2Proof.Machine

/-! ## Steps that are due -/

/-- The first entry of an agenda that is due and wanted, and the agenda without it. -/
def takeDue (clk : Nat) (want : Instr → Bool) : List (Nat × Instr) → Option (Instr × List (Nat × Instr))
  | [] => none
  | (ck, i) :: t =>
    if decide (ck ≤ clk) && want i then some (i, t)
    else
      match takeDue clk want t with
      | none => none
      | some (j, r) => some (j, (ck, i) :: r)

/-- What a device that a fatal error has stopped still does: device reset, and the record of the error on its way (17 R381, R383,
19 R392). -/
def stoppedDoes : Instr → Bool
  | .functionLevelReset fn => fn == 8
  | .faultRecord r => r.rkind == 7
  | _ => false

/-- The next step that is due, and the state without it. -/
def State.dueStep (s : State) : Option (Instr × State) :=
  (takeDue s.clk (fun i => s.devSt != .stopped || stoppedDoes i) s.agenda).map (fun (i, l) => (i, { s with agenda := l }))

/-! ## The steering order (02 R45, 05 R144) -/

/-- The slots of a core in the rotation after the slot that issued last. -/
def Core.rotation (k : Core) : List Nat := (List.range 4).map (fun i => (k.lastSlot + 1 + i) % 4)

/-- The order in which a core looks for a thread that can issue: its rotation, but a thread that has not issued since a YIELD of another
goes before those that have and before the one that yielded (05 R144). -/
def Core.order (k : Core) : List Nat :=
  k.yielded.foldl (fun l (y, done) =>
    let first := l.filter (fun t => t != y && !done.contains t)
    first ++ l.filter (fun t => !first.contains t)) k.rotation

/-- A YIELD counts until every other slot has issued since. -/
def yieldLeft (y : Nat) (done : List Nat) : Bool := (List.range 4).any (fun t => t != y && !done.contains t)

/-- A slot of the core issues. -/
def Core.issued (k : Core) (t : Nat) : Core :=
  { k with
    lastSlot := t
    yielded := (k.yielded.map (fun (y, done) => (y, if t = y ∨ done.contains t then done else t :: done))).filter (fun y => yieldLeft y.1 y.2) }

/-- The thread can be steered, or its instruction can be tried again (02 R44). -/
def Run.triable : Run → Bool
  | .ready => true
  | .blocked .retry => true
  | .blocked (.lq _ _) => true
  | _ => false

/-- A thread that its core may steer by itself: not Stopped, no engine writes its registers, not in the resident handler whose steps stand
for its code, and no follower, but for one in handler mode (02 R52, 10 R257, 17 R359). -/
def State.steerable (s : State) (c : Nat) (th : Thread) : Bool :=
  th.run.triable && !th.stopped && !s.regsHeld c th && !s.handlerDue th && th.eret.isNone && (th.handler || (match th.gang with
    | .follower _ _ => false
    | _ => true))

/-- The threads that may be steered in what is left of this ck, in order. -/
def State.candidates (s : State) : List (Nat × Nat) :=
  (s.cores.filter (fun (c, _) => s.turn ≤ c)).flatMap (fun (c, k) =>
    (k.order.filter (fun t => match k.thread t with
      | none => false
      | some th => s.steerable c th)).map (fun t => (c, t)))

/-- Lines of an L1 instruction cache: 32 KiB (00 R5), held as lines of 128 bytes of which each may stand anywhere in it. R5 gives the size alone:
the line size and the organisation are the model's (DESIGN CHOICE, log 58). -/
def l1iLines : Nat := 256

/-- The fetch of a thread's instruction leaves its line in the core's L1 instruction cache, where the oldest makes room, and its leaf in the TLBs
(00 R5, 16 R347; the cache's lines and their order: DESIGN CHOICE, log 58). -/
def State.fetchTouch (s : State) (c : Nat) (th : Thread) : State :=
  let n := s.node th.node
  let va := n.codeVa + th.pc
  if th.handler then s
  else
    match s.translate n.vd n.ctx va ⟨false, false, true⟩ with
    | .ok k =>
      (s.tlbFill (some c) n.vd n.ctx va).modCore c (fun x =>
        { x with l1i := (k / 128 :: x.l1i.filter (· != k / 128)).take l1iLines })
    | _ => s

/-- The state in which the thread in a slot issues: its core has had its turn. -/
def State.steered (s : State) (c t : Nat) : State :=
  let u := ({ s with turn := c + 1, curCore := c, curSlot := t } : State).modCore c (·.issued t)
  match u.thread c t with
  | none => u
  | some th => u.fetchTouch c th

/-! ## One instruction -/

/-- The trap of a fetch or decode that fails, with its address in the code image (03 R70, 17 R360). -/
def fetchFault (kind : Nat) (th : Thread) (s : State) : Out :=
  match kind with
  | 1 => trap .illegalInstruction 0 0 s
  | 4 => trapCode .addressFault th.pc s
  | 5 => trapCode .misaligned th.pc s
  | 6 => trapCode .translation th.pc s
  | 7 => trapCode .permission th.pc s
  | _ => trapCode .dataError th.pc s

/-- The current thread fetches, decodes and executes its instruction. -/
noncomputable def State.runThread (s : State) (th : Thread) : Out :=
  match s.fetch th with
  | .error k => fetchFault k th s
  | .ok i => exec i s

/-! ## Gangs (02 R51, R52, 17 R359) -/

/-- Every member of a gang can go on. -/
def State.gangGo (s : State) (node : Nat) (ms : List (Nat × Nat)) : Bool :=
  ms.all (fun (c, t) => match s.thread c t with
    | none => false
    | some th => th.node == node && th.run.triable && !th.stopped && !th.handler && !s.regsHeld c th)

/-- A follower reads the operands of a transfer whose decision is the leader's. -/
def followRead (rs : List Code) (s : State) : Out :=
  checked (rs.all legalSrc) s (fun _ =>
    match rs with
    | [a] => reading (s.read a noPend) s (fun _ p => .next (s.retire p 1))
    | [a, b] => reading (s.read a noPend) s (fun _ p => reading (s.read b p) s (fun _ q => .next (s.retire q 1)))
    | _ => .next s)

/-- A follower's part of LOOP: its own register falls by one. -/
def followLoop (a : Code) (s : State) : Out :=
  checked (decide (a.toNat < 32)) s (fun _ =>
    reading (s.read a noPend) s (fun x p => writing (s.write a (x - 1)) p 1 s))

/-- An instruction in a follower: the leader alone decides where the stream goes. -/
def execFollower (i : Instr) (s : State) : Out :=
  match i with
  | .bc _ a b _ => followRead [a, b] s
  | .b _ a b _ => followRead [a, b] s
  | .loop a _ => followLoop a s
  | .ret a => followRead [a] s
  | .jmpt a b => followRead [a, b] s
  | i => exec i s

/-- Member number d of a gang executes the instruction, d ck after the leader. -/
def State.memberRun (s : State) (i : Instr) (d c t : Nat) : Out :=
  match (if d = 0 then exec i { s with curCore := c, curSlot := t }
    else execFollower i { s with curCore := c, curSlot := t, clk := s.clk + d }) with
  | .next u => .next { u with clk := s.clk }
  | x => x

/-- The thread in a slot has taken a trap, or its core has halted. -/
def State.trapped (s : State) (c t : Nat) : Bool := (s.core c).halted || ((s.thread c t).map (·.handler)).getD false

/-- The thread in a slot waits to try its instruction again. -/
def State.waits (s : State) (c t : Nat) : Bool :=
  match (s.thread c t).map Thread.run with
  | some (.blocked .retry) => true
  | some (.blocked (.lq _ _)) => true
  | _ => false

/-- How an instruction ended in a thread. -/
inductive Ended where
  | done (s : State)
  | trapped (s : State)
  | waits (why : Why)
  | stop (o : Out)

def State.ended (o : Out) (c t : Nat) : Ended :=
  match o with
  | .next u =>
    if u.trapped c t then .trapped u
    else
      match (u.thread c t).map Thread.run with
      | some (.blocked .retry) => .waits .retry
      | some (.blocked (.lq q n)) => .waits (.lq q n)
      | _ => .done u
  | o => .stop o

/-- What the members of a gang meet when each executes the instruction from the same state. -/
def State.memberEnds (s : State) (i : Instr) (ms : List (Nat × Nat)) : List (Nat × Nat × Ended) :=
  ms.zipIdx.map (fun (m, d) => (m.1, m.2, State.ended (s.memberRun i d m.1 m.2) m.1 m.2))

/-- The gang's stream stops: each member waits, for what holds it or for the others. -/
def State.gangWait (s : State) (es : List (Nat × Nat × Ended)) : State :=
  es.foldl (fun st (c, t, e) => st.modThread c t (fun th => { th with run := .blocked (match e with
    | .waits w => w
    | _ => .retry) })) s

/-- All members execute, in order of distance; none where one of them could not after all. -/
def State.gangDo (i : Instr) : List ((Nat × Nat) × Nat) → State → Option State
  | [], s => some s
  | ((c, t), d) :: r, s =>
    match State.ended (s.memberRun i d c t) c t with
    | .done u => State.gangDo i r u
    | _ => none

/-- The members take the leader's pc: a follower owns none (02 R52). -/
def State.gangPc (s : State) (pc : Word) (ms : List (Nat × Nat)) : State := ms.foldl (fun st (c, t) => st.modThread c t (fun th => { th with pc := pc })) s

/-- The slots of a gang's members have issued (02 R45). -/
def State.gangIssued (s : State) (ms : List (Nat × Nat)) : State := ms.foldl (fun st (c, t) => st.modCore c (·.issued t)) s

/-- One instruction of a gang's stream: all its members execute it, or one of them traps, or the stream waits. -/
def State.gangExec (s : State) (i : Instr) (c t : Nat) (ms : List (Nat × Nat)) : Out :=
  let es := s.memberEnds i ms
  match es.findSome? (fun (a, b, e) => match e with
    | .trapped u => some (a, b, u)
    | _ => none) with
  | some (a, b, u) => .next (u.gangStop a b ms)
  | none =>
    if es.any (fun x => match x.2.2 with
      | .waits _ => true
      | _ => false) then .next (s.gangWait es)
    else
      match State.gangDo i ms.zipIdx s with
      | none => .next (s.gangWait es)
      | some u =>
        let v : State := { u with curCore := c, curSlot := t }
        match v.thread c t with
        | none => .next v
        | some th => .next ((v.gangPc th.pc ms).gangIssued (ms.filter (· != (c, t))))

/-- A leader's stream goes on by one instruction, where every member can. -/
noncomputable def State.runGang (s : State) (c t : Nat) (th : Thread) (ms : List (Nat × Nat)) : Out :=
  if !s.gangGo th.node ms then .next (s.modThread c t (fun th => { th with run := .blocked .retry }))
  else
    let u := s.gangPc th.pc ms
    match u.fetch th with
    | .error k =>
      (match fetchFault k th { u with curCore := c, curSlot := t } with
      | .next v => .next (v.gangStop c t ms)
      | o => o)
    | .ok i => u.gangExec i c t ms

/-! ## Steering -/

/-- A thread issues: alone, in handler mode alone too, or with its gang. A thread that returns from handler mode takes its gang with it
(17 R359). -/
noncomputable def State.issueAt (s : State) (c t : Nat) (th : Thread) : Out :=
  let u := s.steered c t
  match th.gang, th.handler with
  | .none, _ => u.runThread th
  | _, false => u.runGang c t th (u.gangMembers c t)
  | _, true =>
    match u.runThread th with
    | .next v => .next (if ((v.thread c t).map (·.handler)).getD true then v else v.startGang c t)
    | o => o

/-- A candidate issues; one that was waiting and still must wait is not steered, and nothing has changed. -/
noncomputable def State.attempt (s : State) (c t : Nat) : Option Out :=
  match s.thread c t with
  | none => none
  | some th =>
    let o := s.issueAt c t th
    if th.run = .ready then some o
    else
      match o with
      | .next u => if u.waits c t then none else some o
      | o => some o

/-- The first candidate that issues. -/
noncomputable def State.steerFrom (s : State) : List (Nat × Nat) → Option Out
  | [] => none
  | (c, t) :: r =>
    match s.attempt c t with
    | some o => some o
    | none => s.steerFrom r

noncomputable def State.steer (s : State) : Option Out := s.steerFrom s.candidates

/-! ## Once in every ck -/

/-- What the units of a virtual device look at: command processor, Hollander, context switches, park detector. -/
def State.vdTurn (s : State) (vd : Fin 8) : State :=
  let t := (((s.serve vd).hollanderTry vd).switchTry vd).returnTry vd
  if t.deadlocked vd && !t.agenda.any (fun e => e.2 == .deadlockTrap vd) then t.due (t.clk + 1) (.deadlockTrap vd) else t

/-- A copy node whose copy is over. -/
def State.copyOver (s : State) (id : Nat) (n : Node) : Bool := n.copy.isSome && n.st == .running && !s.ops.any (fun (_, o) => o.node == id)

/-- What a node has come to: its end, the stops and resumptions of its cores, or its save. -/
def State.nodeTurn (s : State) (id : Nat) : State :=
  match tabGet s.nodes id with
  | none => s
  | some n =>
    if s.nodeDone id || s.copyOver id n then s.completeNode id
    else
      let t := if n.ladder == .stopping then s.resumeTry id n else s.saveTurn id n
      if t.saveReady id (t.node id) && !t.agenda.any (fun e => e.2 == .saving id) then t.due (t.clk + 1) (.saving id) else t

/-- What waits at the links, the Vat slices and the Headbox. -/
def State.busTurn (s : State) : State := s.drainVat.spareTurn.drainEgress.serveInbox

/-- The end of a ck: links, handlers, streams, nodes and virtual devices, then the next ck begins. -/
def State.sweep (s : State) : State :=
  let a := (tabKeys s.cores).foldl State.handlerTurn s.busTurn
  let b := (tabKeys a.streams).foldl State.deckleTurn a
  let c := ((tabKeys b.nodes).foldl State.nodeTurn b).dropReplays
  let d := ((List.range 8).map (Fin.ofNat 8)).foldl State.vdTurn c
  { d with clk := d.clk + 1, turn := 0 }

/-- The ck passes and nothing else happens: a device that a fatal error has stopped. -/
def State.idle (s : State) : State := { s with clk := s.clk + 1, turn := 0 }

/-! ## A word where the next step fetches -/

/-- The virtual device, its tables and its memory as a word's fetch needs them: virtual page 0 is an executable page (16 R344, R345). -/
def fetchVd (v : Vd) : Vd :=
  { v with en := true, busy := false, qbase := 0, qlen := max 1 v.qlen, chmask := 0xFF, s2base := 0, s2lim := 1
           ctxs := [(0, ⟨0x1000, 0, 0, 0, 0, 0, 0⟩)] }

/-- Entries of the three upper tables and of the leaf (16 R344). -/
def fetchTables : List (Nat × Nat) := [(0x1000, 0x2001), (0x2000, 0x3001), (0x3000, 0x4001), (0x4000, 0x503B)]

/-- Bytes at an intermediate address of a virtual device. -/
def putIa (v : Vd) (m : Memory) (ia : Nat) (bs : List Byte) : Memory :=
  match v.iaKey ia with
  | none => m
  | some k => memPut m k bs

/-- The node whose thread runs the word: a code image of one page, of core 0 alone. -/
def fetchNode : Node := { Node.none with st := .running, launched := true, codeLen := 4096, imgLen := 4096 }

/-- The thread that runs the word. -/
def fetchThread (id : Nat) : Thread := { fetchNode.launchThread id 0 0 with run := .ready }

end Sys2Proof.Machine
end

