-- ==== Sys2Proof/Machine/Step.lean ====
section
/-!
DEFINITION. One step of the device (DESIGN CHOICE, log 3): the next step that is due; else one instruction of the next core that can steer one; else the end of
the ck. And the state in which the next step runs a given word.
-/
namespace Sys2Proof.Machine

/-- One step. -/
noncomputable def step (s : State) : Host.Outcome State Fault Refusal :=
  match s.dueStep with
  | some (i, t) => exec i t
  | none =>
    if s.devSt = .stopped then .next s.idle
    else
      match s.steer with
      | some o => o
      | none => .next s.sweep

/-- s with an instruction's bytes at virtual address 0 of virtual device 0, core 0 alone holding a thread that is at it, and nothing due
before it (DESIGN CHOICE, log 19). -/
def State.withFetchWord (s : State) (nbits w : Nat) : State :=
  let v := fetchVd (s.vd 0)
  let tables := fetchTables.foldl (fun m (a, e) => putIa v m a (leBytes 8 e)) s.dram
  { s with
    turn := 0
    curCore := 0
    curSlot := 0
    agenda := s.agenda.filter (fun e => s.clk < e.1)
    nextId := s.nextId + 1
    devSt := .ready
    dram := putIa v tables 0x5000 (Sys2Proof.tableBytes nbits w)
    poisonD := []
    tlb := []
    cores := [(0, { Core.reset with slots := #v[some (fetchThread s.nextId), none, none, none], bound := some s.nextId })]
    nodes := tabSet s.nodes s.nextId fetchNode
    vds := s.vds.set 0 v }

end Sys2Proof.Machine
end

