-- ==== Sys2Proof/Safety.lean ====
section
/-!
DEFINITION. What the claims call a sound state, what an instruction may change, and the tables of results, written from the
spec's own formulas, that the claims hold the instructions against.
-/
namespace Sys2Proof.Machine

/-! ## Sound states -/

/-- The three memories are in their canonical form. -/
def State.Canonical (s : State) : Prop :=
  Memory.wf s.spad = true ∧ Memory.wf s.ream = true ∧ Memory.wf s.dram = true

/-! ## Frames -/

/-- The current thread waits; nothing else changes (02 R44). -/
def State.waiting (s : State) (w : Why) : State := s.modCur (fun th => { th with run := .blocked w })

/-- t differs from s in the scratchpad bytes ks, in the poison of words that lie in ks whole, and in the current thread alone (17 R383). -/
structure Framed (s t : State) (ks : Nat → Prop) : Prop where
  spad   : ∀ k, ¬ ks k → memRead t.spad k = memRead s.spad k
  poison : ∀ u, (u ∈ t.poisonS ↔ u ∈ s.poisonS) ∨ (u ∉ t.poisonS ∧ ∀ i < 8, ks (8 * u + i))
  rest   : { t with spad := s.spad, cores := s.cores, poisonS := s.poisonS } = s
  cores  : ∀ c, c ≠ s.curCore → t.core c = s.core c
  core   : { t.core s.curCore with slots := (s.core s.curCore).slots } = s.core s.curCore
  slots  : ∀ j, j ≠ s.curSlot → t.thread s.curCore j = s.thread s.curCore j

/-- t differs from s after performed writes to the scratchpad bytes ks: in those bytes, in the current thread, and in what a write brings with
it: the wakes of Parked threads, the poison of units replaced whole, and the note of owed registers that the write overtakes (02 R48, 11 R272, 17
R383). -/
structure Stored (s t : State) (ks : Nat → Prop) : Prop where
  spad   : ∀ k, ¬ ks k → memRead t.spad k = memRead s.spad k
  poison : ∀ u, (u ∈ t.poisonS ↔ u ∈ s.poisonS) ∨ (u ∉ t.poisonS ∧ ∀ i < 8, ks (8 * u + i))
  rest   : { t with spad := s.spad, cores := s.cores, agenda := s.agenda, poisonS := s.poisonS, poisonD := s.poisonD, late := s.late } = s
  dirty  : t.poisonD = s.poisonD
  late   : ∃ l, t.late = s.late ++ l ∧ ∀ e ∈ l, ks e.key ∧ e.next = s.nextOp
  wakes  : ∃ l, t.agenda = s.agenda ++ l ∧ ∀ e ∈ l, ∃ c j, e = (s.clk + 4, Instr.parkWake c j)
  cores  : ∀ c, c ≠ s.curCore → t.core c = s.core c
  core   : { t.core s.curCore with slots := (s.core s.curCore).slots } = s.core s.curCore
  slots  : ∀ j, j ≠ s.curSlot → t.thread s.curCore j = s.thread s.curCore j

/-- From s to t only caches have moved, which no register and no byte of memory shows: the Vat, the L1s, the TLBs, and the free values drawn for
them (10 R240, 16 R347 to R354). -/
structure CachesOnly (s t : State) : Prop where
  rest  : { t with vat := s.vat, tlb := s.tlb, cores := s.cores, fresh := s.fresh } = s
  cores : ∀ c, { t.core c with l1d := (s.core c).l1d, l1i := (s.core c).l1i } = s.core c

/-- Bytes n to n + len − 1 of the workspace of the thread, as scratchpad keys (02 R46). -/
def State.wsBytes (s : State) (th : Thread) (n len : Nat) (k : Nat) : Prop :=
  spadKey s.curCore (th.wp + n) ≤ k ∧ k < spadKey s.curCore (th.wp + n) + len

/-- Entries of the load-data queues change by pops at their heads alone. -/
def PopsOnly (a b : Thread) : Prop := ∀ q, ∃ n, b.lqOf q = (a.lqOf q).drop n

/-- An instruction retired after a write to scalar register code d: of memory the bytes of that w register may have changed, of the thread
its pc, its run state, queue heads, that register of the handler bank or that store-data queue, and where it rounds (`rounds`) the
generator. -/
def RetiredScalar (rounds : Bool) (s t : State) (d : Code) : Prop :=
  ∃ a b, s.cur = some a ∧ t.cur = some b ∧
    Framed s t (fun k => d.toNat < 32 ∧ a.handler = false ∧ s.wsBytes a (8 * d.toNat) 8 k) ∧
    { b with pc := a.pc, run := a.run, lq := a.lq, sq := a.sq, bank := a.bank, seed := a.seed } = a ∧
    PopsOnly a b ∧ (rounds = false → b.seed = a.seed) ∧ (a.handler = false → b.bank = a.bank) ∧
    (∀ i, i ≠ d.toNat → b.bank[i]? = a.bank[i]?) ∧ (d ≠ 40 → b.sqOf 0 = a.sqOf 0) ∧ (d ≠ 41 → b.sqOf 1 = a.sqOf 1)

/-- The same after a write to vector register code d (03 R77). -/
def RetiredVector (s t : State) (d : Code) : Prop :=
  ∃ a b, s.cur = some a ∧ t.cur = some b ∧
    Framed s t (fun k => d.toNat < 16 ∧ s.wsBytes a (256 + 128 * d.toNat) 128 k) ∧
    { b with pc := a.pc, run := a.run, lq := a.lq, sq := a.sq, seed := a.seed } = a ∧
    PopsOnly a b ∧ (d ≠ 40 → b.sqOf 0 = a.sqOf 0) ∧ (d ≠ 41 → b.sqOf 1 = a.sqOf 1)

/-- The same after a write to mask register d (06 R183). -/
def RetiredMask (s t : State) (d : Code) : Prop :=
  ∃ a b, s.cur = some a ∧ t.cur = some b ∧ Framed s t (s.wsBytes a (2304 + 16 * d.toNat) 16) ∧
    { b with pc := a.pc, run := a.run, lq := a.lq } = a ∧ PopsOnly a b

/-- The thread has taken a trap, whose TADDR may be a place of the code image (03 R70). -/
def Traps (s t : State) : Prop :=
  ∃ k code addr, t = s.trapCur k code addr ∨ t = (s.trapCur k code addr).atCode s.curCore s.curSlot

/-- A next state is one of three: the thread waits, it takes a trap, or the instruction has had its effect. -/
def Ends (s t : State) (effect : Prop) : Prop := (∃ w, t = s.waiting w) ∨ Traps s t ∨ effect

noncomputable section

/-! ## Results of the integer instructions (05 R131 to R137) -/

/-- wrap(x, 64) (01 R18). -/
def wrap64 (x : Int) : Word := BitVec.ofInt 64 x

/-- The conditions of 03 R79 in words: signed and unsigned order, and a common bit. -/
def condSpec (c : Cond) (a b : Word) : Bool :=
  match c with
  | .eq => decide (a.toNat = b.toNat)
  | .ne => decide (a.toNat ≠ b.toNat)
  | .lt => decide (a.toInt < b.toInt)
  | .ge => decide (b.toInt ≤ a.toInt)
  | .ltu => decide (a.toNat < b.toNat)
  | .geu => decide (b.toNat ≤ a.toNat)
  | .gt => decide (b.toInt < a.toInt)
  | .le => decide (a.toInt ≤ b.toInt)
  | .gtu => decide (b.toNat < a.toNat)
  | .leu => decide (a.toNat ≤ b.toNat)
  | .any => (List.range 64).any (fun i => a.getLsbD i && b.getLsbD i)
  | .none => (List.range 64).all (fun i => !(a.getLsbD i && b.getLsbD i))

/-- DIV and REM of 05 R132. -/
def divSpec (a b : Word) : Word :=
  if b.toInt = 0 then wrap64 (-1) else if a.toInt = -2 ^ 63 ∧ b.toInt = -1 then wrap64 (-2 ^ 63) else wrap64 (a.toInt.tdiv b.toInt)
def remSpec (a b : Word) : Word :=
  if b.toInt = 0 then a else if a.toInt = -2 ^ 63 ∧ b.toInt = -1 then 0 else wrap64 (a.toInt.tmod b.toInt)

/-- The bits of a word from bit 63 down, and from bit 0 up. -/
def bitsDown (a : Word) : List Bool := (List.range 64).map (fun i => a.getLsbD (63 - i))
def bitsUp (a : Word) : List Bool := (List.range 64).map (fun i => a.getLsbD i)

/-- The two-operand instructions of major 0x00 and their results (05 R131, R132). -/
def binaries : List ((Code → Code → Code → Instr) × (Word → Word → Word)) := [
  (.add, fun a b => wrap64 (a.toInt + b.toInt)),
  (.sub, fun a b => wrap64 (a.toInt - b.toInt)),
  (.mul, fun a b => wrap64 (a.toInt * b.toInt)),
  (.mulh, fun a b => wrap64 (a.toInt * b.toInt / 2 ^ 64)),
  (.mulhu, fun a b => BitVec.ofNat 64 (a.toNat * b.toNat / 2 ^ 64)),
  (.div, divSpec),
  (.divu, fun a b => if b.toNat = 0 then BitVec.ofNat 64 (2 ^ 64 - 1) else BitVec.ofNat 64 (a.toNat / b.toNat)),
  (.rem, remSpec),
  (.remu, fun a b => if b.toNat = 0 then a else BitVec.ofNat 64 (a.toNat % b.toNat)),
  (.and, fun a b => a &&& b),
  (.or, fun a b => a ||| b),
  (.xor, fun a b => a ^^^ b),
  (.andn, fun a b => a &&& ~~~b),
  (.shl, fun a b => BitVec.ofNat 64 (a.toNat * 2 ^ (b.toNat % 64))),
  (.shr, fun a b => BitVec.ofNat 64 (a.toNat / 2 ^ (b.toNat % 64))),
  (.sar, fun a b => wrap64 (a.toInt / 2 ^ (b.toNat % 64))),
  (.rol, fun a b => (a <<< (b.toNat % 64)) ||| (a >>> (64 - b.toNat % 64))),
  (.min, fun a b => if a.toInt ≤ b.toInt then a else b),
  (.max, fun a b => if b.toInt ≤ a.toInt then a else b),
  (.minu, fun a b => if a.toNat ≤ b.toNat then a else b),
  (.maxu, fun a b => if b.toNat ≤ a.toNat then a else b),
  (.lea1, fun a b => wrap64 (a.toInt + b.toInt)),
  (.lea2, fun a b => wrap64 (a.toInt + b.toInt * 2)),
  (.lea4, fun a b => wrap64 (a.toInt + b.toInt * 4)),
  (.lea8, fun a b => wrap64 (a.toInt + b.toInt * 8))]

/-- SETC beside them: its result under a condition. -/
def setcs : List ((Code → Code → Code → Instr) × (Word → Word → Word)) :=
  [Cond.eq, .ne, .lt, .ge, .ltu, .geu, .gt, .le, .gtu, .leu, .any, .none].map (fun c =>
    (Instr.setc c, fun a b => if condSpec c a b then 1 else 0))

/-- The one-operand instructions with their words, and their results (05 R131, R134, R136, R137). -/
def unaries (imm : BitVec 12) (lit : Word) (n : BitVec 6) (m : BitVec 7) (pos len : BitVec 6) :
    List (Nat × (Code → Code → Instr) × (Word → Word)) := [
  (1, .clz, fun a => BitVec.ofNat 64 ((bitsDown a).findIdx (· == true))),
  (1, .ctz, fun a => BitVec.ofNat 64 ((bitsUp a).findIdx (· == true))),
  (1, .cpop, fun a => BitVec.ofNat 64 ((bitsUp a).count true)),
  (1, .mov, fun a => a),
  (1, (.addImm · · imm), fun a => wrap64 (a.toInt + imm.toInt)),
  (3, (.addLit · · lit), fun a => wrap64 (a.toInt + lit.toInt)),
  (1, (.subImm · · imm), fun a => wrap64 (a.toInt - imm.toInt)),
  (3, (.subLit · · lit), fun a => wrap64 (a.toInt - lit.toInt)),
  (1, (.andImm · · imm), fun a => a &&& wrap64 imm.toInt),
  (3, (.andLit · · lit), fun a => a &&& lit),
  (1, (.orImm · · imm), fun a => a ||| wrap64 imm.toInt),
  (3, (.orLit · · lit), fun a => a ||| lit),
  (1, (.xorImm · · imm), fun a => a ^^^ wrap64 imm.toInt),
  (3, (.xorLit · · lit), fun a => a ^^^ lit),
  (1, (.shlImm · · n), fun a => BitVec.ofNat 64 (a.toNat * 2 ^ n.toNat)),
  (1, (.shrImm · · n), fun a => BitVec.ofNat 64 (a.toNat / 2 ^ n.toNat)),
  (1, (.sarImm · · n), fun a => wrap64 (a.toInt / 2 ^ n.toNat)),
  (1, (.rolImm · · n), fun a => (a <<< n.toNat) ||| (a >>> (64 - n.toNat))),
  (1, (.sext · · m), fun a => wrap64 (Int.bmod a.toNat (2 ^ m.toNat))),
  (1, (.zext · · m), fun a => BitVec.ofNat 64 (a.toNat % 2 ^ m.toNat)),
  (1, (.bfx · · pos len), fun a => BitVec.ofNat 64 (a.toNat / 2 ^ pos.toNat % 2 ^ (len.toNat + 1)))]

/-- The value of d with bits pos + len − 1 to pos replaced by the low bits of a (05 R137). -/
def bfiSpec (a d : Word) (pos len : Nat) : Word :=
  BitVec.ofNat 64 (d.toNat / 2 ^ (pos + len) * 2 ^ (pos + len) + a.toNat % 2 ^ len * 2 ^ pos + d.toNat % 2 ^ pos)

/-! ## Results of scalar floating point (06 R173 to R177) -/

/-- The value of the low bits of a register in a format. -/
def FloatFmt.regVal (f : FloatFmt) (x : Word) : Ext := f.decode (x.toNat % 2 ^ f.width)

/-- One rounding into a format, as a register value. -/
def Rnd.reg (r : Rnd) (f : FloatFmt) (v : Ext) : Word × Rnd := (BitVec.ofNat 64 (r.call (.flt f) v).1, (r.call (.flt f) v).2)

/-- The smaller or larger encoding of 06 R174; the NaN of the format when an operand is one. -/
def FloatFmt.pick (f : FloatFmt) (mx : Bool) (x y : Word) : Word :=
  let a := x.toNat % 2 ^ f.width
  let b := y.toNat % 2 ^ f.width
  if (f.decode a).isNan = true ∨ (f.decode b).isNan = true then BitVec.ofNat 64 f.nanEnc
  else if (if mx then (f.decode a).below (f.decode b) else (f.decode b).below (f.decode a)) then BitVec.ofNat 64 b
  else BitVec.ofNat 64 a

/-- The two-operand instructions under LEN 0b00 and LEN 0b10, and their results in a format (06 R173 to R175). -/
def floatBinaries (p : FPred) : List ((Code → Code → Code → Instr) × (Code → Code → Code → BitVec 5 → Instr) ×
    (FloatFmt → Rnd → Word → Word → Word × Rnd)) := [
  (.fadd, .faddX, fun f r x y => r.reg f (Ext.add r.mode (f.regVal x) (f.regVal y))),
  (.fsub, .fsubX, fun f r x y => r.reg f (Ext.add r.mode (f.regVal x) (f.regVal y).negate)),
  (.fmul, .fmulX, fun f r x y => r.reg f (Ext.mul (f.regVal x) (f.regVal y))),
  (.fdiv, .fdivX, fun f r x y => r.reg f (Ext.div (f.regVal x) (f.regVal y))),
  (.fmin, .fminX, fun f r x y => (f.pick false x y, r)),
  (.fmax, .fmaxX, fun f r x y => (f.pick true x y, r)),
  (.fcmp p, .fcmpX p, fun f r x y => (if (match p with
      | .eq => (f.regVal x).eqv (f.regVal y)
      | .lt => (f.regVal x).lt (f.regVal y)
      | .le => (f.regVal x).lt (f.regVal y) || (f.regVal x).eqv (f.regVal y)
      | .un => (f.regVal x).isNan || (f.regVal y).isNan) then 1 else 0, r))]

/-- The one-operand instructions (06 R173, R177). -/
def floatUnaries : List ((Code → Code → Instr) × (Code → Code → BitVec 5 → Instr) × (FloatFmt → Rnd → Word → Word × Rnd)) := [
  (.fsqrt, .fsqrtX, fun f r x => r.reg f (f.regVal x).sqrt),
  (.fcls, .fclsX, fun f r x => (classWord f x.toNat, r))]

/-! ## Numbers (04 R110 to R123, 06 R173 to R182) -/

/-- A floating-point format as 04 R110 to R112 lay it out: its code, the widths of exponent and fraction, the bias, the magnitude encodings of the
largest finite value and of infinity, and the NaN that the device produces (of E2M1, which has none, +0). -/
structure Layout where
  fmt  : FloatFmt
  code : Nat
  expo : Nat
  frac : Nat
  bias : Nat
  top  : Nat
  inf  : Option Nat
  nan  : Nat

def layouts : List Layout := [
  ⟨fp32, 11, 8, 23, 127, 0x7F7FFFFF, some 0x7F800000, 0x7FC00000⟩, ⟨fp16, 12, 5, 10, 15, 0x7BFF, some 0x7C00, 0x7E00⟩,
  ⟨bf16, 13, 8, 7, 127, 0x7F7F, some 0x7F80, 0x7FC0⟩, ⟨e4m3, 14, 4, 3, 7, 0x7E, none, 0x7F⟩, ⟨e5m2, 15, 5, 2, 15, 0x7B, some 0x7C, 0x7E⟩,
  ⟨e2m1, 16, 2, 1, 1, 0x7, none, 0x0⟩]

/-- The set G of 06 R181: FP32 without its two lowest fraction bits. -/
def layoutG : Layout := ⟨fpG, 0, 8, 21, 127, 0x1FDFFFFF, some 0x1FE00000, 0x1FF00000⟩

/-- The sign bit's weight. -/
def Layout.half (l : Layout) : Nat := 2 ^ (l.expo + l.frac)

/-- Magnitude encoding n stands for m units of 2^−1024: 2^(e − bias) × (1 + f / 2^F), or 2^(1 − bias) × f / 2^F with e = 0 (04 R111). -/
def Layout.holds (l : Layout) (n m : Nat) : Prop :=
  m * 2 ^ (l.bias + l.frac) =
    2 ^ 1024 * (if n / 2 ^ l.frac = 0 then 2 * (n % 2 ^ l.frac) else 2 ^ (n / 2 ^ l.frac) * (2 ^ l.frac + n % 2 ^ l.frac))

/-- Twice the magnitude of an exact value in units of 2^−1024; one that lies strictly between two units counts as the odd number between. -/
def twice (mag : Nat) (sticky : Bool) : Nat := 2 * mag + if sticky = true then 1 else 0

/-- A value of twice the magnitude x, strictly between neighbours n and n + 1 of magnitudes lo and hi, takes the upper one: the nearer, on a tie the even
one; never; toward +∞; toward −∞; when the drawn word is below the fraction of the gap (04 R115, R118). -/
def takesUpper (m : RMode) (neg : Bool) (z : BitVec 32) (n lo hi x : Nat) : Prop :=
  match m with
  | .rn => lo + hi < x ∨ (lo + hi = x ∧ n % 2 = 1)
  | .rz => False
  | .rp => neg = false
  | .rm => neg = true
  | .rs => z.toNat < (x - 2 * lo) * 2 ^ 32 / (2 * (hi - lo))

/-- A magnitude beyond the largest finite one, hi, whose lower neighbour is lo, becomes infinity (04 R116). -/
def goesToInf (m : RMode) (neg : Bool) (lo hi x : Nat) : Prop :=
  match m with
  | .rn => 2 * hi + (hi - lo) ≤ x
  | .rz => False
  | .rp => neg = false
  | .rm => neg = true
  | .rs => False

/-- Every encoding of every format has the value of 04 R111 and R112. -/
def FormatsDecode : Prop :=
  ∀ l ∈ layouts, Fmt.ofCode l.code = some (.flt l.fmt) ∧ l.fmt.width = 1 + l.expo + l.frac ∧
    ∀ (neg : Bool) (n : Nat), n < l.half → ∀ e, e = l.fmt.decode (n + if neg = true then l.half else 0) →
      (n ≤ l.top → ∃ m, l.holds n m ∧ e = .fin neg m false) ∧
      (l.inf = some n → e = .inf neg) ∧
      (l.top < n → l.inf ≠ some n → e = .nan)

/-- Rounding to a format: exact values stay; others go to one of their neighbours by the mode, beyond the largest to it or to infinity; infinities and
NaN as the format has them; the sign is kept (04 R113 to R116, R118). -/
def RoundingChooses : Prop :=
  ∀ l ∈ layoutG :: layouts, ∀ (m : RMode) (z : BitVec 32) (neg : Bool),
    (∀ (mag : Nat) (sticky : Bool), ∃ r ≤ l.top + 1, l.fmt.round m z (.fin neg mag sticky) = r + (if neg = true then l.half else 0) ∧
      ∀ n lo hi, l.holds n lo →
        (n ≤ l.top → twice mag sticky = 2 * lo → r = n) ∧
        (n < l.top → l.holds (n + 1) hi → 2 * lo < twice mag sticky → twice mag sticky < 2 * hi →
          (takesUpper m neg z n lo hi (twice mag sticky) → r = n + 1) ∧ (¬ takesUpper m neg z n lo hi (twice mag sticky) → r = n)) ∧
        (n + 1 = l.top → l.holds l.top hi → 2 * hi < twice mag sticky →
          (∀ i, l.inf = some i → goesToInf m neg lo hi (twice mag sticky) → r = i) ∧
          ((l.inf = none ∨ ¬ goesToInf m neg lo hi (twice mag sticky)) → r = l.top))) ∧
    l.fmt.round m z (.inf neg) = (l.inf.getD l.top) + (if neg = true then l.half else 0) ∧
    l.fmt.round m z .nan = l.nan

/-- One step of the generator: shifted left, with the parity of bits 31, 21, 1 and 0 below (04 R117). -/
def stepNat (g : Nat) : Nat := (2 * g + (g / 2 ^ 31 + g / 2 ^ 21 + g / 2 + g) % 2) % 2 ^ 32

/-- A thread's rounding calls take the mode of RND and, in mode 4 alone, step the generator once and use the new word (02 R67, 04 R115, R118). -/
def RoundingCalls : Prop :=
  (∀ (th : Thread), th.rounding.seed = th.seed ∧
    th.rounding.mode = [RMode.rn, .rz, .rp, .rm, .rs].getD th.rnd.toNat .rn) ∧
  (∀ (r : Rnd) (fm : Fmt) (v : Ext), ∃ z : BitVec 32, (r.mode = .rs → z.toNat = stepNat r.seed.toNat) ∧
    r.call fm v = (fm.roundTo r.mode z v, ⟨r.mode, if r.mode = .rs then z else r.seed⟩)) ∧
  (∀ (f : FloatFmt) (m : RMode) (z : BitVec 32) (v : Ext), Fmt.roundTo (.flt f) m z v = f.round m z v)

/-- Exact results of operands that are exact: sums, products and quotients in the extended reals, with the cases that give NaN and the signs of zeros
(04 R114, 06 R173). -/
def ExactArithmetic : Prop :=
  ∀ (m : RMode) (a b : Bool) (x y : Nat),
    (∃ s t, Ext.add m (.fin a x false) (.fin b y false) = .fin s t false ∧ signedMag s t = signedMag a x + signedMag b y ∧
      (t = 0 → s = if a = b then a else decide (m = .rm))) ∧
    Ext.add m (.inf a) (.inf b) = (if a = b then .inf a else .nan) ∧
    Ext.add m (.inf a) (.fin b y false) = .inf a ∧ Ext.add m (.fin a x false) (.inf b) = .inf b ∧
    Ext.mul (.fin a x false) (.fin b y false) = .fin (a ^^ b) (x * y / 2 ^ 1024) (decide (x * y % 2 ^ 1024 ≠ 0)) ∧
    Ext.mul (.inf a) (.inf b) = .inf (a ^^ b) ∧
    Ext.mul (.inf a) (.fin b y false) = (if y = 0 then .nan else .inf (a ^^ b)) ∧
    Ext.mul (.fin a x false) (.inf b) = (if x = 0 then .nan else .inf (a ^^ b)) ∧
    Ext.div (.fin a x false) (.fin b y false) = (if y = 0 then (if x = 0 then .nan else .inf (a ^^ b))
      else .fin (a ^^ b) (x * 2 ^ 1024 / y) (decide (x * 2 ^ 1024 % y ≠ 0))) ∧
    Ext.div (.inf a) (.inf b) = .nan ∧ Ext.div (.inf a) (.fin b y false) = .inf (a ^^ b) ∧ Ext.div (.fin a x false) (.inf b) = .fin (a ^^ b) 0 false ∧
    (∀ v, Ext.add m .nan v = .nan ∧ Ext.add m v .nan = .nan ∧ Ext.mul .nan v = .nan ∧ Ext.mul v .nan = .nan ∧ Ext.div .nan v = .nan ∧
      Ext.div v .nan = .nan) ∧
    Ext.negate (.fin a x false) = .fin (!a) x false ∧ Ext.negate (.inf a) = .inf (!a) ∧ Ext.negate .nan = .nan

/-- Exact roots, reciprocals, powers and logarithms, cut down to units of 2^−1024 with a mark for what is cut, and the special operands of 06 R173 and
R181. Of 2^a and log₂ a the exact cases are stated; that the others round as their exact values do is the model's reading (log 17). -/
def ExactFunctions : Prop :=
  (∀ (a : Bool) (x : Nat),
    (x ≠ 0 → ∃ r, r * r ≤ x * 2 ^ 1024 ∧ x * 2 ^ 1024 < (r + 1) * (r + 1) ∧
      Ext.sqrt (.fin false x false) = .fin false r (decide (r * r ≠ x * 2 ^ 1024))) ∧
    (x ≠ 0 → Ext.sqrt (.fin true x false) = .nan ∧ Ext.rsqrt (.fin true x false) = .nan ∧ Ext.log2 (.fin true x false) = .nan) ∧
    Ext.sqrt (.fin a 0 false) = .fin a 0 false ∧ Ext.sqrt (.inf a) = (if a = true then .nan else .inf false) ∧
    Ext.recip (.fin a x false) = (if x = 0 then .inf a else .fin a (2 ^ 2048 / x) (decide (2 ^ 2048 % x ≠ 0))) ∧
    Ext.recip (.inf a) = .fin a 0 false ∧
    (x ≠ 0 → ∃ r, r * r * x ≤ 2 ^ 3072 ∧ 2 ^ 3072 < (r + 1) * (r + 1) * x ∧
      Ext.rsqrt (.fin false x false) = .fin false r (decide (r * r * x ≠ 2 ^ 3072))) ∧
    Ext.rsqrt (.fin a 0 false) = .inf a ∧ Ext.rsqrt (.inf a) = (if a = true then .nan else .fin false 0 false) ∧
    Ext.exp2 (.inf a) = (if a = true then .fin false 0 false else .inf false) ∧
    Ext.log2 (.fin a 0 false) = .inf true ∧ Ext.log2 (.inf a) = (if a = true then .nan else .inf false)) ∧
  (∀ k ≤ 1024, Ext.exp2 (.fin false (k * 2 ^ 1024) false) = .fin false (2 ^ (1024 + k)) false ∧
    Ext.exp2 (.fin true (k * 2 ^ 1024) false) = .fin false (2 ^ (1024 - k)) false ∧
    Ext.log2 (.fin false (2 ^ (1024 + k)) false) = .fin false (k * 2 ^ 1024) false ∧
    (k ≠ 0 → Ext.log2 (.fin false (2 ^ (1024 - k)) false) = .fin true (k * 2 ^ 1024) false)) ∧
  Ext.sqrt .nan = .nan ∧ Ext.recip .nan = .nan ∧ Ext.rsqrt .nan = .nan ∧ Ext.exp2 .nan = .nan ∧ Ext.log2 .nan = .nan

/-- The numeric order, in which +0 equals −0 and NaN compares with nothing; the order of 06 R174, in which −0 is below +0; and FCLS's classes
(06 R174, R175, R177). -/
def FloatOrder : Prop :=
  (∀ (a b : Bool) (x y : Nat),
    Ext.lt (.fin a x false) (.fin b y false) = decide (signedMag a x < signedMag b y) ∧
    Ext.eqv (.fin a x false) (.fin b y false) = decide (signedMag a x = signedMag b y) ∧
    Ext.below (.fin a x false) (.fin b y false) = (decide (signedMag a x < signedMag b y) || (decide (signedMag a x = signedMag b y) && a && !b)) ∧
    Ext.lt (.inf a) (.fin b y false) = a ∧ Ext.lt (.fin a x false) (.inf b) = !b ∧ Ext.lt (.inf a) (.inf b) = (a && !b) ∧
    Ext.eqv (.inf a) (.fin b y false) = false ∧ Ext.eqv (.fin a x false) (.inf b) = false ∧ Ext.eqv (.inf a) (.inf b) = (a == b) ∧
    Ext.below (.inf a) (.fin b y false) = a ∧ Ext.below (.fin a x false) (.inf b) = !b ∧ Ext.below (.inf a) (.inf b) = (a && !b)) ∧
  (∀ v, Ext.lt .nan v = false ∧ Ext.lt v .nan = false ∧ Ext.eqv .nan v = false ∧ Ext.eqv v .nan = false ∧ Ext.below .nan v = false ∧
    Ext.below v .nan = false) ∧
  (∀ l ∈ layouts, ∀ (neg : Bool) (n : Nat), n < l.half →
    classWord l.fmt (n + if neg = true then l.half else 0) = BitVec.ofNat 64 (2 ^
      (if l.inf = some n then (if neg = true then 0 else 7)
      else if l.top < n then 8
      else if n = 0 then (if neg = true then 3 else 4)
      else if n < 2 ^ l.frac then (if neg = true then 2 else 5)
      else (if neg = true then 1 else 6))))

/-- The integer that a pattern of an integer format stands for, and the range of the format (04 R106). -/
def intOf (fm : Fmt) (bits : Nat) : Int :=
  match fm with
  | .int w => Int.bmod bits (2 ^ w)
  | .uint w => bits % 2 ^ w
  | _ => 0
def lowest : Fmt → Int
  | .int w => -2 ^ (w - 1)
  | _ => 0
def highest : Fmt → Int
  | .int w => 2 ^ (w - 1) - 1
  | .uint w => 2 ^ w - 1
  | _ => 0

/-- The integer formats (03 R84). -/
def intFmts : List Fmt := [.int 4, .int 8, .int 16, .int 32, .int 64, .uint 4, .uint 8, .uint 16, .uint 32, .uint 64]

/-- Rounding to an integer format: to one of the neighbour integers by the mode, then into the range; NaN is 0 and an infinity the end of the range
(04 R120). -/
def IntegerRounding : Prop :=
  ∀ fm ∈ intFmts, ∀ (m : RMode) (z : BitVec 32),
    (∀ (neg : Bool) (mag : Nat) (sticky : Bool), ∃ i : Nat,
      (fm.roundTo m z (.fin neg mag sticky) : Int) = (max (lowest fm) (min (highest fm) (if neg = true then -(i : Int) else i))) % 2 ^ fm.width ∧
      ∀ n, (twice mag sticky = n * 2 ^ 1025 → i = n) ∧
        (n * 2 ^ 1025 < twice mag sticky → twice mag sticky < (n + 1) * 2 ^ 1025 →
          (takesUpper m neg z n (n * 2 ^ 1024) ((n + 1) * 2 ^ 1024) (twice mag sticky) → i = n + 1) ∧
          (¬ takesUpper m neg z n (n * 2 ^ 1024) ((n + 1) * 2 ^ 1024) (twice mag sticky) → i = n))) ∧
    (fm.roundTo m z (.inf false) : Int) = highest fm % 2 ^ fm.width ∧ (fm.roundTo m z (.inf true) : Int) = lowest fm % 2 ^ fm.width ∧
    fm.roundTo m z .nan = 0

/-- One element's conversion: between integers it wraps, or saturates into the range, with no rounding call; any other rounds its exact source once
(04 R119 to R121). -/
def ConversionsRound : Prop :=
  (∀ src ∈ intFmts, ∀ (sat : Bool) (r : Rnd) (bits : Nat), ∀ e, e = intOf src bits →
    (∀ dst ∈ intFmts, (convElem src dst sat r bits).2 = r ∧
      ((convElem src dst sat r bits).1 : Int) = (if sat = true then max (lowest dst) (min (highest dst) e) else e) % 2 ^ dst.width) ∧
    (∀ l ∈ layouts, convElem src (.flt l.fmt) sat r bits = r.call (.flt l.fmt) (.fin (decide (e < 0)) (e.natAbs * 2 ^ 1024) false))) ∧
  (∀ l ∈ layouts, ∀ (sat : Bool) (r : Rnd) (bits : Nat),
    (∀ dst ∈ intFmts ++ layouts.map (fun k => .flt k.fmt), convElem (.flt l.fmt) dst sat r bits =
      r.call dst (l.fmt.decode (bits % (2 * l.half)))) ∧
    convElem (.flt l.fmt) .ks24 sat r bits = (toKs24 r.mode r.next.seed (l.fmt.decode (bits % (2 * l.half))), (r.call (.flt fp32) .nan).2))

/-- KS24: 04 R122 and R123. A scale of exponents 1 to 254 is 2^(EXP − 127) × (1 + FRAC / 65536); a value beyond 0xFE_FFFF after rounding, a negative one
and NaN become NaN; one below 2^−126 becomes 0, or 0x01_0000 toward +∞. In mode 4 a value above that of 0xFE_FFFF rounds as any other, by the model's
choice (log 74). -/
def KeyScales : Prop :=
  (∀ w < 2 ^ 64, (2 ^ 24 ≤ w → scaleWord w = none) ∧ (w < 2 ^ 24 → w / 65536 = 255 → scaleWord w = none) ∧ (w / 65536 = 0 → scaleWord w = some 0) ∧
    (1 ≤ w / 65536 → w / 65536 ≤ 254 → ∃ k, scaleWord w = some k ∧ k * 2 ^ 143 = 2 ^ (1024 + w / 65536) * (65536 + w % 65536))) ∧
  (∀ (m : RMode) (z : BitVec 32),
    toKs24 m z .nan = 0xFF0000 ∧ (∀ neg, toKs24 m z (.inf neg) = 0xFF0000) ∧
    ∀ (neg : Bool) (mag : Nat) (sticky : Bool), ∀ x r, x = twice mag sticky → r = toKs24 m z (.fin neg mag sticky) →
      (x = 0 → r = 0) ∧ (x ≠ 0 → neg = true → r = 0xFF0000) ∧
      (neg = false →
        (0 < x → x < 2 ^ 899 → r = if m = .rp then 0x010000 else 0) ∧ (2 ^ 1153 ≤ x → r = 0xFF0000) ∧
        ∀ e f lo, 1 ≤ e → e ≤ 254 → f < 65536 → lo * 2 ^ 143 = 2 ^ (1024 + e) * (65536 + f) →
          (x = 2 * lo → r = e * 65536 + f) ∧
          ∀ hi, hi * 2 ^ 143 = 2 ^ (1024 + e) * (65536 + f + 1) → 2 * lo < x → x < 2 * hi →
            (takesUpper m false z f lo hi x → r = e * 65536 + f + 1) ∧ (¬ takesUpper m false z f lo hi x → r = e * 65536 + f)))

/-- The element functions of 06 R178, R180 and R181 on the floating-point formats: one rounding of the exact value, with the exceptions that they name. -/
def FloatElements : Prop :=
  ∀ l ∈ layouts, ∀ (r : Rnd) (x y w : Nat) (a b c : Ext), x < 2 * l.half → y < 2 * l.half → w < 2 * l.half →
    a = l.fmt.decode x → b = l.fmt.decode y → c = l.fmt.decode w →
    eAdd (.flt l.fmt) r x y = r.call (.flt l.fmt) (Ext.add r.mode a b) ∧ eSub (.flt l.fmt) r x y = r.call (.flt l.fmt) (Ext.add r.mode a b.negate) ∧
    eMul (.flt l.fmt) r x y = r.call (.flt l.fmt) (Ext.mul a b) ∧
    eFma (.flt l.fmt) r x y w = r.call (.flt l.fmt) (Ext.add r.mode (Ext.mul a b) c) ∧
    eMin (.flt l.fmt) r x y = (if a = .nan ∨ b = .nan then l.nan else if b.below a = true then y else x, r) ∧
    eMax (.flt l.fmt) r x y = (if a = .nan ∨ b = .nan then l.nan else if a.below b = true then y else x, r) ∧
    eAbs (.flt l.fmt) r x = (if a = .nan then l.nan else x % l.half, r) ∧
    eNeg (.flt l.fmt) r x = (if a = .nan then l.nan else if x < l.half then x + l.half else x - l.half, r) ∧
    eScl none (.flt l.fmt) r x = (l.nan, r) ∧
    (∀ k, eScl (some k) (.flt l.fmt) r x = r.call (.flt l.fmt) (Ext.mul a (.fin false k false))) ∧
    (∀ g ∈ [Ext.recip, Ext.rsqrt, Ext.exp2, Ext.log2], l.code ∈ [11, 12, 13] → eFun g (.flt l.fmt) r x =
      (if g a = .nan then l.nan else if l.code = 11 then 4 * fpG.round .rn 0 (g a) else l.fmt.round .rn 0 (g a), r))

/-- The same on the integer formats: modulo 2^w, the smaller and larger by signedness, and shifts by b modulo w (06 R178, R180). -/
def IntegerElements : Prop :=
  ∀ fm ∈ intFmts, ∀ (r : Rnd) (x y z : Nat), x < 2 ^ fm.width → y < 2 ^ fm.width → z < 2 ^ fm.width → ∀ i j k, i = intOf fm x → j = intOf fm y → k = intOf fm z →
    (∀ e ∈ [(eAdd fm r x y, i + j), (eSub fm r x y, i - j), (eMul fm r x y, i * j), (eFma fm r x y z, i * j + k), (eMin fm r x y, min i j),
        (eMax fm r x y, max i j), (eAbs fm r x, if i < 0 then -i else i), (eNeg fm r x, -i)], e.1.2 = r ∧ (e.1.1 : Int) = e.2 % 2 ^ fm.width) ∧
    eShl fm r x y = (x * 2 ^ (y % fm.width) % 2 ^ fm.width, r) ∧ eShr fm r x y = (x / 2 ^ (y % fm.width), r) ∧
    ((eSar fm r x y).1 : Int) = (Int.bmod x (2 ^ fm.width) / 2 ^ (y % fm.width)) % 2 ^ fm.width ∧ (eSar fm r x y).2 = r ∧
    eScl none fm r x = (0, r) ∧
    (∀ s, eScl (some s) fm r x = r.call fm (.fin (decide (i < 0)) (i.natAbs * s) false))

/-! ## Vector instructions (06 R178 to R191) -/

/-- Element-wise instructions of two vector sources: under LEN 0b00, 0b10 and 0b11, the formats that they accept, and the element
function (06 R178, R180). -/
def vectorBinaries : List ((Code → Code → Code → Instr) × (Code → Code → Code → VX → Instr) × (Code → Code → Word → VX → Instr) ×
    (Nat → Bool) × (Fmt → Rnd → Nat → Nat → Nat × Rnd)) := [
  (.vadd, .vaddX, .vaddLit, anyFmtOk, eAdd), (.vsub, .vsubX, .vsubLit, anyFmtOk, eSub), (.vmul, .vmulX, .vmulLit, anyFmtOk, eMul),
  (.vmin, .vminX, .vminLit, anyFmtOk, eMin), (.vmax, .vmaxX, .vmaxLit, anyFmtOk, eMax), (.vshl, .vshlX, .vshlLit, intFmtOk, eShl),
  (.vshr, .vshrX, .vshrLit, intFmtOk, eShr), (.vsar, .vsarX, .vsarLit, intFmtOk, eSar)]

/-- Element-wise instructions of one vector source (06 R178, R181). -/
def vectorUnaries : List ((Code → Code → Instr) × (Code → Code → VX → Instr) × (Nat → Bool) × (Fmt → Rnd → Nat → Nat × Rnd)) := [
  (.vabs, .vabsX, anyFmtOk, eAbs), (.vneg, .vnegX, anyFmtOk, eNeg), (.vrcp, .vrcpX, arithFmtOk, eFun Ext.recip),
  (.vrsq, .vrsqX, arithFmtOk, eFun Ext.rsqrt), (.vex2, .vex2X, arithFmtOk, eFun Ext.exp2), (.vlg2, .vlg2X, arithFmtOk, eFun Ext.log2)]

/-- Bitwise vector instructions (06 R179). -/
def vectorBitwise : List ((Code → Code → Code → Instr) × (Code → Code → Code → VX → Instr) × (Code → Code → Word → VX → Instr) ×
    (Vec → Vec → Vec)) := [
  (.vand, .vandX, .vandLit, fun x y => x &&& y), (.vor, .vorX, .vorLit, fun x y => x ||| y), (.vxor, .vxorX, .vxorLit, fun x y => x ^^^ y)]

/-- Reductions (06 R186 to R188). -/
def vectorReductions : List ((Code → Code → Instr) × (Code → Code → VX → Instr) × (Nat → Bool) ×
    (Fmt → Rnd → List (Option Nat) → Nat × Rnd)) := [
  (.vred, .vredX, anyFmtOk, redSum), (.vredSat, .vredSatX, intFmtOk, redSat), (.vrmx, .vrmxX, anyFmtOk, redRank true),
  (.vrmn, .vrmnX, anyFmtOk, redRank false)]

/-- A node of the tree of 06 R186: the operand that is there, or the rounded sum of both. -/
def vredNode (x y : Option Nat) (r : Rnd) : Option Nat × Rnd :=
  match x, y with
  | none, b => (b, r)
  | a, none => (a, r)
  | some a, some b =>
    let o := r.call (.flt fp32) (Ext.add r.mode (fp32.decode a) (fp32.decode b))
    (some o.1, o.2)

/-- The first i nodes of a level, in ascending order, and the generator after them. -/
def vredPass (x : Nat → Option Nat) (r : Rnd) : Nat → (Nat → Option Nat) × Rnd
  | 0 => (fun _ => none, r)
  | i + 1 =>
    let p := vredPass x r i
    let o := vredNode (x (2 * i)) (x (2 * i + 1)) p.2
    (fun j => if j = i then o.1 else p.1 j, o.2)

/-- The loop of 06 R186 over 2^k elements: +0 when none takes part. -/
def vredLoop : Nat → (Nat → Option Nat) → Rnd → Nat × Rnd
  | 0, x, r => ((x 0).getD 0, r)
  | k + 1, x, r => vredLoop k (vredPass x r (2 ^ k)).1 (vredPass x r (2 ^ k)).2

/-- The enabled element x at i wins against u at j: none is ranked before it, and of equal ones it has the smaller index; every NaN is before every
number and equal to every NaN (06 R188). -/
def rankWins (mx : Bool) (fm : Fmt) (x i u j : Nat) : Prop :=
  match fm with
  | .flt f => (f.decode x = .nan ∧ (f.decode u = .nan → i ≤ j)) ∨
      (f.decode x ≠ .nan ∧ f.decode u ≠ .nan ∧ (if mx = true then (f.decode x).below (f.decode u) else (f.decode u).below (f.decode x)) = false ∧
        ((f.decode x).below (f.decode u) = false → (f.decode u).below (f.decode x) = false → i ≤ j))
  | _ => (if mx = true then intOf fm u ≤ intOf fm x else intOf fm x ≤ intOf fm u) ∧ (intOf fm x = intOf fm u → i ≤ j)

/-- The values of the reductions (06 R186 to R188): of integers the sum modulo 2^64, or clamped to the format and extended; of floats the FP32 sum along
the fixed tree; the winner's value, extended, its index above it. -/
def ReductionValues : Prop :=
  (∀ fm ∈ intFmts, ∀ (r : Rnd) (xs : List (Option Nat)), ∀ t, t = ((xs.filterMap id).map (intOf fm)).sum →
    ((redSum fm r xs).1 : Int) = t % 2 ^ 64 ∧ (redSum fm r xs).2 = r ∧
    ((redSat fm r xs).1 : Int) = (max (lowest fm) (min (highest fm) t)) % 2 ^ 64 ∧ (redSat fm r xs).2 = r) ∧
  (∀ l ∈ layouts, ∀ (r : Rnd) (k : Nat) (xs : List (Option Nat)), k ≤ 8 → xs.length = 2 ^ k →
    redSum (.flt l.fmt) r xs = vredLoop k (fun i => (xs.getD i none).map (fun x => fp32.round .rn 0 (l.fmt.decode x))) r) ∧
  (∀ l ∈ layouts, ∀ x < 2 * l.half, fp32.decode (fp32.round .rn 0 (l.fmt.decode x)) = l.fmt.decode x) ∧
  (∀ (mx : Bool) (r : Rnd) (fm : Fmt) (xs : List (Option Nat)), (fm ∈ intFmts ∨ ∃ l ∈ layouts, fm = .flt l.fmt) → (∀ x, some x ∈ xs → x < 2 ^ fm.width) →
    (redRank mx fm r xs).2 = r ∧
    ((∀ x ∈ xs, x = none) → (redRank mx fm r xs).1 = 0xFFFFFFFF * 2 ^ 64) ∧
    ((∃ x, some x ∈ xs) → ∃ i x v, xs[i]? = some (some x) ∧ (∀ j u, xs[j]? = some (some u) → rankWins mx fm x i u j) ∧
      (redRank mx fm r xs).1 = v + i * 2 ^ 64 ∧
      (fm ∈ intFmts → (v : Int) = intOf fm x % 2 ^ 64) ∧
      ∀ l ∈ layouts, fm = .flt l.fmt → v = if l.fmt.decode x = .nan then l.nan else x))

/-- Element i of an integer result modulo 2^w (06 R178), by instruction of LEN 0b10. -/
def vectorInts : List ((Code → Code → Code → VX → Instr) × (Fmt → Nat → Nat → Int)) := [
  (.vaddX, fun f x y => f.intVal x + f.intVal y), (.vsubX, fun f x y => f.intVal x - f.intVal y),
  (.vmulX, fun f x y => f.intVal x * f.intVal y), (.vminX, fun f x y => min (f.intVal x) (f.intVal y)),
  (.vmaxX, fun f x y => max (f.intVal x) (f.intVal y))]

/-! ## Memory instructions -/

/-- Scratchpad loads: the words of the instruction, its width, and the instruction as a function of d, a and b (05 R159, R162). -/
def spadLoads (w : LoadWidth) (off : BitVec 12) : List (Nat × LoadWidth × BitVec 12 × (Code → Code → Code → Instr)) := [
  (1, w, 0, .ld w), (3, w, off, fun d a b => .ldX w d a b off)]

/-- The atomics: the action, its width in bytes, and the instruction under LEN 0b00 and LEN 0b10 (11 R270). -/
def atomics : List (AtomicOp × Nat × (Code → Code → Code → Instr) × (Code → Code → Code → BitVec 12 → OX → Instr)) := [
  (.add, 8, .amadd, .amaddX), (.swp, 8, .amswp, .amswpX), (.cas, 8, .amcas, .amcasX), (.min, 8, .ammin, .amminX),
  (.max, 8, .ammax, .ammaxX), (.minu, 8, .amminu, .amminuX), (.maxu, 8, .ammaxu, .ammaxuX), (.and, 8, .amand, .amandX),
  (.or, 8, .amor, .amorX), (.xor, 8, .amxor, .amxorX), (.add, 4, .amadd32, .amadd32X), (.swp, 4, .amswp32, .amswp32X),
  (.cas, 4, .amcas32, .amcas32X), (.min, 4, .ammin32, .ammin32X), (.max, 4, .ammax32, .ammax32X), (.minu, 4, .amminu32, .amminu32X),
  (.maxu, 4, .ammaxu32, .ammaxu32X), (.and, 4, .amand32, .amand32X), (.or, 4, .amor32, .amor32X), (.xor, 4, .amxor32, .amxor32X)]

/-- What an atomic leaves at its address: old, operand and comparand as numbers of n bytes (11 R270). -/
def atomicSpec (op : AtomicOp) (n old v e : Nat) : Nat :=
  let sg (x : Nat) : Int := Int.bmod x (2 ^ (8 * n))
  match op with
  | .add => (old + v) % 2 ^ (8 * n)
  | .swp => v
  | .cas => if old = e then v else old
  | .min => if sg v < sg old then v else old
  | .max => if sg old < sg v then v else old
  | .minu => min old v
  | .maxu => max old v
  | .and => Nat.land old v
  | .or => Nat.lor old v
  | .xor => Nat.xor old v

/-- A loaded value: the little-endian number of its bytes, sign- or zero-extended (01 R18). -/
def loadSpec (w : LoadWidth) (bytes : List Byte) : Word :=
  match w with
  | .w64 => BitVec.ofNat 64 (leNat bytes)
  | .s32 => wrap64 (Int.bmod (leNat bytes) (2 ^ 32))
  | .s16 => wrap64 (Int.bmod (leNat bytes) (2 ^ 16))
  | .s8 => wrap64 (Int.bmod (leNat bytes) (2 ^ 8))
  | .z32 => BitVec.ofNat 64 (leNat bytes % 2 ^ 32)
  | .z16 => BitVec.ofNat 64 (leNat bytes % 2 ^ 16)
  | .z8 => BitVec.ofNat 64 (leNat bytes % 2 ^ 8)

/-- The effective address of a scratchpad access: a + index + offset, low 32 bits (05 R158). -/
def effAddr (base idx : Word) (off : BitVec 12) : BitVec 32 := (base + idx + off.signExtend 64).setWidth 32

/-- A local load may go on now: no engine holds its bytes, no earlier operation of the thread must precede it, and no register of the thread that is
owed lies there (10 R250, R257, 02 R48). -/
def State.localGo (s : State) (ls : List Loc) : Prop := s.readWaits ls = false

/-- A local store may go on now: no engine has registered its bytes, and no earlier operation of the thread must precede it. -/
def State.storeGo (s : State) (ls : List Loc) : Prop :=
  s.anyHeldW ls = false ∧ s.mustWait s.curCore s.curSlot (localView .ss ls) = false

/-- Place i of an access is the first, of those that `on` picks, that lies in a poisoned unit (17 R360, R383). -/
def State.meets (s : State) (on : Nat → Bool) (ls : List Loc) (i : Nat) : Prop :=
  on i = true ∧ (∃ l, ls[i]? = some l ∧ s.poisoned l = true) ∧ ∀ j k, j < i → on j = true → ls[j]? = some k → s.poisoned k = false

/-- Scratchpad accesses: when their codes are legal and their operands there, the effective address, the bytes, the alignment, and the instruction
(05 R159, R162, R163). -/
def spadForms (s : State) (th : Thread) (d a b : Code) (x y : Word) (p q : Pend) (w : LoadWidth) (sw : StoreWidth) (off : BitVec 12) (me : Bool)
    (msk : BitVec 3) : List (Prop × BitVec 32 × Nat × Nat × Instr) :=
  let one := legalSrc b = true
  let three := legalSrc b = true ∨ b = 63
  let datum (e : Pend) := legalSrc d = true ∧ ∃ z r, s.read d e = .ok (z, r)
  let head := isSq d = true ∧ th.sqOf (d.toNat - 40) ≠ []
  let into := d.toNat < 16 ∨ isLq d = true
  let from' := legalVSrc d = true ∧ (∃ v r, s.readVec d q = .ok (v, r)) ∨ isSq d = true ∧ 16 ≤ (th.sqOf (d.toNat - 40)).length
  [(one ∧ legalDst d = true, effAddr x y 0, w.bytes, w.bytes, .ld w d a b), (three ∧ legalDst d = true, effAddr x y off, w.bytes, w.bytes, .ldX w d a b off),
    (legalDst d = true, effAddr x 0 off, 8, 8, .ldImm d a off), (one ∧ datum q, effAddr x y 0, sw.bytes, sw.bytes, .st sw d a b),
    (three ∧ datum q, effAddr x y off, sw.bytes, sw.bytes, .stX sw d a b off), (datum p, effAddr x 0 off, 8, 8, .stImm d a off),
    (one ∧ isLq d = true, effAddr x y 0, w.bytes, w.bytes, .ldq w d a b), (three ∧ isLq d = true, effAddr x y off, w.bytes, w.bytes, .ldqX w d a b off),
    (one ∧ head, effAddr x y 0, sw.bytes, sw.bytes, .stq sw d a b), (three ∧ head, effAddr x y off, sw.bytes, sw.bytes, .stqX sw d a b off),
    (one ∧ into, effAddr x y 0, 128, 8, .vld d a b), (three ∧ into, effAddr x y off, 128, 8, .vldX d a b off me msk),
    (one ∧ from', effAddr x y 0, 128, 8, .vst d a b), (three ∧ from', effAddr x y off, 128, 8, .vstX d a b off me msk)]

/-- From s to t the current thread has issued operation o: the operation is in flight, its class counter has risen, step i of it is on the
agenda within `bound` ck, and memory and every other operation are as before (02 R63). -/
def Issued (s t : State) (o : Op) (i : Instr) (bound : Nat) : Prop :=
  tabGet t.ops s.nextOp = some o ∧ (∀ j, j ≠ s.nextOp → tabGet t.ops j = tabGet s.ops j) ∧ t.nextOp = s.nextOp + 1 ∧
    (∃ ck, s.clk < ck ∧ ck ≤ s.clk + bound ∧ t.agenda = s.agenda ++ [(ck, i)]) ∧
    t.spad = s.spad ∧ t.ream = s.ream ∧ t.dram = s.dram ∧
    (∃ a b, s.cur = some a ∧ t.cur = some b ∧ b.cnt = a.cnt.set o.cls (a.cnt.get o.cls + 1) ∧ b.node = a.node ∧ b.blk = a.blk ∧
      b.handler = a.handler ∧ b.bank = a.bank ∧ b.seed = a.seed ∧ b.fmt = a.fmt ∧ b.rnd = a.rnd ∧ b.sigd = a.sigd ∧ b.frb = a.frb ∧
      b.tstat = a.tstat ∧ b.taddr = a.taddr ∧ b.tinfo = a.tinfo ∧ b.faults = a.faults)

/-- The pc after an instruction of some words (03 R69). -/
def Thread.nextPc (a : Thread) (words : Nat) : Word := a.pc + BitVec.ofNat 64 (4 * words)

/-- A thread that is not in handler mode has taken trap k: RPC, KIND and CODE in TSTAT, the address in TADDR, TAG 0, CLASS 7 and SUB 0 with
the word at the resume point in TINFO, handler mode, the pc at the resident handler (17 R360, R363). -/
def Trapped (a b : Thread) (k : Trap) (code : Nat) (addr resume : Word) (word : Word32) : Prop :=
  b.handler = true ∧ b.pc = Config.handlerEntry ∧ b.run = .ready ∧
  b.tstat.extractLsb' 32 32 = resume.extractLsb' 0 32 ∧ b.tstat.extractLsb' 16 8 = BitVec.ofNat 8 k.kind ∧
  b.tstat.extractLsb' 24 8 = 0 ∧ b.tstat.extractLsb' 0 16 = BitVec.ofNat 16 code ∧
  b.taddr = addr ∧ b.tinfo.extractLsb' 0 32 = word ∧ b.tinfo.extractLsb' 32 8 = 0 ∧ b.tinfo.extractLsb' 45 3 = 7 ∧
  b.tinfo.extractLsb' 48 16 = 0 ∧
  { b with handler := a.handler, pc := a.pc, run := a.run, tstat := a.tstat, taddr := a.taddr, tinfo := a.tinfo, codeFault := a.codeFault } = a

/-! ## Special registers (02 R39, R54, R64 to R68, 06 R167, 08 R217, R218, 17 R360, R366) -/

/-- The special registers that any thread reads, by number, and their values. -/
def specialRegs (s : State) (th : Thread) : List (Nat × Word) := [
  (0x000, BitVec.ofNat 64 (1024 * th.blk.toNat)), (0x001, th.pc), (0x002, BitVec.ofNat 64 th.fmt.toNat),
  (0x003, BitVec.ofNat 64 th.rnd.toNat), (0x004, BitVec.ofNat 64 th.seed.toNat), (0x005, th.sigd),
  (0x006, BitVec.ofNat 64 th.frb.toNat),
  (0x007, BitVec.ofNat 64 (th.cnt.ld + 2 ^ 5 * th.cnt.st + 2 ^ 10 * th.cnt.cp + 2 ^ 17 * th.cnt.pr + 2 ^ 21 * th.cnt.cr)),
  (0x010, cidWord s.curCore (s.hOf th s.curCore)), (0x011, gmemWord (s.core s.curCore).groups),
  (0x012, BitVec.ofNat 64 (s.vdOf th).qbase), (0x013, BitVec.ofNat 64 (s.vdOf th).qlen),
  (0x020, refcWord s.clk s.curCore), (0x021, BitVec.ofNat 64 s.clk)]

/-- Those that only handler mode reads. -/
def handlerRegs (s : State) (th : Thread) : List (Nat × Word) := [
  (0x030, th.tstat), (0x031, th.taddr), (0x032, th.tinfo), (0x033, (s.vdOf th).fsid)]

/-- The writes of x that any thread makes: number and the thread after it. A value that is not listed leaves the field as it was. -/
def specialWrites (x : Word) : List (Nat × (Thread → Thread)) := [
  (0x002, fun th => if x.toNat % 32 ≤ 16 then { th with fmt := BitVec.ofNat 5 x.toNat } else th),
  (0x003, fun th => if x.toNat % 8 ≤ 4 then { th with rnd := BitVec.ofNat 3 x.toNat } else th),
  (0x004, fun th => if x.toNat % 2 ^ 32 = 0 then th else { th with seed := BitVec.ofNat 32 x.toNat }),
  (0x006, fun th => if x.toNat % 2 ^ 18 % 4 = 0 ∧ x.toNat % 2 ^ 18 ≤ 0x3FBFC then { th with frb := BitVec.ofNat 18 x.toNat } else th)]

/-- The writes of x that only handler mode makes; bits that are reserved read as 0, and KIND, CLASS and SUB keep their value where the new one is
not listed (01 R33, 17 R358, R360). -/
def handlerWrites (x : Word) : List (Nat × (Thread → Thread)) := [
  (0x030, fun th => { th with tstat := if 1 ≤ x.toNat / 2 ^ 16 % 256 ∧ x.toNat / 2 ^ 16 % 256 ≤ 19 then x &&& 0xFFFFFFFF00FFFFFF
    else (x &&& 0xFFFFFFFF0000FFFF) ||| (th.tstat &&& 0x0000000000FF0000) }),
  (0x031, fun th => { th with taddr := x }),
  (0x032, fun th => { th with tinfo := (x &&& 0xFFFF0000FFFFFFFF) |||
    ((if x.toNat / 2 ^ 45 % 8 = 5 ∨ x.toNat / 2 ^ 45 % 8 = 6 then th.tinfo else x) &&& 0x0000E00000000000) |||
    ((if 19 < x.toNat / 2 ^ 32 % 256 then th.tinfo else x) &&& 0x000000FF00000000) })]

/-- Read-only registers (02 R65). -/
def readOnlyRegs : List Nat := [0x001, 0x007, 0x010, 0x011, 0x012, 0x013, 0x020, 0x021]

/-- The numbers of 02 R65. -/
def listedRegs : List Nat := [0, 1, 2, 3, 4, 5, 6, 7, 0x10, 0x11, 0x12, 0x13, 0x20, 0x21, 0x30, 0x31, 0x32, 0x33]

/-- A field of SIGD after a write: the new value where it is listed, from lo to hi, else the old one (08 R217, 01 R33). -/
def sigdField (old new : Word) (pos len lo hi : Nat) : Nat :=
  if lo ≤ new.toNat / 2 ^ pos % 2 ^ len ∧ new.toNat / 2 ^ pos % 2 ^ len ≤ hi then new.toNat / 2 ^ pos % 2 ^ len
  else old.toNat / 2 ^ pos % 2 ^ len

/-- A field of a word. -/
def wordField (x : Word) (pos len : Nat) : Nat := x.toNat / 2 ^ pos % 2 ^ len

/-- The classes of operations in the order of their counters: number, class, the limit of WAITC and its code for no limit (05 R165, 17 R360). -/
def waitcFields (ld st : BitVec 5) (cp : BitVec 7) (pr : BitVec 4) (cr : BitVec 3) : List (Nat × Cls × Nat × Nat) := [
  (0, .ld, ld.toNat, 31), (1, .st, st.toNat, 31), (2, .cp, cp.toNat, 127), (3, .pr, pr.toNat, 15), (4, .cr, cr.toNat, 7)]

/-! ## Accesses as they issue -/

/-- An access of the current thread as an operation in flight. -/
def State.opIn (s : State) (th : Thread) (cls : Cls) (ords : List OrdClass) (scope : Scope) (a : Access) : Op :=
  ⟨s.curCore, s.curSlot, th.node, cls, th.tag, ords, scope, .access a⟩

/-- The words of an instruction that is held until its result is there: one that pushes, or one that `sync` marks (01 R14, 11 R265). -/
def holdWords (dest : Dest) (sync : Bool) (words : Nat) : Nat :=
  match dest with
  | .sq _ => words
  | _ => if sync then words else 0

/-- Loads and stores of a scratchpad in both lengths. -/
def remoteLoads (w : LoadWidth) (off : BitVec 12) : List (Nat × BitVec 12 × (Code → Code → Code → Instr)) := [
  (1, 0, .ld w), (3, off, fun d a b => .ldX w d a b off)]
def remoteStores (w : StoreWidth) (off : BitVec 12) : List (Nat × BitVec 12 × (Code → Code → Code → Instr)) := [
  (1, 0, .st w), (3, off, fun d a b => .stX w d a b off)]

/-- Global loads: words, address from a and index, qualifier, and the instruction (11 R264, R265). -/
def globalLoads (w : LoadWidth) (off : BitVec 12) (ox : OX) (x y : Word) : List (Nat × Word × OX × (Code → Code → Code → Instr)) := [
  (1, x + y, OX.plain, .ldg w), (3, x + y + off.signExtend 64, ox, fun d a b => .ldgX w d a b off ox)]

/-- Global stores (11 R267). -/
def globalStores (w : StoreWidth) (off : BitVec 12) (ox : OX) (x y : Word) : List (Nat × Word × OX × (Code → Code → Code → Instr)) := [
  (1, x + y, OX.plain, .stg w), (3, x + y + off.signExtend 64, ox, fun d a b => .stgX w d a b off ox)]

/-- Vector accesses of global memory: words, address, qualifier, lanes, the load and the store. -/
def globalVectors (d a b : Code) (off : BitVec 12) (ox : OX) (me : Bool) (msk : BitVec 3) (x y : Word) (lanes : BitVec 128) :
    List (Nat × Word × OX × BitVec 128 × Instr × Instr) := [
  (1, x + y, OX.plain, BitVec.allOnes 128, .vldg d a b, .vstg d a b),
  (3, x + y + off.signExtend 64, ox, lanes, .vldgX d a b off ox me msk, .vstgX d a b off ox me msk)]

/-! ## Operations as they complete -/

/-- From s to t operation i of a thread has completed: it is in flight no more, and its class counter has fallen (02 R63). -/
def Completed (s t : State) (i : Nat) (o : Op) (a b : Thread) : Prop :=
  s.thread o.core o.slot = some a ∧ t.ops = tabErase s.ops i ∧ t.thread o.core o.slot = some b ∧
    b.cnt = a.cnt.set o.cls (a.cnt.get o.cls - 1)

/-- w register k of a thread of a core that is not in handler mode: its workspace word (02 R46). -/
def State.regAt (s : State) (core : Nat) (th : Thread) (k : Nat) : Word :=
  BitVec.ofNat 64 (leNat (memBytes s.spad (spadKey core (th.wp + 8 * k)) 8))

/-- Byte j of v register k of a thread of a core: a byte of its workspace (02 R46). -/
def State.vByte (s : State) (core : Nat) (th : Thread) (k j : Nat) : Byte := memRead s.spad (spadKey core (th.wp + 256 + 128 * k + j))

/-- The value that a load or an atomic gives from the bytes that it has read: extended, and the old one of an atomic zero-extended (05 R159, 11 R270). -/
def AccessAct.gives (act : AccessAct) (bytes : List Byte) : Word :=
  match act with
  | .load w => loadSpec w bytes
  | _ => BitVec.ofNat 64 (leNat bytes)

/-- The 16 words that a queue receives of a vector load: the bytes read at the enabled lanes, 0 at the others (05 R163). -/
def laneWords (m : BitVec 128) (bytes : List Byte) (ws : List Word) : Prop :=
  ws.length = 16 ∧ ∀ j < 128, (ws.getD (j / 8) 0).extractLsb' (j % 8 * 8) 8 = if m.getLsbD j = true then bytes.getD j 0 else 0

/-- The class of FENCE's set that names an operation in flight: 0 the own scratchpad, 1 global, 2 copies, 4 other scratchpads and collectives, 5 the
fabric; 3 is the Press (03 R97). -/
def Op.fenceClass (o : Op) : Nat :=
  match o.kind with
  | .access a => (match a.home with
    | none => 1
    | some c => if c = o.core then 0 else 4)
  | .copy _ => 2
  | .coll _ => 4
  | .fab _ => 5

/-- The thread has an operation of a class of FENCE outstanding: an access that is not performed, another that is not complete (10 R255). -/
def State.outstanding (s : State) (th : Thread) (b : Nat) : Prop :=
  (∃ e ∈ s.ops, e.2.core = s.curCore ∧ e.2.slot = s.curSlot ∧ e.2.node = th.node ∧ e.2.fenceClass = b ∧
    ∀ a, e.2.kind = .access a → a.performed = false) ∨ (b = 3 ∧ th.cnt.pr ≠ 0)

/-- The vector collectives: what they are, their formats, mode and root, and the instruction (11 R281). -/
def collectives (d a : Code) (fmto : BitVec 5) (mode : CollMode) (gid : BitVec 8) (root : BitVec 12) :
    List (CollOp × (Nat → Bool) × CollMode × Nat × Instr) := [
  (.ared, combFmtOk mode, mode, 0, .ared d a fmto mode gid), (.rsct, combFmtOk mode, mode, 0, .rsct d a fmto mode gid),
  (.agth, wideFmtOk, .wrap, 0, .agth d a fmto gid), (.atoa, wideFmtOk, .wrap, 0, .atoa d a fmto gid),
  (.bcst, wideFmtOk, .wrap, root.toNat, .bcst d a fmto gid root)]

/-- A fabric primitive of the current thread as an operation in flight, and the step in which its request leaves. -/
def State.fabIn (s : State) (th : Thread) (f : Fab) : Op := ⟨s.curCore, s.curSlot, th.node, .cr, th.tag, [.xr], .system, .fab f⟩
def State.fabLeaves (s : State) (th : Thread) (f : Fab) : Instr :=
  .fabricRequest s.devid ⟨(s.node th.node).vd.val, (tabGet (s.vdOf th).bind f.dev).getD 15, f.prim, f.remote, [], f.len, f.signal, some s.nextOp⟩

/-- A control word of a primitive that R288 allows. -/
def ctlOk (prim : FabricOp) (z : Word) : Prop :=
  wordField z 48 16 = 0 ∧ wordField z 17 7 = 0 ∧ wordField z 10 6 = 0 ∧
    match prim with
    | .radd => wordField z 24 24 = 8
    | .apnd => 8 ≤ wordField z 24 24 ∧ wordField z 24 24 ≤ 4096 ∧ wordField z 24 24 % 8 = 0
    | _ => 1 ≤ wordField z 24 24

/-- A service request whose form 19 R398 does not allow: a PUTS to the service page with bits 23:16 or a length that it does not have. -/
def badService (y z : Word) : Prop :=
  wordField y 40 24 = 0xFFFFFF ∧
    ¬ (wordField y 16 8 = 0 ∧ 16 ≤ wordField z 24 24 ∧ wordField z 24 24 ≤ 1024 ∧ wordField z 24 24 % 16 = 0)

/-- A message to a device goes out on a lane at once: a port leads there whose lane is not paused, and none waits before it (19 R395, R397). -/
def State.laneOpen (s : State) (dev lane : Nat) : Prop :=
  ∃ p, s.portTo dev = some p ∧ s.lanePaused p lane = false ∧ ∀ e ∈ s.egress, e.2.1 = lane → s.portTo e.1 ≠ some p

/-! ## Vectors, the Press -/

/-- An element-wise result in a format: enabled elements by f in ascending order with the generator carried, the others as d holds them (06 R170,
04 R118). -/
def State.elements (s : State) (th : Thread) (vx : VX) (fm : Fmt) (d : Code) (f : Nat → Rnd → Nat × Rnd) : Vec × Rnd :=
  maskedLoop (s.laneMask vx.me vx.msk) fm.width (1024 / fm.width) (s.oldVec d) th.rounding f

/-- z holds f at every enabled element of width w, and what d holds at the others (06 R170). -/
def State.enabledElements (s : State) (d : Code) (vx : VX) (w : Nat) (z : Vec) (f : Nat → Nat) : Prop :=
  ∀ i < 1024 / w, elem z w i = if (s.laneMask vx.me vx.msk).getLsbD (i * w / 8) = true then f i else elem (s.oldVec d) w i

/-- The Press takes the operation now: PR is not at its largest, the Press holds fewer than 16, every earlier access of the thread is
settled, no engine holds the operation's bytes, and no register that is owed lies there (07 R194, R209, 02 R41, R63). -/
def State.pressFree (s : State) (th : Thread) (w : Work) : Prop :=
  th.cnt.pr < 14 ∧ (s.core s.curCore).press.length < 16 ∧ s.allSettled s.curCore s.curSlot = true ∧
    s.anyHeld (spadPlaces w.reads) = false ∧ s.anyHeldW (spadPlaces w.writes) = false ∧
    th.owesLocs s.curCore (spadPlaces (w.reads ++ w.writes)) = false

/-- The Press operation that stands for a request of the current thread: not started, its operands' bytes as they stand, its bytes
registered (07 R194, R209, R211). -/
def PressOp.standsFor (op : PressOp) (s : State) (th : Thread) (acc : Nat) (w : Work) : Prop :=
  op.id = s.nextOp ∧ op.slot = s.curSlot ∧ op.tag = th.tag ∧ op.acc = acc ∧ op.req = w.req ∧ op.array = w.array ∧ op.occ = w.occ ∧
    op.lat = w.lat ∧ op.left = w.lat ∧ op.reads = w.reads ∧ op.writes = w.writes ∧ op.rnd = th.rnd ∧ op.seed = th.seed ∧ op.started = none ∧
    op.blocks = 0 ∧ op.err = w.err ∧ op.bad = false ∧ op.mem = s.spad.filter (fun c => w.reads.contains c.1) ∧
    op.rmem = s.ream.filter (fun c => w.rreads.contains c.1)

/-- From s to t the Press has accepted an operation of the current thread: PR, the generator and the pc of the thread change; no tile and no byte of
memory does before the completion (07 R194, R209). -/
def Accepted (s t : State) (acc : BitVec 3) (w : Work) (words : Nat) : Prop :=
  ∃ a b, s.cur = some a ∧ t.cur = some b ∧
    b = { a with pc := a.nextPc words, run := .ready, seed := w.seed s a acc.toNat, cnt := { a.cnt with pr := a.cnt.pr + 1 } } ∧
    (t.core s.curCore).tiles = (s.core s.curCore).tiles ∧
    (∃ op, (t.core s.curCore).press = (s.core s.curCore).press ++ [op] ∧ op.standsFor s a acc.toNat w) ∧
    t.agenda = s.agenda ++ [(s.clk, .pressOpStart s.curCore s.nextOp)] ∧ t.spad = s.spad ∧ t.ream = s.ream ∧ t.dram = s.dram

/-! ## Values of the Press (04 R125 to R129, 07 R196, R202 to R208, R212) -/

/-- The generator after n rounding calls (04 R118). -/
def Rnd.ahead (r : Rnd) : Nat → Rnd
  | 0 => r
  | n + 1 => (Rnd.ahead r n).next

/-- val(e) × S: NaN for a NaN scale (04 R125). -/
def timesScale (v : Ext) (sc : Option Nat) : Ext :=
  match sc with
  | none => .nan
  | some k => Ext.mul v (.fin false k false)

/-- A value times several KS24 scales: NaN when one is NaN, +0 when one is zero (04 R129, 07 R207). -/
def timesScales (v : Ext) (scs : List (Option Nat)) : Ext :=
  if none ∈ scs then .nan else if some 0 ∈ scs then .fin false 0 false else scs.foldl timesScale v

/-- The real number of an element of a shape record, of a float or an integer format, and its integer (04 R106, R111, 07 R202). -/
def elemReal (f e : Nat) (sc : Option Nat) (neg : Bool) : Ext :=
  match Fmt.ofCode f with
  | none => .nan
  | some fm => if neg = true then (timesScale (fm.val e) sc).negate else timesScale (fm.val e) sc
def elemInt (f e : Nat) (neg : Bool) : Int :=
  match Fmt.ofCode f with
  | none => 0
  | some fm => if neg = true then -(intOf fm e) else intOf fm e

/-- The exact sum of a block: NaN with a NaN or infinities of both signs, an infinity, or the sum, which is −0 when every product is (07 R203). -/
def blockSum (ps : List Ext) : Ext :=
  if .nan ∈ ps ∨ (.inf true ∈ ps ∧ .inf false ∈ ps) then .nan
  else if .inf true ∈ ps then .inf true
  else if .inf false ∈ ps then .inf false
  else
    let part (v : Ext) : Int := match v with
      | .fin n m _ => signedMag n m
      | _ => 0
    let t := (ps.map part).sum
    let cut := ps.any (fun v => match v with
      | .fin _ _ k => k
      | _ => false)
    if t = 0 then .fin (ps.all (fun v => v.isNeg && part v == 0)) 0 cut else .fin (decide (t < 0)) t.natAbs cut

/-- FP32 lane (i, j) of an m × n product after b of its blocks: with AD the first block's sum, else each sum added to the lane as FADD adds; s gives the
rounded block sums, and r the generator before the first call (07 R203). -/
def productLane (m n i j : Nat) (ad : Bool) (s : Nat → Nat) (r : Rnd) (l0 : Nat) : Nat → Nat
  | 0 => l0
  | b + 1 =>
    if ad = true ∧ b = 0 then s 0
    else (((r.ahead ((b - ad.toNat) * (m * n) + i * n + j)).call (.flt fp32)
      (Ext.add r.mode (fp32.decode (productLane m n i j ad s r l0 b)) (fp32.decode (s b)))).1)

/-- Lanes of a tile outside a region are as before (07 R201, R206). -/
def keepsOthers (t u : Tile) (rows cols : Nat) : Prop :=
  ∀ l, (∀ i < rows, ∀ j < cols, l ≠ 32 * i + j) → u.lane l = t.lane l

/-- An XI lane holds the integer that is congruent to x, its channels reduced and its reserved bits zero (04 R126 to R128). -/
def xiHolds (l : BitVec 40) (x : Int) : Prop :=
  (xiValue l - x) % 68719472640 = 0 ∧ l.toNat / 2 ^ 37 = 0 ∧ l.toNat % 2 ^ 12 < 4095 ∧ l.toNat / 2 ^ 24 < 4097

/-- M/2 and the integers of an XI lane (04 R127). -/
def clampXi (x : Int) : Int := max (-34359736320) (min 34359736319 x)

/-- A PMM or PMMG leaves in its tile the products of its operands (07 R202 to R204), whole or in two parts (R212). -/
def ProductsFillTiles : Prop :=
  ∀ (rows : List (Option Nat)) (na nb ad xi : Bool) (x y : BitVec 256) (f : BitVec 5) (p : PSrc) (t : Tile) (r : Rnd) (a b : Shape) (q : PressReq),
    q = .pmm rows na nb ad xi x y f → a = recOf x f → b = recOf y f → rows.length ≤ 32 → b.cols ≤ 32 → 1 ≤ a.cols →
    (∀ kb, (a.fmt, kb) ∈ [(11, 4), (12, 16), (13, 16), (14, 32), (15, 32), (16, 32), (1, 32), (2, 32), (6, 32), (7, 32)] →
      q.blocks = (a.cols + kb - 1) / kb ∧
      (xi = false → ∀ o, o = q.effect p 0 q.blocks t r →
        o.1.use = .fp32 ∧ o.1.pair = none ∧ keepsOthers t o.1 rows.length b.cols ∧
        o.2 = r.ahead (rows.length * b.cols * (q.blocks - ad.toNat)) ∧
        ∀ i < rows.length, ∀ j < b.cols, o.1.lane (32 * i + j) = BitVec.ofNat 40 (productLane rows.length b.cols i j ad (fun k =>
            fp32.round .rn 0 (blockSum ((List.range (min a.cols ((k + 1) * kb) - k * kb)).map (fun d =>
              Ext.mul (match (rows[i]?).join with
                | some n => elemReal a.fmt (p.elem a n (k * kb + d)) (ks24Val (p.scale a)) na
                | none => .fin na 0 false)
                (elemReal b.fmt (p.elem b (k * kb + d) j) (ks24Val (p.scale b)) nb)))))
          r ((t.lane (32 * i + j)).toNat % 2 ^ 32) q.blocks)) ∧
      (xi = true → kb = 32 → ∀ o, o = q.effect p 0 q.blocks t r →
        o.1.use = .xi ∧ keepsOthers t o.1 rows.length b.cols ∧ o.2 = r ∧
        o.1.pair = (if ad = true ∨ t.pair = none ∨ t.use = .fp32 ∨ t.pair = some (p.scale a, p.scale b) then some (p.scale a, p.scale b)
          else some (0xFF0000, 0xFF0000)) ∧
        ∀ i < rows.length, ∀ j < b.cols, xiHolds (o.1.lane (32 * i + j)) ((if ad = true then 0 else xiValue (t.lane (32 * i + j))) +
          ((List.range a.cols).map (fun d => (match (rows[i]?).join with
            | some n => elemInt a.fmt (p.elem a n d) na
            | none => 0) * elemInt b.fmt (p.elem b d j) nb)).sum))) ∧
    (∀ lo hi, lo ≤ q.blocks → hi ≤ q.blocks → lo ≤ hi →
      ∀ u v, u = q.effect p lo hi (q.effect p 0 lo t r).1 (q.effect p 0 lo t r).2 → v = q.effect p 0 hi t r →
        u.2 = v.2 ∧ u.1.use = v.1.use ∧ u.1.pair = v.1.pair ∧ ∀ l, u.1.lane l = v.1.lane l)

/-- PLDA fills its lanes by the class of its format, PZ clears the tile, and PCVT converts each lane with its own rounding (07 R206, R208). -/
def LoadsAndConversionsFillTiles : Prop :=
  (∀ (x : BitVec 256) (f : BitVec 5) (p : PSrc) (t : Tile) (r : Rnd) (c : Shape) (o : Tile × Rnd), c = recOf x f → c.rows ≤ 32 → c.cols ≤ 32 →
    o = (PressReq.plda x f).effect p 0 1 t r →
    keepsOthers t o.1 c.rows c.cols ∧
    (c.fmt = 18 → o.1.use = .xi ∧ o.1.pair = some (0x7F0000, 0x7F0000) ∧ o.2 = r ∧
      ∀ i < c.rows, ∀ j < c.cols, o.1.lane (32 * i + j) = BitVec.ofNat 40 (p.elem c i j % 2 ^ 37)) ∧
    (1 ≤ c.fmt → c.fmt ≤ 10 → o.1.use = .xi ∧ o.1.pair = some (p.scale c, 0x7F0000) ∧ o.2 = r ∧
      ∀ i < c.rows, ∀ j < c.cols, xiHolds (o.1.lane (32 * i + j)) (elemInt c.fmt (p.elem c i j) false)) ∧
    (11 ≤ c.fmt → c.fmt ≤ 16 → o.1.use = .fp32 ∧ o.1.pair = none ∧ o.2 = r.ahead (c.rows * c.cols) ∧
      ∀ i < c.rows, ∀ j < c.cols, o.1.lane (32 * i + j) = BitVec.ofNat 40
        ((r.ahead (i * c.cols + j)).call (.flt fp32) (elemReal c.fmt (p.elem c i j) (ks24Val (p.scale c)) false)).1)) ∧
  (∀ (p : PSrc) (t : Tile) (r : Rnd), (PressReq.pz).effect p 0 1 t r = (⟨[], .fp32, none⟩, r)) ∧
  (∀ (p : PSrc) (t : Tile) (r : Rnd) (o : Tile × Rnd),
    (o = (PressReq.pcvt true).effect p 0 1 t r →
      (t.use = .xi → o = (t, r)) ∧
      (t.use = .fp32 → o.1.use = .xi ∧ o.1.pair = some (0x7F0000, 0x7F0000) ∧ o.2 = r.ahead 1024 ∧
        ∀ i < 32, ∀ j < 32, xiHolds (o.1.lane (32 * i + j)) (clampXi (intOf (.int 64)
          ((r.ahead (32 * i + j)).call (.int 64) (fp32.decode ((t.lane (32 * i + j)).toNat % 2 ^ 32))).1)))) ∧
    (o = (PressReq.pcvt false).effect p 0 1 t r →
      (t.use = .fp32 → o = (t, r)) ∧
      (t.use = .xi → o.1.use = .fp32 ∧ o.1.pair = none ∧ o.2 = r.ahead 1024 ∧
        ∀ i < 32, ∀ j < 32, o.1.lane (32 * i + j) = BitVec.ofNat 40 ((r.ahead (32 * i + j)).call (.flt fp32)
          (timesScales (Ext.ofInt (xiValue (t.lane (32 * i + j)))) ((match t.pair with
            | none => [0x7F0000, 0x7F0000]
            | some s => [s.1, s.2]).map ks24Val))).1)))

/-- The value that PSTA writes for a lane in format f, with the generator before its call (07 R207). -/
def laneDrained (t : Tile) (f sd l : Nat) (r : Rnd) : Nat :=
  if f = 18 then (t.lane l).toNat
  else
    match Fmt.ofCode f with
    | none => 0
    | some fm => match t.use with
      | .fp32 => (r.call fm (timesScale (fp32.decode ((t.lane l).toNat % 2 ^ 32)) (ks24Val sd))).1
      | .xi => (r.call fm (timesScales (Ext.ofInt (xiValue (t.lane l))) (((match t.pair with
          | none => [0x7F0000, 0x7F0000]
          | some s => [s.1, s.2]) ++ [sd]).map ks24Val))).1

/-- PSTA writes each lane's value at its element, a later one standing where two share bytes, a 4-bit element its own nibble alone, and no other
byte; with AD the tile is then clear (07 R196, R207). -/
def DrainsWriteElements : Prop :=
  ∀ (x : BitVec 256) (f : BitVec 5) (ad : Bool) (p : PSrc) (t : Tile) (r : Rnd) (c : Shape) (w : Tab Byte) (o : Tile × Rnd), c = recOf x f →
    c.rows ≤ 32 → c.cols ≤ 32 → 1 ≤ c.fmt → c.fmt ≤ 18 → c.fmt ≠ 17 → w = (pstaWrites c t r p).1 → o = (PressReq.psta ad x f).effect p 0 1 t r →
    o = (if ad = true then ⟨[], .fp32, none⟩ else t, if c.fmt = 18 then r else r.ahead (c.rows * c.cols)) ∧
    ∀ (key val : Nat → Nat → Nat), (∀ i j, key i j = c.key p.core (c.place i j).1) →
      (∀ i j, val i j = laneDrained t c.fmt (p.scale c) (32 * i + j) (r.ahead (i * c.cols + j))) →
      (∀ k, (∀ i < c.rows, ∀ j < c.cols, k < key i j ∨ key i j + c.eb ≤ k) → tabGet w k = none) ∧
      (8 ≤ elemBits c.fmt → ∀ i < c.rows, ∀ j < c.cols, ∀ n < c.eb,
        (∀ i' < c.rows, ∀ j' < c.cols, i * c.cols + j < i' * c.cols + j' → key i j + n < key i' j' ∨ key i' j' + c.eb ≤ key i j + n) →
        tabGet w (key i j + n) = some (BitVec.ofNat 8 (val i j / 256 ^ n))) ∧
      (elemBits c.fmt = 4 →
        (∀ i < c.rows, ∀ j < c.cols, ∀ sh, sh = (c.place i j).2 →
          (∀ i' < c.rows, ∀ j' < c.cols, i * c.cols + j < i' * c.cols + j' → key i' j' = key i j → (c.place i' j').2 ≠ sh) →
          (tabGet w (key i j)).map (fun b => b.toNat / 2 ^ sh % 16) = some (val i j % 16)) ∧
        (∀ i < c.rows, ∀ j < c.cols, ∀ sh ∈ [0, 4],
          (∀ i' < c.rows, ∀ j' < c.cols, key i' j' = key i j → (c.place i' j').2 ≠ sh) →
          (tabGet w (key i j)).map (fun b => b.toNat / 2 ^ sh % 16) = some ((memRead p.spad (key i j)).toNat / 2 ^ sh % 16)))

/-- The address of a logical element: BASE + r × RSTRIDE + c × ESTRIDE × eb, low 32 bits, its storage position by TR; of a 4-bit format the byte of its
nibble, and the nibble's first bit (07 R196). -/
def ElementsStandAtTheirPlaces : Prop :=
  ∀ (c : Shape) (i j : Nat), ∀ u v, (u, v) = (if c.tr = true then (j, i) else (i, j)) →
    (8 ≤ elemBits c.fmt → c.place i j = (BitVec.ofInt 32 (c.base + u * c.rstride + v * c.estride * c.eb), 0)) ∧
    (elemBits c.fmt = 4 → c.place i j = (BitVec.ofInt 32 (c.base + u * c.rstride + (v / 2 : Nat)), 4 * (v % 2)))

/-! ## Values of the Watermark unit (08 R216, R219, R226 to R231) -/

/-- rn32(x × y + z), one rounding, and rn32(x + y) (08 R216). -/
def fused (x y z : Nat) : Nat := fp32.round .rn 0 (Ext.add .rn (Ext.mul (fp32.decode x) (fp32.decode y)) (fp32.decode z))
def added (x y : Nat) : Nat := fp32.round .rn 0 (Ext.add .rn (fp32.decode x) (fp32.decode y))

/-- q(n) = rn32(1/n) for n from 1 to 8 (08 R216). -/
def oneOver (n : Nat) : Nat :=
  [0, 0x3F800000, 0x3F000000, 0x3EAAAAAB, 0x3E800000, 0x3E4CCCCD, 0x3E2AAAAB, 0x3E124925, 0x3E000000].getD n 0

/-- The level-m coefficient x of S ⊗ exp(Δ) in Horner form: digits i1 to im of x in base d, of which the first t name S_t's (08 R227). -/
def hornerOf (d : Nat) (sig : Nat → Nat → Nat) (delta : Nat → Nat) (m x : Nat) : Nat :=
  (List.range m).foldl (fun u t =>
    fused (fp32.round .rn 0 (Ext.mul (fp32.decode (delta (x / d ^ (m - (t + 1)) % d))) (fp32.decode (oneOver (m - t))))) u
      (sig (t + 1) (x / d ^ (m - (t + 1))))) 0x3F800000

/-- The signature after n increments (08 R227). -/
def extended (d : Nat) (sig : Nat → Nat → Nat) (delta : Nat → Nat → Nat) : Nat → Nat → Nat → Nat
  | 0 => sig
  | n + 1 => hornerOf d (extended d sig delta n) (delta n)

/-- The level-m coefficient x of A ⊗ B (08 R229). -/
def joined (d : Nat) (a b : Nat → Nat → Nat) (m x : Nat) : Nat :=
  added (a m x) ((List.range (m - 1)).foldl (fun v j =>
    fused (a (j + 1) (x / d ^ (m - (j + 1)))) (b (m - (j + 1)) (x % d ^ (m - (j + 1)))) v) (b m x))

/-- T ⊗ Y at level m with Y's level 0 given, each product negated or not, from +0 on (08 R230). -/
def nested (d : Nat) (neg : Bool) (t y : Nat → Nat → Nat) (y0 m x : Nat) : Nat :=
  (List.range m).foldl (fun acc j =>
    let p := Ext.mul (fp32.decode (t (j + 1) (x / d ^ (m - (j + 1)))))
      (fp32.decode (if j + 1 = m then y0 else y (m - (j + 1)) (x % d ^ (m - (j + 1)))))
    fp32.round .rn 0 (Ext.add .rn (if neg = true then p.negate else p) (fp32.decode acc))) 0

/-- Levels 1 and up of P(k − r): P(k) is q(k) alone, and P(n) = q(n) − T ⊗ P(n + 1) (08 R230). -/
def nestOf (d k : Nat) (t : Nat → Nat → Nat) : Nat → Nat → Nat → Nat
  | 0 => fun _ _ => 0
  | r + 1 => nested d true t (nestOf d k t r) (oneOver (k - r))

/-- Coefficients of the levels below m, the offset of a coefficient in a frame, and the coefficients that a frame holds (08 R219). -/
def coeffsBelow (d m : Nat) : Nat := ((List.range (m - 1)).map (fun j => d ^ (j + 1))).sum
def coeffAt (g : Sig) (base m x : Nat) : Nat := base + 4 * (coeffsBelow g.d m + x - (if m = g.lvl then g.row0 * g.d else 0))
def heldIn (g : Sig) (m x : Nat) : Prop :=
  1 ≤ m ∧ (m < g.lvl ∧ x < g.d ^ m ∨ m = g.lvl ∧ g.row0 * g.d ≤ x ∧ x < (g.row0 + g.rcnt) * g.d)

/-- An operation writes v into the word at an offset of its core's scratchpad. -/
def wroteWord (op : WmOp) (core o v : Nat) : Prop := ∀ i < 4, tabGet op.writes (spadKey core (o + i)) = some (BitVec.ofNat 8 (v / 256 ^ i))

/-- An operation writes a value into each coefficient of a frame, and no byte outside the frame but in a work area of n coefficients (08 R230). -/
def wroteFrame (op : WmOp) (core : Nat) (g : Sig) (base : Nat) (val : Nat → Nat → Nat) (work n : Nat) : Prop :=
  (∀ m x, heldIn g m x → wroteWord op core (coeffAt g base m x) (val m x)) ∧
  (∀ k, tabGet op.writes k ≠ none → (∃ o, k = spadKey core o ∧ (work ≤ o ∧ o < work + 4 * n ∨
    ∃ m x, heldIn g m x ∧ coeffAt g base m x ≤ o ∧ o < coeffAt g base m x + 4)))

/-- A word of a core's own scratchpad as a frame's coefficient. -/
def State.coeffOf (s : State) (g : Sig) (base m x : Nat) : Nat := leNat (memBytes s.spad (spadKey s.curCore (coeffAt g base m x)) 4)

/-- What an accepted Watermark instruction will write, and the coefficient that WMRD answers; a poisoned word makes WMRD's answer NaN
(08 R226 to R231, R235). -/
def WatermarkValues : Prop :=
  ∀ (s : State) (th : Thread) (d a b : Code) (x y : Word) (p q : Pend) (op : WmOp) (n : Nat) (g : Sig) (base : Nat),
    g = Sig.of th.sigd → base = th.frb.toNat → s.read a noPend = .ok (x, p) → s.read b p = .ok (y, q) →
    (op.err = none →
      (wmAnsOf .wmz th s = .ok op n → wroteFrame op s.curCore g base (fun _ _ => 0) 0 0) ∧
      (wmAnsOf (.wmst a b) th s = .ok op n → (y = 0 → op.writes = []) ∧
        (y ≠ 0 → wroteFrame op s.curCore g base (extended g.d (s.coeffOf g base)
          (fun i j => leNat (memBytes s.spad (spadKey s.curCore (wordField x 0 18 + 4 * (g.d * i + j))) 4)) y.toNat) 0 0)) ∧
      (wmAnsOf (.wmsn a) th s = .ok op n → ∀ val, (∀ m u v, v < g.d ^ m → (∀ t < m, v / g.d ^ t % g.d = u / g.d ^ (m - (t + 1)) % g.d) →
          ∀ z, z = s.coeffOf g (wordField x 0 18) m v →
            val m u = (if fp32.decode z = .nan then 0x7FC00000 else if m % 2 = 1 then (z + 2 ^ 31) % 2 ^ 32 else z)) →
        wroteFrame op s.curCore g base val 0 0) ∧
      (wmAnsOf (.wmjn a b) th s = .ok op n →
        wroteFrame op s.curCore g base (joined g.d (s.coeffOf g (wordField x 0 18)) (s.coeffOf g (wordField y 0 18))) 0 0) ∧
      (wmAnsOf (.wmlg a b) th s = .ok op n → ∀ p1, p1 = nestOf g.d g.lvl (s.coeffOf g (wordField x 0 18)) (g.lvl - 1) →
        wroteFrame op s.curCore g base (nested g.d false (s.coeffOf g (wordField x 0 18)) p1 0x3F800000) (wordField y 0 18)
          (if g.lvl = 1 then 0 else coeffsBelow g.d g.lvl) ∧
        ∀ m v, 1 ≤ m → m < g.lvl → v < g.d ^ m → wroteWord op s.curCore (wordField y 0 18 + 4 * (coeffsBelow g.d m + v)) (p1 m v)) ∧
      (wmAnsOf (.wmrd d a) th s = .ok op n → ∀ m, m = wordField x 56 8 → 1 ≤ m → heldIn g m (wordField x 0 56) ∧ op.writes = [] ∧
        ∀ z, z = s.coeffOf g base m (wordField x 0 56) →
          op.dest = some (d, BitVec.ofNat 64 (if fp32.decode z = .nan then 0x7FC00000 else z)))) ∧
    (wmAnsOf (.wmrd d a) th s = .ok op n → ∀ o, op.err = some o →
      o = coeffAt g base (wordField x 56 8) (wordField x 0 56) ∧ op.dest = some (d, 0x7FC00000) ∧ op.writes = [])

/-! ## Codes, formats and operands of the instructions (01 R14, 03 R77, 06 R168) -/

/-- A coded form: the instruction, whether its codes are legal, whether it accepts its effective format, and the operands that it reads, in order:
by the vector scheme (true) or the scalar one. -/
structure Coded where
  instr   : Instr
  legal   : Bool
  accepts : Bool
  reads   : List (Bool × Code)

/-- The first of some operands that is not there yet makes its reader wait for this (01 R14). -/
def State.lacks (s : State) : List (Bool × Code) → Pend → Why → Prop
  | [], _, _ => False
  | (true, c) :: r, p, w => s.readVec c p = .error w ∨ ∃ v q, s.readVec c p = .ok (v, q) ∧ s.lacks r q w
  | (false, c) :: r, p, w => s.read c p = .error w ∨ ∃ x q, s.read c p = .ok (x, q) ∧ s.lacks r q w

/-- Forms whose format is fixed by their encoding. -/
def Coded.plain (i : Instr) (legal : Bool) (reads : List (Bool × Code)) : Coded := ⟨i, legal, true, reads⟩

/-- The operands of an address: a, and b unless it is 63 under LEN 0b10 (03 R77). -/
def addrReads (a b : Code) : List (Bool × Code) := (false, a) :: (if b = 63 then [] else [(false, b)])

/-- Legal codes of an address under LEN 0b00 and LEN 0b10. -/
def addrLegal (x : Bool) (a b : Code) : Bool := legalSrc a && (legalSrc b || (x && decide (b = 63)))

/-- The integer instructions (05 R130 to R137). -/
def codedIntegers (d a b : Code) (imm : BitVec 12) (lit : Word) (n : BitVec 6) (m : BitVec 7) (pos len : BitVec 6) : List Coded :=
  (binaries ++ setcs).map (fun e => .plain (e.1 d a b) (legalDst d && legalSrc a && legalSrc b) [(false, a), (false, b)]) ++
  (unaries imm lit n m pos len).map (fun e => .plain (e.2.1 d a) (legalDst d && legalSrc a) [(false, a)]) ++ [
  .plain (.sel d a b) (legalBoth d && legalSrc a && legalSrc b) [(false, a), (false, b), (false, d)],
  .plain (.bfi d a pos len) (legalBoth d && legalSrc a) [(false, a), (false, d)],
  .plain (.movi d imm) (legalDst d) [], .plain (.moviLit d lit) (legalDst d) []]

/-- Control transfer, SPAWN, gangs, PARK and copies (05 R138 to R150, 11 R272 to R279). -/
def codedControl (d a b : Code) (c : Cond) (d8 : BitVec 8) (d32 : Word32) : List Coded := [
  .plain (.bc c a b d8) (legalSrc a && legalSrc b) [(false, a), (false, b)],
  .plain (.b c a b d32) (legalSrc a && legalSrc b) [(false, a), (false, b)],
  .plain (.loop a d8) (decide (a.toNat < 32)) [(false, a)], .plain (.ret a) (legalSrc a) [(false, a)],
  .plain (.jmpt a b) (legalSrc a && legalSrc b) [(false, a), (false, b)],
  .plain (.spawn d a b) (legalDst d && legalSrc a && legalSrc b) [(false, a), (false, b)],
  .plain (.gang a) (legalSrc a) [(false, a)], .plain (.park a b) (legalSrc a && legalSrc b) [(false, a), (false, b)],
  .plain (.cpy a b) (legalSrc a && legalSrc b) [(false, a), (false, b)], .plain (.exch a) (legalSrc a) [(false, a)]]

/-- Scalar floating point (06 R173 to R177). -/
def codedFloats (d a b c : Code) (p : FPred) (fmto fmtd : BitVec 5) : List Coded :=
  (floatBinaries p).flatMap (fun e => [e.1 d a b, e.2.1 d a b fmto].map (fun i =>
    .plain i (legalDst d && legalSrc a && legalSrc b) [(false, a), (false, b)])) ++
  floatUnaries.flatMap (fun e => [e.1 d a, e.2.1 d a fmto].map (fun i => .plain i (legalDst d && legalSrc a) [(false, a)])) ++ [
  .plain (.ffma d a b c fmto) (legalDst d && legalSrc a && legalSrc b && legalSrc c) [(false, a), (false, b), (false, c)],
  .plain (.fcvt d a fmto fmtd) (legalDst d && legalSrc a) [(false, a)]]

/-- Vector instructions that name a format (06 R178 to R191). -/
def codedVectors (th : Thread) (d a b c : Code) (lit : Word) (vx : VX) (pr : VPred) (fd : BitVec 5) : List Coded :=
  let e0 := effective th 0
  let e1 := effective th vx.fmto
  let da := legalVDst d && legalVSrc a
  let dab := da && legalVSrc b
  let va : Bool × Code := (true, a)
  let vb : Bool × Code := (true, b)
  let sa : Bool × Code := (false, a)
  let sb : Bool × Code := (false, b)
  vectorUnaries.flatMap (fun e => [⟨e.1 d a, da, e.2.2.1 e0, [va]⟩, ⟨e.2.1 d a vx, da, e.2.2.1 e1, [va]⟩]) ++
  vectorReductions.flatMap (fun e => [⟨e.1 d a, da, e.2.2.1 e0, [va]⟩, ⟨e.2.1 d a vx, da, e.2.2.1 e1, [va]⟩]) ++
  vectorBinaries.flatMap (fun e => [⟨e.1 d a b, dab, e.2.2.2.1 e0, [va, vb]⟩, ⟨e.2.1 d a b vx, dab, e.2.2.2.1 e1, [va, vb]⟩,
    ⟨e.2.2.1 d a lit vx, da, e.2.2.2.1 e1, [va]⟩]) ++
  [⟨.vfma d a b c vx, dab && legalVSrc c, anyFmtOk e1, [va, vb, (true, c)]⟩, ⟨.vfmaLit d a lit c vx, da && legalVSrc c, anyFmtOk e1, [va, (true, c)]⟩,
    ⟨.vscl d a b, da && legalSrc b, anyFmtOk e0, [va, sb]⟩, ⟨.vsclX d a b vx, da && legalSrc b, anyFmtOk e1, [va, sb]⟩,
    ⟨.vsclLit d a lit vx, da, anyFmtOk e1, [va]⟩, ⟨.vcvt d a vx fd, da, anyFmtOk e1, [va]⟩,
    ⟨.vcmp pr d a b, legalNum d && legalVSrc a && legalVSrc b, wideFmtOk e0, [va, vb]⟩,
    ⟨.vcmpX pr d a b vx, legalNum d && legalVSrc a && legalVSrc b, wideFmtOk e1, [va, vb]⟩,
    ⟨.vcmpLit pr d a lit vx, legalNum d && legalVSrc a, wideFmtOk e1, [va]⟩,
    ⟨.vsel d a b vx, dab, anyFmtOk e1, [va, vb]⟩, ⟨.vselLit d a lit vx, da, anyFmtOk e1, [va]⟩,
    ⟨.vprm d a b, dab, wideFmtOk e0, [va, vb]⟩, ⟨.vprmX d a b vx, dab, wideFmtOk e1, [va, vb]⟩, ⟨.vprmLit d a lit vx, da, wideFmtOk e1, [va]⟩,
    ⟨.vbrd d a, legalVDst d && legalSrc a, anyFmtOk e0, [sa]⟩, ⟨.vbrdX d a vx, legalVDst d && legalSrc a, anyFmtOk e1, [sa]⟩,
    ⟨.viot d, legalVDst d, anyFmtOk e0, []⟩, ⟨.viotX d vx, legalVDst d, anyFmtOk e1, []⟩,
    ⟨.vpck d a b vx fd, dab, anyFmtOk e1 && packOk e1 fd.toNat, [va, vb]⟩,
    ⟨.vupk d a b vx fd, da && legalSrc b, anyFmtOk e1 && unpackOk e1 fd.toNat, [va, sb]⟩,
    ⟨.vins d a b, legalVBoth d && legalSrc a && legalSrc b, anyFmtOk e0, [sa, sb, (true, d)]⟩,
    ⟨.vinsX d a b vx.fmto, legalVBoth d && legalSrc a && legalSrc b, anyFmtOk e1, [sa, sb, (true, d)]⟩,
    ⟨.vext d a b, legalDst d && legalVSrc a && legalSrc b, anyFmtOk e0, [va, sb]⟩,
    ⟨.vextX d a b vx.fmto, legalDst d && legalVSrc a && legalSrc b, anyFmtOk e1, [va, sb]⟩]

/-- Vector instructions without a format (06 R179, R185, R191). -/
def codedBits (d a b : Code) (lit : Word) (vx : VX) : List Coded :=
  vectorBitwise.flatMap (fun e => [.plain (e.1 d a b) (legalVDst d && legalVSrc a && legalVSrc b) [(true, a), (true, b)],
    .plain (e.2.1 d a b vx) (legalVDst d && legalVSrc a && legalVSrc b) [(true, a), (true, b)],
    .plain (e.2.2.1 d a lit vx) (legalVDst d && legalVSrc a) [(true, a)]]) ++
  [.plain (.vmv d a) (legalVDst d && legalVSrc a) [(true, a)], .plain (.vmvX d a vx) (legalVDst d && legalVSrc a) [(true, a)],
    .plain (.mand d a b) (legalNum d && legalNum a && legalNum b) [], .plain (.mor d a b) (legalNum d && legalNum a && legalNum b) [],
    .plain (.mnot d a) (legalNum d && legalNum a) []]

/-- Scratchpad, Ream and global accesses and the atomics (05 R158 to R164, 11 R264 to R270). -/
def codedMemory (d a b : Code) (w : LoadWidth) (sw : StoreWidth) (off : BitVec 12) (ox : OX) (me : Bool) (msk : BitVec 3) : List Coded :=
  let vl := decide (d.toNat < 16) || isLq d
  let vs := legalVSrc d || isSq d
  let vd := if isSq d = true then [] else [(true, d)]
  let sd : List (Bool × Code) := [(false, d)]
  [(false, Instr.ld w d a b, legalDst d, []), (true, .ldX w d a b off, legalDst d, []), (false, .st sw d a b, legalSrc d, sd),
    (true, .stX sw d a b off, legalSrc d, sd), (false, .ldq w d a b, isLq d, []), (true, .ldqX w d a b off, isLq d, []),
    (false, .stq sw d a b, isSq d, []), (true, .stqX sw d a b off, isSq d, []), (false, .vld d a b, vl, []),
    (true, .vldX d a b off me msk, vl, []), (false, .vst d a b, vs, vd), (true, .vstX d a b off me msk, vs, vd),
    (false, .ldw d a b, legalDst d, []), (true, .ldwX d a b off, legalDst d, []), (false, .ldg w d a b, legalDst d, []),
    (true, .ldgX w d a b off ox, legalDst d, []), (false, .stg sw d a b, legalSrc d, sd), (true, .stgX sw d a b off ox, legalSrc d, sd),
    (false, .vldg d a b, vl, []), (true, .vldgX d a b off ox me msk, vl, []), (false, .vstg d a b, vs, vd),
    (true, .vstgX d a b off ox me msk, vs, vd), (false, .pref a b, true, []), (true, .prefX a b off, true, []),
    (false, .flsh a b, true, []), (true, .flshX a b off, true, [])].map (fun e =>
      .plain e.2.1 (e.2.2.1 && addrLegal e.1 a b) ((if e.1 = true then addrReads a b else [(false, a), (false, b)]) ++ e.2.2.2)) ++
  [(Instr.ldImm d a off, legalDst d, []), (.stImm d a off, legalSrc d, sd), (.ldgImm d a off, legalDst d, []), (.stgImm d a off, legalSrc d, sd)].map
    (fun e => .plain e.1 (e.2.1 && legalSrc a) ((false, a) :: e.2.2)) ++
  atomics.flatMap (fun e => [e.2.2.1 d a b, e.2.2.2 d a b off ox].map (fun i =>
    .plain i ((if e.1 = .cas then legalBoth d else legalDst d) && legalSrc a && legalSrc b)
      ([(false, a), (false, b)] ++ (if e.1 = .cas then [(false, d)] else []))))

/-- The Watermark instructions (08 R222, R223). -/
def codedWatermark (d a b : Code) : List Coded := [
  .plain (.wmcf d a b) (legalDst d && legalSrc a && legalSrc b) [(false, a), (false, b)],
  .plain (.wmst a b) (legalSrc a && legalSrc b) [(false, a), (false, b)], .plain (.wmsn a) (legalSrc a) [(false, a)],
  .plain (.wmjn a b) (legalSrc a && legalSrc b) [(false, a), (false, b)], .plain (.wmlg a b) (legalSrc a && legalSrc b) [(false, a), (false, b)],
  .plain (.wmrd d a) (legalDst d && legalSrc a) [(false, a)]]

/-! ## Steps of the device -/

/-- Every step on the agenda is one of the device, not an instruction of a thread. -/
def State.DeviceAgenda (s : State) : Prop := ∀ e ∈ s.agenda, encode e.2 = []

/-- In t step i is on the agenda, later than now in s and within `bound` ck. -/
def Soon (s t : State) (bound : Nat) (i : Instr) : Prop := ∃ ck, s.clk < ck ∧ ck ≤ s.clk + bound ∧ (ck, i) ∈ t.agenda

/-- Transit bound of a fault record: within 40,000 ck to a peer, and to an own mill role within 2,000 (17 R366). -/
def State.recordBound (s : State) (vd : Fin 8) : Nat := if (s.vd vd).fsid[11] = true then 40000 else 2000

/-- A fault record of a kind is on its way to the server of virtual device vd: within its bound, or with a record of the same core and ck that is on
its way already (17 R365, R366). -/
def Reported (s t : State) (rkind : Nat) (vd : Fin 8) : Prop :=
  ∃ r ck, r.rkind = rkind ∧ r.vd = vd ∧ (ck, .faultRecord r) ∈ t.agenda ∧ s.clk < ck ∧
    (ck ≤ s.clk + s.recordBound vd ∨ ∃ q, (ck, .faultRecord q) ∈ s.agenda ∧ q.vd = vd ∧ q.clk = s.clk)

/-- From s to t virtual device vd alone has changed. -/
def OnlyVd (s t : State) (vd : Fin 8) : Prop := { t with vds := s.vds } = s ∧ ∀ v, v ≠ vd → t.vd v = s.vd v

/-- The same, and of the virtual device queue q alone. -/
def OnlyQueue (s t : State) (vd : Fin 8) (q : Fin 64) (x : Queue) : Prop :=
  OnlyVd s t vd ∧ t.queue vd q = x ∧ (∀ j, j ≠ q → t.queue vd j = s.queue vd j) ∧ { t.vd vd with queues := (s.vd vd).queues } = s.vd vd

/-- Every other enabled virtual device has a property, and the sum of a quota over them and the one that is to be formed (16 R338). -/
abbrev Others (s : State) (vd : Fin 8) (f : Vd → Prop) : Prop := ∀ w, w ≠ vd → (s.vd w).en = true → f (s.vd w)
def quotaSum (s : State) (vd : Fin 8) (f : Vd → Nat) : Nat :=
  ((List.range 8).map (fun i => if Fin.ofNat 8 i = vd ∨ (s.vd (Fin.ofNat 8 i)).en = true then f (s.vd (Fin.ofNat 8 i)) else 0)).sum

/-- Check k of R338 passes for a virtual device that is to be formed: its quire, no core, channel or way of another enabled one, a slot of the
calender, stage 2 within its channels, and the sums of the quotas. -/
def FormPasses (s : State) (vd : Fin 8) (k : Nat) : Prop :=
  match k with
  | 1 => 1 ≤ (s.vd vd).qlen ∧ (s.vd vd).qbase + (s.vd vd).qlen ≤ 4096
  | 2 => Others s vd (fun w => (s.vd vd).qbase + (s.vd vd).qlen ≤ w.qbase ∨ w.qbase + w.qlen ≤ (s.vd vd).qbase)
  | 3 => 8 ≤ (s.vd vd).channels.length ∧ Others s vd (fun w => w.chmask &&& (s.vd vd).chmask = 0)
  | 4 => (s.vd vd).vways ≠ 0 ∧ Others s vd (fun w => w.vways &&& (s.vd vd).vways = 0)
  | 5 => vd.val ∈ s.cal.toList
  | 6 => 1 ≤ (s.vd vd).s2lim ∧ (s.vd vd).s2base + (s.vd vd).s2lim ≤ 98304 * (s.vd vd).channels.length
  | 7 => quotaSum s vd (·.dsq) ≤ 32 ∧ quotaSum s vd (·.walkq) ≤ 16 ∧ quotaSum s vd (·.tlbq) ≤ 32
  | _ => True

/-- One replay of a mould starts, in order after those before it: a node of each of the mould's nodes and copy nodes, with the argument blocks that a
patch table makes, and the queue past its packet (13 R305 to R307). -/
def ReplayStarts (s t : State) (vd : Fin 8) (q : Fin 64) (mh : Word32) (l : Loaded) (ps : List Patch) (words : Nat) : Prop :=
  (t.vd vd).pulls = (s.vd vd).pulls + 1 ∧ t.queue vd q = (s.packetDone vd q words).queue vd q ∧
  (∀ i d, l.body.nodes[i]? = some d → ∃ m, tabGet t.nodes (s.nextId + i) = some m ∧ m.vd = vd ∧ m.ctx = s.ctxOf vd q ∧ m.index = i ∧
    m.mould = mh.toNat % 64 ∧ m.age = (s.vd vd).pulls ∧ m.queue = q.val ∧ m.desc = d ∧ m.args = mouldArgs l.body i d ps ∧
    m.copy = none ∧ m.hLo = d.hLo ∧ m.hHi = d.hHi ∧ m.count = d.preds.length ∧ m.st = (if d.preds = [] then .ready else .pending)) ∧
  (∀ i c, l.body.copies[i]? = some c → ∃ m, tabGet t.nodes (s.nextId + l.body.nodes.length + i) = some m ∧ m.copy = some c.desc ∧
    m.index = l.body.nodes.length + i ∧ m.desc.prio = l.body.prio ∧ m.count = c.preds.length ∧ m.st = (if c.preds = [] then .ready else .pending))

/-- From s to u a number has been stored little-endian at places, as a store that wakes the threads parked on them; else only caches have moved. -/
def Packed (s : State) (ls : List Loc) (x : Nat) (u : State) : Prop := CachesOnly (s.storeLocs (ls.zip (leBytes ls.length x))) u

/-- What SIGNAL and WRITE-SIGNAL leave in their word (13 R299). -/
def signalSpec (op : SignalOp) (old : Nat) (val : Word) : Nat :=
  match op with
  | .set => val.toNat
  | .add => (old + val.toNat) % 2 ^ 64

/-- The conditions of WAIT-VALUE (13 R299). -/
def waitSpec (cmp : WaitCmp) (x val : Word) : Prop :=
  match cmp with
  | .eq => x.toNat = val.toNat
  | .ne => x.toNat ≠ val.toNat
  | .geu => val.toNat ≤ x.toNat
  | .ltu => x.toNat < val.toNat

/-- Bits 31:0 and 63:32 of a packet's 64-bit value. -/
def lowHigh (x : Word) : List Word32 := [x.extractLsb' 0 32, x.extractLsb' 32 32]

/-- Packets of format v2: their words and the v3 packet that they are (13 R302). -/
def v2Packets (vd : Fin 8) (q : Fin 64) (a v m : Word) (n : Nat) (data : List Word32) : List (List Word32 × Instr) := [
  (BitVec.ofNat 32 (0x10000002 + 4096 * (3 + data.length)) :: (lowHigh a ++ data), .write vd q a data),
  ((0x20006002 : Word32) :: (lowHigh a ++ [0] ++ lowHigh v), .signal vd q a .set v),
  ((0x20006002 : Word32) :: (lowHigh a ++ [1] ++ lowHigh v), .signal vd q a .add v),
  ((0x30008002 : Word32) :: (lowHigh a ++ [2] ++ lowHigh v ++ lowHigh m), .waitValue vd q a .geu v m),
  ((0x40004002 : Word32) :: (lowHigh a ++ [BitVec.ofNat 32 n]), .indirect vd q a n),
  ((0x50003002 : Word32) :: lowHigh a, .timestamp vd q a),
  ([(0x60001002 : Word32)], .fencePacket vd q)]

/-- A field of a register write (01 R33): the new value where it is listed, else the old one. -/
def takes (listed : Nat → Bool) (new old : Nat) : Nat := if listed new = true then new else old

/-- QCTL (13 R296). -/
def Queue.afterCtl (x : Queue) (val : Word) : Queue :=
  { x with
    en := val[8]
    pri := wordField val 6 2
    size := if x.en = true then x.size else takes (fun n => decide (12 ≤ n ∧ n ≤ 24)) (wordField val 0 5) x.size }

/-- Registers of the configuration block that EN protects, by offset, after a write (16 R336). -/
def Vd.afterBlock (v : Vd) (val : Word) : List (Nat × Vd) := [
  (0x008, { v with qbase := wordField val 0 12 }),
  (0x010, { v with qlen := takes (fun n => decide (1 ≤ n ∧ n ≤ 4096)) (wordField val 0 13) v.qlen }),
  (0x018, { v with chmask := val }),
  (0x020, { v with reamk := takes (fun n => decide (n ≤ 8)) (wordField val 0 4) v.reamk }),
  (0x028, { v with vways := val.extractLsb' 0 16 }),
  (0x030, { v with s2base := wordField val 0 24 }),
  (0x038, { v with s2lim := wordField val 0 24 })]

/-- The ladder's timers after a write (13 R325). -/
def Vd.afterTimer (v : Vd) (val : Word) : List (Nat × Vd) := [
  (0x00, { v with grace := wordField val 0 32 }), (0x08, { v with dgrace := wordField val 0 32 }),
  (0x10, { v with killt := takes (fun n => decide (n ≠ 0)) (wordField val 0 32) v.killt })]

end

end Sys2Proof.Machine
end

