-- ==== Sys2Proof/Certificates/Slice0/Obligations.lean ====
section
/-!
DEFINITION. The statements about the model. Hypotheses speak of the state and the operands alone; what counts as an operand's value is
`State.read` and `State.readVec` (01 R14, 03 R77), stated by their own obligations.
-/

section

open Sys2Proof Sys2Proof.Machine

/-! ## Encoding, fetching, stepping -/

/-- Words that chapters 03, 05 and 11 write out decode to the instructions that they stand for. -/
def Obligations.WordsOfTheSpecDecode : Prop :=
  decodeWords [0x00614500] = .ok (.add 5 5 6) ∧
  decodeWords [0x00308118] = .ok (.shlImm 1 2 3) ∧
  decodeWords [0x41008118] = .ok (.sext 1 2 16) ∧
  decodeWords [0x2030811C] = .ok (.bfx 1 2 8 3) ∧
  decodeWords [0x74308100] = .ok (.lea8 1 2 3) ∧
  decodeWords [0xFCF00428] = .ok (.loop 4 0xFC) ∧
  decodeWords [0x0007C034] = .ok (.ret 31) ∧
  decodeWords [0xFFFF01F4] = .ok (.lpad 0xFFFF) ∧
  decodeWords [0x0102424C] = .ok (.ldgImm 2 9 16) ∧
  decodeWords [0x03F2C256, 0, 0xD0] = .ok (.ldgX .w64 2 11 63 0 ⟨.acquire, .quire⟩) ∧
  decodeWords [0x60628554] = .ok (.amadd 5 10 6) ∧
  decodeWords [0x10004362, 0x00000002, 0x00000005] = .ok (.bcst 3 1 0 2 5)

/-- Decoding reads back every field of every instruction: the bytes of its words, whatever follows them, decode to it. -/
def Obligations.DecodeReadsBackEncode : Prop :=
  ∀ (i : Instr) (rest : List Byte), i.wf = true → decodeBytes ((encode i).flatMap Sys2Proof.wordBytes ++ rest) = .ok i

/-- The decoder gives well-formed instructions alone: no reserved encoding falls through to an instruction. -/
def Obligations.DecodedInstructionsAreWellFormed : Prop :=
  ∀ (w y1 y2 y3 y4 : Word32) (i : Instr), decode w y1 y2 y3 y4 = .ok i → i.wf = true

/-- A thread at an aligned pc whose code words are those of a well-formed instruction fetches that instruction. -/
def Obligations.FetchReadsTheInstructionAtThePc : Prop :=
  ∀ (s : State) (th : Thread) (i : Instr), i.wf = true → th.pc.toNat % 4 = 0 →
    (∀ k w, (encode i)[k]? = some w → s.fetchWord th (th.pc + BitVec.ofNat 64 (4 * k)) = .ok w) → s.fetch th = .ok i

/-- With no step of the device due, the first thread that may be steered, alone and Ready, runs the instruction that its pc decodes to: the step is
`exec` of it in the state in which the thread's slot is the current one and has had its core's turn, with its line and its page in the core's L1
instruction cache and TLBs. A step of the device that is due runs first,
and leaves the agenda. A fetch that fails traps at the instruction by its kind, with the pc as the address of all but the illegal instruction.
The order of steps and threads within a ck is the model's choice (log 3), and the kinds of a failing fetch are read as log 7 says. -/
def Obligations.StepRunsTheDecodedInstruction : Prop :=
  (∀ (s : State) (c t : Nat) (rest : List (Nat × Nat)) (th : Thread) (i : Instr),
      s.dueStep = none → s.devSt ≠ .stopped → s.candidates = (c, t) :: rest → s.thread c t = some th → th.run = .ready →
      th.gang = .none → (s.steered c t).fetch th = .ok i →
      step s = exec i (s.steered c t) ∧ (s.steered c t).cur = some th ∧ (s.steered c t).turn = c + 1 ∧
        { s.steered c t with turn := s.turn, curCore := s.curCore, curSlot := s.curSlot, cores := s.cores, tlb := s.tlb, fresh := s.fresh } = s ∧
        (∀ k, k ≠ c → (s.steered c t).core k = s.core k) ∧
        ((s.steered c t).core c).lastSlot = t ∧
        { (s.steered c t).core c with lastSlot := (s.core c).lastSlot, yielded := (s.core c).yielded, l1i := (s.core c).l1i } = s.core c) ∧
  (∀ (s : State) (i : Instr) (rest : List (Nat × Instr)) (ck : Nat),
      s.agenda = (ck, i) :: rest → ck ≤ s.clk → s.devSt ≠ .stopped → step s = exec i { s with agenda := rest }) ∧
  (∀ (s : State) (c t : Nat) (rest : List (Nat × Nat)) (th : Thread) (e : Nat) (k : Trap),
      s.dueStep = none → s.devSt ≠ .stopped → s.candidates = (c, t) :: rest → s.thread c t = some th → th.run = .ready →
      th.gang = .none → (s.steered c t).fetch th = .error e →
      (e, k) ∈ [(1, Trap.illegalInstruction), (4, .addressFault), (5, .misaligned), (6, .translation), (7, .permission), (8, .dataError)] →
      step s = .next (if e = 1 then (s.steered c t).trapCur k 0 0 else ((s.steered c t).trapCur k 0 th.pc).atCode c t))

/-- No step stops the machine: from every state whose agenda holds steps of the device alone there is a next one, and so is its agenda. -/
def Obligations.EveryStepHasANextState : Prop := ∀ s : State, s.DeviceAgenda → ∃ t, step s = .next t ∧ t.DeviceAgenda

/-- The registers and memories after reset that the spec gives values for, and no thread, node, operation or pending step.
That an unlisted byte reads 0 before bring-up (log 1) and that the agenda is empty (log 3) are the model's choices. -/
def Obligations.ResetState : Prop :=
  State.reset.clk = 0 ∧ State.reset.devSt = .booting ∧ State.reset.devReady = false ∧ State.reset.msglim = 16 ∧
  (∀ r, (tabGet State.reset.fw r).getD FwCfg.reset = ⟨0x38, false⟩) ∧
  (∀ i : Fin 64, State.reset.cal[i] = 15) ∧
  (∀ v : Fin 8, State.reset.vds[v].en = false ∧ State.reset.vds[v].invDone = true ∧ State.reset.vds[v].grace = 800000 ∧
    State.reset.vds[v].killt = 8000000 ∧ State.reset.vds[v].queues[0].size = 12 ∧ State.reset.vds[v].cls[0] = 0xFFFF22) ∧
  (∀ c t, State.reset.thread c t = none) ∧ State.reset.nodes = [] ∧ State.reset.ops = [] ∧ State.reset.agenda = [] ∧
  (∀ a, memRead State.reset.spad a = 0 ∧ memRead State.reset.ream a = 0 ∧ memRead State.reset.dram a = 0)

/-- The memories are in their canonical form after reset, and the agenda holds steps of the device alone. -/
def Obligations.ResetIsCanonical : Prop := State.reset.Canonical ∧ State.reset.DeviceAgenda

/-- Every step keeps the memories in their canonical form. -/
def Obligations.StepKeepsCanonicalMemory : Prop :=
  ∀ s t : State, s.Canonical → step s = .next t → t.Canonical

/-! ## Operands -/

/-- Read: codes 0 to 31 the w register, 32 to 35 the entry at the queue position, 36 to 39 that entry and one pop, 42 zero; a queue that
does not hold the entry makes the reader wait. -/
def Obligations.ReadOfAScalarCode : Prop :=
  ∀ (s : State) (th : Thread) (r : Code) (p : Pend), s.cur = some th →
    (r.toNat < 32 → th.owes (th.wReg r.toNat) = false → s.read r p = .ok (s.getW r.toNat, p)) ∧
    (∀ q x, q < 4 → (arrived (th.lqOf q))[p.at q]? = some x →
      s.read (BitVec.ofNat 6 (32 + q)) p = .ok (x, p) ∧
      s.read (BitVec.ofNat 6 (36 + q)) p = .ok (x, p.setIfInBounds q (p.at q + 1))) ∧
    (∀ q, q < 4 → (arrived (th.lqOf q))[p.at q]? = none →
      s.read (BitVec.ofNat 6 (32 + q)) p = .error (.lq q (p.at q + 1)) ∧
      s.read (BitVec.ofNat 6 (36 + q)) p = .error (.lq q (p.at q + 1))) ∧
    s.read 42 p = .ok (0, p)

/-- Write to a w register outside handler mode: that register has the value, every other one and every byte outside its eight are as before, and its
word is no longer poisoned; in handler mode the handler bank's register has it and memory is as before; 40 and 41 push; 42 changes nothing. Retirement advances the head of each
load-data queue by its pops and the pc past the instruction's words, and changes nothing else of the thread but its run state, and no memory. -/
def Obligations.WritesAndRetirement : Prop :=
  (∀ (s u : State) (th : Thread) (d : Code) (x : Word), s.Canonical → s.cur = some th → s.write d x = some u →
      (d.toNat < 32 → u.getW d.toNat = x ∧ ∀ i, i < 32 → i ≠ d.toNat → u.getW i = s.getW i) ∧
      (d.toNat < 32 → th.handler = false →
        { u with spad := s.spad, poisonS := s.poisonS } = s ∧ (∀ k, ¬ s.wsBytes th (8 * d.toNat) 8 k → memRead u.spad k = memRead s.spad k) ∧
        ∀ w, (w ∈ u.poisonS ↔ w ∈ s.poisonS ∧ 8 * w ≠ spadKey s.curCore (th.wp + 8 * d.toNat))) ∧
      (d.toNat < 32 → th.handler = true → u.spad = s.spad) ∧
      (d = 40 → (u.cur.map (·.sqOf 0)) = some (th.sqOf 0 ++ [x])) ∧
      (d = 41 → (u.cur.map (·.sqOf 1)) = some (th.sqOf 1 ++ [x])) ∧
      (d = 42 → u = s)) ∧
  (∀ (s : State) (th : Thread) (p : Pend) (n : Nat), s.cur = some th →
      ∃ b, (s.retire p n).cur = some b ∧ b.pc = th.pc + BitVec.ofNat 64 (4 * n) ∧ b.run = .ready ∧
        (∀ q, q < 4 → b.lqOf q = (th.lqOf q).drop (p.at q)) ∧ { b with pc := th.pc, run := th.run, lq := th.lq } = th ∧
        (s.retire p n).spad = s.spad ∧ (s.retire p n).ream = s.ream ∧ (s.retire p n).dram = s.dram ∧
        ∀ x, s.retireTo p x = (s.retire p n).modCur (fun c => { c with pc := x }))

/-- In every scalar, vector, memory and Watermark instruction an illegal register code takes the illegal-operand trap before any operand is read; an
effective format that a vector instruction does not accept takes the illegal-instruction trap; and the first operand in order that is not there yet makes
the instruction wait, with nothing else changed. -/
def Obligations.IllegalCodesTrapAndMissingOperandsWait : Prop :=
  ∀ (s : State) (th : Thread) (d a b c : Code) (imm off : BitVec 12) (lit : Word) (n : BitVec 6) (m : BitVec 7) (pos len : BitVec 6)
    (cd : Cond) (d8 : BitVec 8) (d32 : Word32) (fp : FPred) (vp : VPred) (fmto fmtd : BitVec 5) (vx : VX) (ox : OX) (w : LoadWidth) (sw : StoreWidth)
    (me : Bool) (msk : BitVec 3), s.cur = some th →
    ∀ e ∈ codedIntegers d a b imm lit n m pos len ++ codedControl d a b cd d8 d32 ++ codedFloats d a b c fp fmto fmtd ++
        codedVectors th d a b c lit vx vp fmtd ++ codedBits d a b lit vx ++ codedMemory d a b w sw off ox me msk ++ codedWatermark d a b,
      (e.legal = false → exec e.instr s = .next (s.trapCur .illegalOperand 0 0)) ∧
      (e.legal = true → e.accepts = false → exec e.instr s = .next (s.trapCur .illegalInstruction 0 0)) ∧
      (∀ y, e.legal = true → e.accepts = true → s.lacks e.reads noPend y → exec e.instr s = .next (s.waiting y))

/-! ## Integer instructions -/

/-- ADD to MAXU, LEA and SETC write the result of R131 and R132 to d and retire. -/
def Obligations.TwoOperandIntegerResults : Prop :=
  ∀ (s u : State) (th : Thread) (d a b : Code) (x y : Word) (p q : Pend), s.cur = some th →
    legalDst d = true → legalSrc a = true → legalSrc b = true →
    s.read a noPend = .ok (x, p) → s.read b p = .ok (y, q) →
    ∀ e ∈ binaries ++ setcs, s.write d (e.2 x y) = some u → exec (e.1 d a b) s = .next (u.retire q 1)

/-- CLZ to MOV, the immediate and literal forms, shifts by an immediate, SEXT, ZEXT and BFX write the result of R131, R134, R136 and R137 to d and
retire past their words. SEL reads a, b, then d, and writes a when d is not zero, else b; BFI reads a, then d, and replaces a field of d; MOVI
writes its constant. -/
def Obligations.OneOperandSelectAndInsertResults : Prop :=
  (∀ (s u : State) (th : Thread) (d a : Code) (x : Word) (p : Pend) (imm : BitVec 12) (lit : Word) (n : BitVec 6) (m : BitVec 7)
      (pos len : BitVec 6), s.cur = some th → legalDst d = true → legalSrc a = true → s.read a noPend = .ok (x, p) →
      1 ≤ m.toNat → m.toNat ≤ 64 → pos.toNat + len.toNat + 1 ≤ 64 →
      ∀ e ∈ unaries imm lit n m pos len, s.write d (e.2.2 x) = some u → exec (e.2.1 d a) s = .next (u.retire p e.1)) ∧
  (∀ (s u : State) (th : Thread) (d a b : Code) (x y z : Word) (p q r : Pend) (imm : BitVec 12) (lit : Word) (pos len : BitVec 6),
      s.cur = some th →
      (legalBoth d = true → legalSrc a = true → legalSrc b = true → s.read a noPend = .ok (x, p) → s.read b p = .ok (y, q) →
        s.read d q = .ok (z, r) → s.write d (if z.toNat = 0 then y else x) = some u → exec (.sel d a b) s = .next (u.retire r 1)) ∧
      (legalBoth d = true → legalSrc a = true → pos.toNat + len.toNat + 1 ≤ 64 → s.read a noPend = .ok (x, p) →
        s.read d p = .ok (z, q) → s.write d (bfiSpec x z pos.toNat (len.toNat + 1)) = some u →
        exec (.bfi d a pos len) s = .next (u.retire q 1)) ∧
      (legalDst d = true → s.write d (wrap64 imm.toInt) = some u → exec (.movi d imm) s = .next (u.retire noPend 1)) ∧
      (legalDst d = true → s.write d lit = some u → exec (.moviLit d lit) s = .next (u.retire noPend 3)))

/-- A scalar instruction that gives a next state waits, traps, or changes its d (a of LOOP, w31 of CALL), what retirement changes, and, for floating
point, the generator; and nothing else: no other register, no byte of memory outside d's, no special register, no flag (there are none). -/
def Obligations.ScalarFrames : Prop :=
  (∀ (s t : State) (d a b : Code) (imm : BitVec 12) (lit : Word) (n : BitVec 6) (m : BitVec 7) (pos len : BitVec 6) (i : Instr),
      (i ∈ (binaries ++ setcs).map (fun e => e.1 d a b) ∨ i ∈ (unaries imm lit n m pos len).map (fun e => e.2.1 d a) ∨
        i ∈ [.sel d a b, .bfi d a pos len, .movi d imm, .moviLit d lit, .ldw d a b, .ldwX d a b imm, .rdsr d imm]) →
      exec i s = .next t → Ends s t (RetiredScalar false s t d)) ∧
  (∀ (s t : State) (d a b c : Code) (pr : FPred) (fmto fmtd : BitVec 5) (i : Instr),
      (i ∈ (floatBinaries pr).flatMap (fun e => [e.1 d a b, e.2.1 d a b fmto]) ∨
        i ∈ floatUnaries.flatMap (fun e => [e.1 d a, e.2.1 d a fmto]) ∨ i ∈ [.ffma d a b c fmto, .fcvt d a fmto fmtd]) →
      exec i s = .next t → Ends s t (RetiredScalar true s t d)) ∧
  (∀ (s t : State) (c : Cond) (a b : Code) (d8 : BitVec 8) (d24 : BitVec 24) (d32 : Word32),
      (∀ i, i ∈ [.bc c a b d8, .b c a b d32, .j d24, .ret a, .jmpt a b] → exec i s = .next t → Ends s t (RetiredScalar false s t 42)) ∧
      (exec (.loop a d8) s = .next t → Ends s t (RetiredScalar false s t a)) ∧
      (exec (.call d24) s = .next t → Ends s t (RetiredScalar false s t 31)))

/-- NOP, LPAD and every other hint only pass their words; YIELD passes its word and marks its slot as having yielded. While one YIELD counts, its
core looks at every slot that has not issued since before it looks at the slot that yielded; a slot that issues is then one that has. -/
def Obligations.HintsAndYieldPass : Prop :=
  ∀ (s : State) (th : Thread) (v : BitVec 16) (body : BitVec 24) (len : BitVec 2) (x1 x2 x3 x4 : Word32), s.cur = some th →
    exec (.nop v) s = .next (s.retire noPend 1) ∧ exec (.lpad v) s = .next (s.retire noPend 1) ∧
    exec (.hint body len x1 x2 x3 x4) s = .next (s.retire noPend (if len = 0 then 1 else if len = 3 then 5 else 3)) ∧
    exec .yield s = .next ((s.retire noPend 1).modCore s.curCore (fun k => { k with
      yielded := k.yielded.filter (fun e => e.1 != s.curSlot) ++ [(s.curSlot, [])] })) ∧
    (∀ (k : Core) (y t i j : Nat) (done : List Nat), k.yielded = [(y, done)] → t ≠ y → t ∉ done →
      k.order[i]? = some t → k.order[j]? = some y → i < j) ∧
    (∀ (k : Core) (y t : Nat) (done : List Nat), k.yielded = [(y, done)] → t ≠ y →
      ∀ e ∈ (k.issued t).yielded, e.1 = y ∧ t ∈ e.2)

/-! ## Scalar floating point -/

/-- FADD, FSUB, FMUL, FDIV, FMIN, FMAX, FCMP, FSQRT and FCLS under LEN 0b00 compute in FP32 and under LEN 0b10 in the format of FMTO (0: FP32), write d,
leave the generator as their roundings left it, and retire. FFMA rounds the exact x × y + z once; FCVT converts from FMTO (0: FP32) to FMTD, and
extends an integer result by its signedness. Encodings have the values of 04 R111 and R112, roundings choose as 04 R115, R116 and R118 say, in mode 4
with one step of the generator each, and results are exact before they are rounded. What KS24 takes above 0xFE_FFFF in mode 4 is the model's choice
(log 74). -/
def Obligations.ScalarFloatingPointResults : Prop :=
  FormatsDecode ∧ RoundingChooses ∧ RoundingCalls ∧ ExactArithmetic ∧ FloatOrder ∧ IntegerRounding ∧ ConversionsRound ∧ KeyScales ∧
  (∀ (s u : State) (th : Thread) (d a b : Code) (x y : Word) (p q : Pend) (pr : FPred) (fmto : BitVec 5) (f : FloatFmt), s.cur = some th →
      legalDst d = true → legalSrc a = true → legalSrc b = true →
      s.read a noPend = .ok (x, p) → s.read b p = .ok (y, q) →
      (fmto = 0 ∧ f = fp32 ∨ Fmt.ofCode fmto.toNat = some (.flt f)) →
      (∀ e ∈ floatBinaries pr,
        (s.write d (e.2.2 fp32 th.rounding x y).1 = some u →
          exec (e.1 d a b) s = .next ((u.setSeed (e.2.2 fp32 th.rounding x y).2).retire q 1)) ∧
        (s.write d (e.2.2 f th.rounding x y).1 = some u →
          exec (e.2.1 d a b fmto) s = .next ((u.setSeed (e.2.2 f th.rounding x y).2).retire q 3))) ∧
      (∀ e ∈ floatUnaries,
        (s.write d (e.2.2 fp32 th.rounding x).1 = some u →
          exec (e.1 d a) s = .next ((u.setSeed (e.2.2 fp32 th.rounding x).2).retire p 1)) ∧
        (s.write d (e.2.2 f th.rounding x).1 = some u →
          exec (e.2.1 d a fmto) s = .next ((u.setSeed (e.2.2 f th.rounding x).2).retire p 3)))) ∧
  (∀ (s u : State) (th : Thread) (d a b c : Code) (x y z : Word) (p q r : Pend) (fmto fmtd : BitVec 5) (f : FloatFmt) (src dst : Fmt),
      s.cur = some th → legalDst d = true → legalSrc a = true → legalSrc b = true → legalSrc c = true →
      s.read a noPend = .ok (x, p) → s.read b p = .ok (y, q) → s.read c q = .ok (z, r) →
      (fmto = 0 ∧ f = fp32 ∨ Fmt.ofCode fmto.toNat = some (.flt f)) →
      (s.write d (th.rounding.reg f (Ext.add th.rounding.mode (Ext.mul (f.regVal x) (f.regVal y)) (f.regVal z))).1 = some u →
        exec (.ffma d a b c fmto) s = .next ((u.setSeed
          (th.rounding.reg f (Ext.add th.rounding.mode (Ext.mul (f.regVal x) (f.regVal y)) (f.regVal z))).2).retire r 3)) ∧
      ((fmto = 0 ∧ src = .flt fp32 ∨ Fmt.ofCode fmto.toNat = some src) → Fmt.ofCode fmtd.toNat = some dst →
        s.write d (match dst with
          | .int w => wrap64 (Int.bmod (convElem src dst false th.rounding x.toNat).1 (2 ^ w))
          | _ => BitVec.ofNat 64 (convElem src dst false th.rounding x.toNat).1) = some u →
        exec (.fcvt d a fmto fmtd) s = .next ((u.setSeed (convElem src dst false th.rounding x.toNat).2).retire p 3)))

/-! ## Control transfer, traps, threads -/

/-- BC, B, LOOP, J and CALL go to their target when it lies in the code image, and else trap there; BC and B whose condition fails, and LOOP
that reaches zero, go on. CALL leaves the link in w31 and LOOP the lower count in its register. -/
def Obligations.BranchesAndJumps : Prop :=
  ∀ (s : State) (th : Thread) (c : Cond) (a b : Code) (x y : Word) (p q : Pend) (d8 : BitVec 8) (d24 : BitVec 24) (d32 : Word32),
    s.cur = some th →
    (legalSrc a = true → legalSrc b = true → s.read a noPend = .ok (x, p) → s.read b p = .ok (y, q) →
      exec (.bc c a b d8) s = .next (if condSpec c x y = true then
          (if s.inCode th (th.pc + wrap64 (4 * d8.toInt)) = true then s.retireTo q (th.pc + wrap64 (4 * d8.toInt))
            else s.trapCur .addressFault 0 (th.pc + wrap64 (4 * d8.toInt)))
        else s.retire q 1) ∧
      exec (.b c a b d32) s = .next (if condSpec c x y = true then
          (if s.inCode th (th.pc + wrap64 (4 * d32.toInt)) = true then s.retireTo q (th.pc + wrap64 (4 * d32.toInt))
            else s.trapCur .addressFault 0 (th.pc + wrap64 (4 * d32.toInt)))
        else s.retire q 3)) ∧
    (∀ u, a.toNat < 32 → s.read a noPend = .ok (x, p) → s.write a (wrap64 (x.toInt - 1)) = some u →
      exec (.loop a d8) s = .next (if x.toNat = 1 then u.retire p 1
        else if s.inCode th (th.pc + wrap64 (4 * d8.toInt)) = true then u.retireTo p (th.pc + wrap64 (4 * d8.toInt))
        else s.trapCur .addressFault 0 (th.pc + wrap64 (4 * d8.toInt)))) ∧
    exec (.j d24) s = .next (if s.inCode th (th.pc + wrap64 (4 * d24.toInt)) = true then s.retireTo noPend (th.pc + wrap64 (4 * d24.toInt))
      else s.trapCur .addressFault 0 (th.pc + wrap64 (4 * d24.toInt))) ∧
    (∀ u, s.write 31 (th.pc + 4) = some u →
      exec (.call d24) s = .next (if s.inCode th (th.pc + wrap64 (4 * d24.toInt)) = true
        then u.retireTo noPend (th.pc + wrap64 (4 * d24.toInt)) else s.trapCur .addressFault 0 (th.pc + wrap64 (4 * d24.toInt))))

/-- RET goes to its target when the word there is a return pad, and JMPT to the entry of its table when the word there is a pad of the
table's label; every failed test takes the control-flow trap, with nothing else changed. -/
def Obligations.LandingPads : Prop :=
  ∀ (s : State) (th : Thread) (a b : Code) (x y : Word) (p q : Pend) (w : Word32), s.cur = some th →
    legalSrc a = true → legalSrc b = true → s.read a noPend = .ok (x, p) → s.read b p = .ok (y, q) →
    (x.toNat < 2 ^ 32 → x.toNat % 4 = 0 → s.fetchWord th x = .ok w →
      exec (.ret a) s = .next (if w = 0xFFFF01F4 then s.retireTo p x else s.trapCur .controlFlow 1 0)) ∧
    ((2 ^ 32 ≤ x.toNat ∨ x.toNat % 4 ≠ 0) → exec (.ret a) s = .next (s.trapCur .controlFlow 1 0)) ∧
    (∀ (off : Nat) (hb eb : List Byte), s.spadDecode th (x.setWidth 32) 1 = .ok (s.curCore, off) → x.toNat % 4 = 0 →
      s.localRead s.curCore off 4 = .ok hb →
      ((leNat hb / 2 ^ 16 = 0xFFFF ∨ leNat hb % 2 ^ 16 ≤ y.toNat) → exec (.jmpt a b) s = .next (s.trapCur .controlFlow 2 0)) ∧
      (leNat hb / 2 ^ 16 ≠ 0xFFFF → y.toNat < leNat hb % 2 ^ 16 → off + 8 + 4 * y.toNat ≤ 0x40000 →
        s.localRead s.curCore (off + 4 + 4 * y.toNat) 4 = .ok eb →
        (leNat eb % 4 ≠ 0 → exec (.jmpt a b) s = .next (s.trapCur .controlFlow 3 0)) ∧
        (leNat eb % 4 = 0 → s.fetchWord th (BitVec.ofNat 64 (leNat eb)) = .ok w →
          exec (.jmpt a b) s = .next (if w = BitVec.ofNat 32 (leNat hb / 2 ^ 16 * 2 ^ 16 + 0x1F4)
            then s.retireTo q (BitVec.ofNat 64 (leNat eb)) else s.trapCur .controlFlow 3 0))))

/-- Taking a trap outside handler mode saves RPC, KIND, CODE, the address and the word, enters handler mode at the resident handler, and
changes nothing else; TRAP retires first, so its resume point is the next instruction.
The handler's entry point is an open constant (log 8). -/
def Obligations.TrapEntrySavesAndEnters : Prop :=
  ∀ (s : State) (th : Thread) (k : Trap) (code : Nat) (addr : Word) (n : BitVec 12), s.cur = some th → th.handler = false →
    (∃ b, (s.trapCur k code addr).cur = some b ∧ Trapped th b k code addr th.pc (s.baseWord th th.pc) ∧
      Framed s (s.trapCur k code addr) (fun _ => False)) ∧
    (∃ t b, exec (.trap n) s = .next t ∧ t.cur = some b ∧
      Trapped th b .software n.toNat 0 (th.pc + 4) (s.baseWord th (th.pc + 4)) ∧ Framed s t (fun _ => False))

/-- HALT in handler mode, and any trap raised there, halts the core: every resident thread is Stopped, a halt record goes to the fault server within
2,000 ck, or 40,000 to a peer, or with a record of the same core and ck that is on its way, and the thread awaits its action. ERET in handler mode goes back to the resume point that TSTAT holds; outside
handler mode ERET, HALT and every access to TSTAT, TADDR, TINFO and FSID take the privilege trap.
The ck of the record within its bound is free (log 6). -/
def Obligations.HaltReturnAndPrivilege : Prop :=
  (∀ (s : State) (th : Thread) (k : Trap) (code : Nat) (addr : Word), s.cur = some th → th.handler = true →
      exec .halt s = .next (s.haltCore s.curCore s.curSlot) ∧ s.trapCur k code addr = s.haltCore s.curCore s.curSlot ∧
      ((s.haltCore s.curCore s.curSlot).core s.curCore).halted = true ∧
      (∀ j x, s.thread s.curCore j = some x → (s.haltCore s.curCore s.curSlot).thread s.curCore j =
        some { x with stopped := true, awaiting := if j = s.curSlot then true else x.awaiting }) ∧
      (∃ ck, s.clk < ck ∧ (ck ≤ s.clk + s.recordBound (s.node th.node).vd ∨
          ∃ q, (ck, .faultRecord q) ∈ s.agenda ∧ q.vd = (s.node th.node).vd ∧ q.h = s.hOf th s.curCore ∧ q.clk = s.clk) ∧
        (s.haltCore s.curCore s.curSlot).agenda = s.agenda ++ [(ck, .faultRecord (s.recordOf 2 s.curCore s.curSlot th))]) ∧
      (s.haltCore s.curCore s.curSlot).spad = s.spad ∧ (∀ c, c ≠ s.curCore → (s.haltCore s.curCore s.curSlot).core c = s.core c)) ∧
  (∀ (s : State) (th : Thread) (d a : Code) (n : BitVec 12), s.cur = some th →
      (th.handler = true → ∃ t b, exec .eret s = .next t ∧ t.cur = some b ∧ b.pc.toNat = th.tstat.toNat / 2 ^ 32 ∧ b.handler = false ∧
        b.run = .ready ∧ { b with pc := th.pc, handler := th.handler, run := th.run } = th ∧ Framed s t (fun _ => False)) ∧
      (th.handler = false →
        exec .eret s = .next (s.trapCur .privilege 0 0) ∧ exec .halt s = .next (s.trapCur .privilege 0 0) ∧
        (n.toNat ∈ [0x30, 0x31, 0x32, 0x33] →
          (legalDst d = true → exec (.rdsr d n) s = .next (s.trapCur .privilege 0 0)) ∧
          (legalSrc a = true → exec (.wrsr a n) s = .next (s.trapCur .privilege 0 0)))))

/-- RDSR writes the register's value to d and retires; a number that is not listed takes the illegal-instruction trap, as WRSR of it does. -/
def Obligations.SpecialRegisterReads : Prop :=
  ∀ (s u : State) (th : Thread) (d a : Code) (n : BitVec 12), s.cur = some th → legalDst d = true →
    (∀ e ∈ specialRegs s th, n.toNat = e.1 → s.write d e.2 = some u → exec (.rdsr d n) s = .next (u.retire noPend 1)) ∧
    (th.handler = true →
      ∀ e ∈ handlerRegs s th, n.toNat = e.1 → s.write d e.2 = some u → exec (.rdsr d n) s = .next (u.retire noPend 1)) ∧
    (n.toNat ∉ listedRegs → exec (.rdsr d n) s = .next (s.trapCur .illegalInstruction 0 0) ∧
      exec (.wrsr a n) s = .next (s.trapCur .illegalInstruction 0 0))

/-- WRSR changes the register that it names, where the value is listed, and retires; a read-only register keeps its value. WP is written
in handler mode alone, and not over another thread's workspace. -/
def Obligations.SpecialRegisterWrites : Prop :=
  ∀ (s : State) (th : Thread) (a : Code) (n : BitVec 12) (x : Word) (p : Pend), s.cur = some th → legalSrc a = true →
    s.read a noPend = .ok (x, p) →
    (∀ e ∈ specialWrites x, n.toNat = e.1 → exec (.wrsr a n) s = .next ((s.modCur e.2).retire p 1)) ∧
    (th.handler = true → ∀ e ∈ handlerWrites x, n.toNat = e.1 → exec (.wrsr a n) s = .next ((s.modCur e.2).retire p 1)) ∧
    ((n.toNat ∈ readOnlyRegs ∨ (n = 0 ∧ th.handler = false) ∨ (n.toNat = 0x33 ∧ th.handler = true)) →
      exec (.wrsr a n) s = .next (s.retire p 1)) ∧
    (n.toNat = 5 → ∃ sg : Word, exec (.wrsr a n) s = .next ((s.modCur (fun c => { c with sigd := sg })).retire p 1) ∧
      wordField sg 0 8 = sigdField th.sigd x 0 8 1 64 ∧ wordField sg 8 4 = sigdField th.sigd x 8 4 1 8 ∧
      wordField sg 12 4 = sigdField th.sigd x 12 4 1 8 ∧ wordField sg 16 16 = sigdField th.sigd x 16 16 0 65535 ∧
      wordField sg 32 16 = sigdField th.sigd x 32 16 1 65535 ∧ wordField sg 48 16 = 0) ∧
    (n = 0 → th.handler = true →
      (252 < wordField x 10 8 → exec (.wrsr a n) s = .next (s.retire p 1)) ∧
      (wordField x 10 8 ≤ 252 →
        (∀ j y, j ≠ s.curSlot → s.thread s.curCore j = some y →
          1024 * wordField x 10 8 + 3072 ≤ y.wp ∨ y.wp + 3072 ≤ 1024 * wordField x 10 8) →
        s.wpWaits th (1024 * wordField x 10 8) = false →
        exec (.wrsr a n) s = .next ((s.modCur (fun c => { c with blk := BitVec.ofNat 8 (wordField x 10 8) })).retire p 1)) ∧
      (∀ j y, wordField x 10 8 ≤ 252 → j < 4 → j ≠ s.curSlot → s.thread s.curCore j = some y →
        1024 * wordField x 10 8 < y.wp + 3072 → y.wp < 1024 * wordField x 10 8 + 3072 →
        exec (.wrsr a n) s = .next (s.trapCur .addressFault 0 (BitVec.ofNat 64 (1024 * wordField x 10 8)))))

/-- SPAWN answers −3 in a gang, −1 without a free slot, −2 on an overlap, and else makes a thread in the lowest free slot, ready 8 ck
later, with the spawning thread's FMT, RND, SIGD and FRB, its seed by core and slot, counters zero and queues empty. -/
def Obligations.SpawnMakesAThread : Prop :=
  ∀ (s u : State) (th : Thread) (d a b : Code) (x y : Word) (p q : Pend), s.cur = some th →
    legalDst d = true → legalSrc a = true → legalSrc b = true → s.read a noPend = .ok (x, p) → s.read b p = .ok (y, q) →
    ((y.toNat % 1024 ≠ 0 ∨ 0x3F000 < y.toNat) → exec (.spawn d a b) s = .next (s.trapCur .addressFault 0 y)) ∧
    (y.toNat % 1024 = 0 → y.toNat ≤ 0x3F000 →
      ((∃ e ∈ (s.core s.curCore).threads, e.2.gang ≠ .none) → s.write d (wrap64 (-3)) = some u →
        exec (.spawn d a b) s = .next (u.retire q 1)) ∧
      ((∀ e ∈ (s.core s.curCore).threads, e.2.gang = .none) →
        ((s.core s.curCore).freeSlot = none → s.write d (wrap64 (-1)) = some u → exec (.spawn d a b) s = .next (u.retire q 1)) ∧
        (∀ f, (s.core s.curCore).freeSlot = some f →
          ((∃ e ∈ (s.core s.curCore).threads, wsOverlap y.toNat e.2.wp = true) → s.write d (wrap64 (-2)) = some u →
            exec (.spawn d a b) s = .next (u.retire q 1)) ∧
          ((∀ e ∈ (s.core s.curCore).threads, wsOverlap y.toNat e.2.wp = false) →
            s.wmHolds s.curCore y.toNat 3072 = false → s.write d (BitVec.ofNat 64 f) = some u →
            ∃ nt : Thread, exec (.spawn d a b) s =
                .next (((u.setThread s.curCore f nt).retire q 1).due (s.clk + 8) (.spawnThreadReady s.curCore f)) ∧
              nt.node = th.node ∧ nt.pc = x ∧ nt.wp = y.toNat ∧ nt.fmt = th.fmt ∧ nt.rnd = th.rnd ∧ nt.sigd = th.sigd ∧ nt.frb = th.frb ∧
              nt.seed = 0x5A17C3E5 ^^^ BitVec.ofNat 32 (4 * s.hOf th s.curCore + f) ∧ nt.cnt = ⟨0, 0, 0, 0, 0⟩ ∧
              (∀ i, nt.lqOf i = []) ∧ (∀ i, nt.sqOf i = []) ∧ nt.handler = false ∧ nt.run = .blocked .start)))) ∧
    (∀ c t (l : Thread), s.thread c t = some l → l.run = .blocked .start →
      ∃ v, exec (.spawnThreadReady c t) s = .next v ∧ v.thread c t = some { l with run := .ready } ∧ v.spad = s.spad ∧
        (∀ c' t', (c', t') ≠ (c, t) → v.thread c' t' = s.thread c' t'))

/-- GANG blocks its thread to join, or takes the gang trap with the first two causes of its table. The last join forms the gang, or the leader takes
the trap with one of the other causes: the leader goes on, and each joined thread follows it from the leader's next instruction. UNGANG dissolves
it; a follower goes on in the ck after its own UNGANG.
The order of the causes is the model's reading (log 25, 62), and that a follower's ck is the leader's too (log 9). -/
def Obligations.GangsFormAndDissolve : Prop :=
  ∀ (s : State) (th : Thread) (a : Code) (w : Word) (p : Pend), s.cur = some th →
    (legalSrc a = true → s.read a noPend = .ok (w, p) →
      (gangWordOk w = false → exec (.gang a) s = .next (s.trapCur .gang 1 0)) ∧
      (gangWordOk w = true → w[7] = false → gangCols (hpos s.curCore).1 w = none → exec (.gang a) s = .next (s.trapCur .gang 2 0)) ∧
      (gangWordOk w = true → (w[7] = true ∨ gangCols (hpos s.curCore).1 w ≠ none) →
        exec (.gang a) s = .next (s.modCur (fun c => { c with run := .blocked .join, gangWord := w, pend := p })).gangTry)) ∧
    (∀ c t (l : Thread), s.thread c t = some l → s.gangReady c l = true →
      (l.gang ≠ .none → exec (.gangForm c t) s = .next ((s.enterTrap c t .gang 3 0 l.pc 0 7 0).gangHalt c t)) ∧
      (l.gang = .none →
        ((∃ k ∈ c :: gangCores c l.gangWord, 1 < s.kernelThreads k l.node) →
          exec (.gangForm c t) s = .next (s.enterTrap c t .gang 4 0 l.pc 0 7 0)) ∧
        ((∀ k ∈ c :: gangCores c l.gangWord, s.kernelThreads k l.node ≤ 1) →
          ((∃ k ∈ gangCores c l.gangWord, k < (s.vdOf l).qbase + (s.node l.node).hLo ∨ (s.vdOf l).qbase + (s.node l.node).hHi < k) →
            exec (.gangForm c t) s = .next (s.enterTrap c t .gang 5 0 l.pc 0 7 0)) ∧
          ((∀ k ∈ gangCores c l.gangWord, (s.vdOf l).qbase + (s.node l.node).hLo ≤ k ∧ k ≤ (s.vdOf l).qbase + (s.node l.node).hHi) →
            (∀ k ∈ gangCores c l.gangWord, ∀ j y, s.joiner k l.node = some j → s.thread k j = some y → y.gang = .none) →
            c ∉ gangCores c l.gangWord →
            ∃ u b, exec (.gangForm c t) s = .next u ∧ u.thread c t = some b ∧ b.pc = l.pc + 4 ∧ b.run = .ready ∧
              b.gang = .leader ((gangCores c l.gangWord).map (fun k => (k, (s.joiner k l.node).getD 0))) ∧
              (∀ k ∈ gangCores c l.gangWord, ∀ j, s.joiner k l.node = some j →
                ∃ f, u.thread k j = some f ∧ f.pc = l.pc + 4 ∧ f.run = .ready ∧ f.gang = .follower c t))))) ∧
    ((∀ x y, th.gang ≠ .follower x y) → exec .ungang s = .next ((s.retire noPend 1).modCur (fun c => { c with gang := .none }))) ∧
    (∀ x y, th.gang = .follower x y → exec .ungang s = .next
      (((s.retire noPend 1).modCur (fun c => { c with gang := .none, run := .blocked .start })).due (s.clk + 1)
        (.spawnThreadReady s.curCore s.curSlot)))

/-- WAITC passes when each limited counter is at or below its limit and no fault of a limited class is left; it waits while one is above. Of the
faults of limited classes the one of the lowest class, and in it of the oldest operation, is reported, once, as an asynchronous fault at the WAITC; in
handler mode it halts the core. -/
def Obligations.WaitcPassesOrReports : Prop :=
  ∀ (s : State) (th : Thread) (ld st : BitVec 5) (cp : BitVec 7) (pr : BitVec 4) (cr : BitVec 3), s.cur = some th →
    let low := (ld = 31 ∨ th.cnt.ld ≤ ld.toNat) ∧ (st = 31 ∨ th.cnt.st ≤ st.toNat) ∧ (cp = 127 ∨ th.cnt.cp ≤ cp.toNat) ∧
      (pr = 15 ∨ th.cnt.pr ≤ pr.toNat) ∧ (cr = 7 ∨ th.cnt.cr ≤ cr.toNat)
    let covers (n : Nat) (f : AFault) := ∃ lim no, (n, f.cls, lim, no) ∈ waitcFields ld st cp pr cr ∧ lim ≠ no
    (low → (∀ f ∈ th.faults, ∀ n, ¬ covers n f) → exec (.waitc ld st cp pr cr) s = .next (s.retire noPend 1)) ∧
    (¬ low → exec (.waitc ld st cp pr cr) s = .next (s.waiting .retry)) ∧
    (low → ∀ f ∈ th.faults, ∀ n, covers n f → (∀ g ∈ th.faults, ∀ m, covers m g → n < m ∨ n = m ∧ (g = f ∨ f.op < g.op)) →
      (th.handler = true → exec (.waitc ld st cp pr cr) s =
        .next ((s.modCur (fun x => { x with faults := x.faults.erase f })).haltCore s.curCore s.curSlot)) ∧
      (th.handler = false →
        ∃ t b, exec (.waitc ld st cp pr cr) s = .next t ∧ t.cur = some b ∧ b.faults = th.faults.erase f ∧ b.handler = true ∧
          b.pc = Config.handlerEntry ∧ b.taddr = f.addr ∧ wordField b.tstat 32 32 = th.pc.toNat % 2 ^ 32 ∧ wordField b.tstat 16 8 = 13 ∧
          wordField b.tstat 0 16 = f.code % 65536 ∧ wordField b.tinfo 48 16 = f.tag % 65536 ∧ wordField b.tinfo 45 3 = n ∧
          wordField b.tinfo 32 8 = f.sub % 256))

/-- EXIT with its counters zero, its store-data queues empty and no fault left writes its status block and empties its slot; while a counter is
not zero it waits. -/
def Obligations.ExitEmptiesTheSlot : Prop :=
  ∀ (s : State) (th : Thread), s.cur = some th →
    (th.cnt ≠ ⟨0, 0, 0, 0, 0⟩ → exec .exit s = .next (s.waiting .retry)) ∧
    (th.cnt = ⟨0, 0, 0, 0, 0⟩ → (∀ j, th.sqOf j = []) → s.allSettled s.curCore s.curSlot = true →
      s.anyHeldW (spadLocs s.curCore (th.wp + 2688) 128) = false → th.faults = [] →
      ∃ t, exec .exit s = .next t ∧ t.cur = none ∧
        (s.Canonical → memBytes t.spad (spadKey s.curCore (th.wp + 2688)) 56 =
          [th.pc, th.fmt.setWidth 64, th.rnd.setWidth 64, th.seed.setWidth 64, th.sigd, th.frb.setWidth 64, 0].flatMap (fun x => leBytes 8 x.toNat)) ∧
        (∀ k, ¬ s.wsBytes th 2688 128 k → memRead t.spad k = memRead s.spad k) ∧
        (∀ c j, (c, j) ≠ (s.curCore, s.curSlot) → t.thread c j = s.thread c j) ∧
        t.dram = s.dram ∧ t.ream = s.ream)

/-! ## Scratchpad and Ream accesses -/

/-- LD, LDQ and LDW in every form read their bytes of the own scratchpad, or of the own Ream slice, extend them, write d or append the value
to d's queue, and retire; one that meets a poisoned unit takes the data-error trap with the address of the first byte in error, and nothing is written.
LDW at or past the slice's end takes the address-fault trap, misaligned the misaligned-access trap, and waits in a refresh window. -/
def Obligations.LocalLoadsDeliver : Prop :=
  ∀ (s u : State) (th : Thread) (d a b : Code) (x y : Word) (p q : Pend) (w : LoadWidth) (off : BitVec 12) (o : Nat), s.cur = some th →
    legalSrc a = true → s.read a noPend = .ok (x, p) → s.readIdx b p = .ok (y, q) →
    (∀ e ∈ spadLoads w off, legalDst d = true → (legalSrc b = true ∨ (b = 63 ∧ e.1 = 3)) →
      s.spadDecode th (effAddr x y e.2.2.1) w.bytes = .ok (s.curCore, o) → o % w.bytes = 0 →
      s.localGo (spadLocs s.curCore o w.bytes) → (∀ l ∈ spadLocs s.curCore o w.bytes, s.poisoned l = false) →
      s.write d (loadSpec w (memBytes s.spad (spadKey s.curCore o) w.bytes)) = some u → exec (e.2.2.2 d a b) s = .next (u.retire q e.1)) ∧
    (legalDst d = true → s.spadDecode th (effAddr x 0 off) 8 = .ok (s.curCore, o) → o % 8 = 0 →
      s.localGo (spadLocs s.curCore o 8) → (∀ l ∈ spadLocs s.curCore o 8, s.poisoned l = false) →
      s.write d (BitVec.ofNat 64 (leNat (memBytes s.spad (spadKey s.curCore o) 8))) = some u →
      exec (.ldImm d a off) s = .next (u.retire p 1)) ∧
    (∀ e ∈ [(1, 0, Instr.ldq w d a b), (3, off, .ldqX w d a b off)], isLq d = true → (legalSrc b = true ∨ (b = 63 ∧ e.1 = 3)) →
      s.spadDecode th (effAddr x y e.2.1) w.bytes = .ok (s.curCore, o) → o % w.bytes = 0 →
      s.localGo (spadLocs s.curCore o w.bytes) → (∀ l ∈ spadLocs s.curCore o w.bytes, s.poisoned l = false) →
      (th.lqOf (d.toNat - 32)).length < 32 →
      exec e.2.2 s = .next ((s.modCur (·.lqAppend (d.toNat - 32)
        [.data (loadSpec w (memBytes s.spad (spadKey s.curCore o) w.bytes))])).retire q e.1)) ∧
    (∀ e ∈ [(1, 0, Instr.ldw d a b), (3, off, .ldwX d a b off)], legalDst d = true → (legalSrc b = true ∨ (b = 63 ∧ e.1 = 3)) →
      (effAddr x y e.2.1).toNat + 8 ≤ (s.vdOf th).reamk * 65536 → (effAddr x y e.2.1).toNat % 8 = 0 →
      96 ≤ refcPhase s.clk s.curCore → (s.curCore * 2 ^ 19 + (effAddr x y e.2.1).toNat) / 64 ∉ s.poisonR →
      s.write d (BitVec.ofNat 64 (leNat (memBytes s.ream (s.curCore * 2 ^ 19 + (effAddr x y e.2.1).toNat) 8))) = some u →
      exec e.2.2 s = .next (u.retire q e.1)) ∧
    (∀ e ∈ [(1, effAddr x y 0, w.bytes, th.dest (scalarDest d), legalDst d, Instr.ld w d a b),
        (3, effAddr x y off, w.bytes, th.dest (scalarDest d), legalDst d, .ldX w d a b off),
        (0, effAddr x 0 off, 8, th.dest (scalarDest d), legalDst d, .ldImm d a off),
        (1, effAddr x y 0, w.bytes, .lq (d.toNat - 32), isLq d, .ldq w d a b), (3, effAddr x y off, w.bytes, .lq (d.toNat - 32), isLq d, .ldqX w d a b off)],
      e.2.2.2.2.1 = true → (e.1 = 0 ∨ legalSrc b = true ∨ (b = 63 ∧ e.1 = 3)) → s.spadDecode th e.2.1 e.2.2.1 = .ok (s.curCore, o) → o % e.2.2.1 = 0 →
      s.localGo (spadLocs s.curCore o e.2.2.1) → th.canTake e.2.2.2.1 1 = true →
      ∀ i, s.meets (fun _ => true) (spadLocs s.curCore o e.2.2.1) i →
        exec e.2.2.2.2.2 s = .next (s.trapCur .dataError 0 ((e.2.1 + BitVec.ofNat 32 i).setWidth 64))) ∧
    (∀ e ∈ [(1, effAddr x y 0, Instr.ldw d a b), (3, effAddr x y off, .ldwX d a b off)], legalDst d = true → (legalSrc b = true ∨ (b = 63 ∧ e.1 = 3)) →
      ((s.vdOf th).reamk * 65536 ≤ e.2.1.toNat → exec e.2.2 s = .next (s.trapCur .addressFault 0 (e.2.1.setWidth 64))) ∧
      (e.2.1.toNat < (s.vdOf th).reamk * 65536 →
        (e.2.1.toNat % 8 ≠ 0 → exec e.2.2 s = .next (s.trapCur .misaligned 0 (e.2.1.setWidth 64))) ∧
        (e.2.1.toNat % 8 = 0 → refcPhase s.clk s.curCore < 96 → exec e.2.2 s = .next (s.waiting .retry)) ∧
        (e.2.1.toNat % 8 = 0 → 96 ≤ refcPhase s.clk s.curCore → (s.curCore * 2 ^ 19 + e.2.1.toNat) / 64 ∈ s.poisonR →
          exec e.2.2 s = .next (s.trapCur .dataError 0 (e.2.1.setWidth 64)))))

/-- ST and STQ in every form write the low bytes of their data to the own scratchpad at the effective address, change no other byte, and
retire; STQ takes its data from the head of its store-data queue. -/
def Obligations.LocalStoresWrite : Prop :=
  ∀ (s : State) (th : Thread) (d a b : Code) (x y z : Word) (p q r : Pend) (w : StoreWidth) (off : BitVec 12) (o : Nat), s.cur = some th →
    legalSrc a = true → s.read a noPend = .ok (x, p) → s.readIdx b p = .ok (y, q) →
    (∀ e ∈ [(1, effAddr x y 0, w.bytes, q, Instr.st w d a b), (3, effAddr x y off, w.bytes, q, .stX w d a b off),
        (1, effAddr x 0 off, 8, p, .stImm d a off)],
      legalSrc d = true → (legalSrc b = true ∨ (b = 63 ∧ e.1 = 3)) → s.read d e.2.2.2.1 = .ok (z, r) →
      s.spadDecode th e.2.1 e.2.2.1 = .ok (s.curCore, o) → o % e.2.2.1 = 0 → s.storeGo (spadLocs s.curCore o e.2.2.1) →
      ∃ t, exec e.2.2.2.2 s = .next t ∧ t.cur = some (th.retire r e.1) ∧
        Stored s t (fun k => spadKey s.curCore o ≤ k ∧ k < spadKey s.curCore o + e.2.2.1) ∧
        (s.Canonical → leNat (memBytes t.spad (spadKey s.curCore o) e.2.2.1) = z.toNat % 2 ^ (8 * e.2.2.1))) ∧
    (∀ e ∈ [(1, effAddr x y 0, Instr.stq w d a b), (3, effAddr x y off, .stqX w d a b off)],
      isSq d = true → (legalSrc b = true ∨ (b = 63 ∧ e.1 = 3)) → (th.sqOf (d.toNat - 40)).head? = some z →
      s.spadDecode th e.2.1 w.bytes = .ok (s.curCore, o) → o % w.bytes = 0 → s.storeGo (spadLocs s.curCore o w.bytes) →
      ∃ t, exec e.2.2 s = .next t ∧ t.cur = some ((th.sqTake (d.toNat - 40) 1).retire q e.1) ∧
        Stored s t (fun k => spadKey s.curCore o ≤ k ∧ k < spadKey s.curCore o + w.bytes) ∧
        (s.Canonical → leNat (memBytes t.spad (spadKey s.curCore o) w.bytes) = z.toNat % 2 ^ (8 * w.bytes)))

/-- VLD moves the lane bytes that its mask enables into a v register, whose other lanes keep their bytes, or all 128, zero where the mask is
off, into a queue as 16 entries, or takes the data-error trap at the first enabled lane that is poisoned; VST writes the enabled lane bytes of its v
register, or of the 16 entries at the head of a store-data queue, and no other. -/
def Obligations.VectorLocalAccesses : Prop :=
  ∀ (s : State) (th : Thread) (d a b : Code) (x y : Word) (v : Vec) (p q r : Pend) (off : BitVec 12) (me : Bool) (msk : BitVec 3) (o : Nat),
    s.cur = some th → legalSrc a = true → s.read a noPend = .ok (x, p) → s.readIdx b p = .ok (y, q) →
    (∀ e ∈ [(1, effAddr x y 0, BitVec.allOnes 128, Instr.vld d a b, Instr.vst d a b),
        (3, effAddr x y off, s.laneMask me msk, .vldX d a b off me msk, .vstX d a b off me msk)],
      (legalSrc b = true ∨ (b = 63 ∧ e.1 = 3)) → s.spadDecode th e.2.1 128 = .ok (s.curCore, o) → o % 8 = 0 →
      (s.localGo (touched (spadLocs s.curCore o 128) (.vload e.2.2.1)) →
        (∀ l ∈ touched (spadLocs s.curCore o 128) (.vload e.2.2.1), s.poisoned l = false) →
        (d.toNat < 16 → th.owes (.v d.toNat) = false →
          exec e.2.2.2.1 s = .next ((s.setV d.toNat (mergeVec e.2.2.1 (s.getV d.toNat) (memBytes s.spad (spadKey s.curCore o) 128))).retire q e.1)) ∧
        (isLq d = true → (th.lqOf (d.toNat - 32)).length ≤ 16 →
          exec e.2.2.2.1 s = .next ((s.modCur (·.lqAppend (d.toNat - 32)
            ((vecWords (mergeVec e.2.2.1 0 (memBytes s.spad (spadKey s.curCore o) 128))).map .data))).retire q e.1))) ∧
      (s.localGo (touched (spadLocs s.curCore o 128) (.vload e.2.2.1)) →
        (d.toNat < 16 ∧ th.owes (.v d.toNat) = false ∨ isLq d = true ∧ (th.lqOf (d.toNat - 32)).length ≤ 16) →
        ∀ i, s.meets e.2.2.1.getLsbD (spadLocs s.curCore o 128) i →
          exec e.2.2.2.1 s = .next (s.trapCur .dataError 0 ((e.2.1 + BitVec.ofNat 32 i).setWidth 64))) ∧
      (∀ left, (legalVSrc d = true ∧ s.readVec d q = .ok (v, r) ∧ left = th) ∨
          (isSq d = true ∧ ((th.sqOf (d.toNat - 40)).take 16).length = 16 ∧ v = wordsVec ((th.sqOf (d.toNat - 40)).take 16) ∧ r = q ∧
            left = th.sqTake (d.toNat - 40) 16) →
        s.storeGo (touched (spadLocs s.curCore o 128) (.store (vstoreData e.2.2.1 v))) →
        ∃ t, exec e.2.2.2.2 s = .next t ∧ t.cur = some (left.retire r e.1) ∧
          Stored s t (fun k => ∃ j < 128, e.2.2.1.getLsbD j = true ∧ k = spadKey s.curCore o + j) ∧
          (s.Canonical → ∀ j < 128, e.2.2.1.getLsbD j = true → memRead t.spad (spadKey s.curCore o + j) = v.extractLsb' (8 * j) 8))) ∧
    (∀ (m : BitVec 128) (old : Vec) (bytes : List Byte) (j : Nat), j < 128 →
      (mergeVec m old bytes).extractLsb' (8 * j) 8 = if m.getLsbD j = true then bytes.getD j 0 else old.extractLsb' (8 * j) 8)

/-- A scratchpad access in any form, scalar, queue or vector, outside the quire, beyond offset 0x3FFFF or of another kind takes the address-fault trap
at its first failing byte, and a misaligned one the misaligned-access trap at its address, before anything is read or written.
That the address is decoded before the alignment is the model's reading (log 24). -/
def Obligations.ScratchpadAddressFaults : Prop :=
  ∀ (s : State) (th : Thread) (d a b : Code) (x y : Word) (p q : Pend) (w : LoadWidth) (sw : StoreWidth) (off : BitVec 12) (me : Bool)
    (msk : BitVec 3), s.cur = some th → legalSrc a = true → s.read a noPend = .ok (x, p) → s.readIdx b p = .ok (y, q) →
    (∀ e ∈ spadForms s th d a b x y p q w sw off me msk, e.1 →
      (∀ z, s.spadDecode th e.2.1 e.2.2.1 = .error z → exec e.2.2.2.2 s = .next (s.trapCur .addressFault 0 z)) ∧
      (∀ c o, s.spadDecode th e.2.1 e.2.2.1 = .ok (c, o) → o % e.2.2.2.1 ≠ 0 →
        exec e.2.2.2.2 s = .next (s.trapCur .misaligned 0 (e.2.1.setWidth 64)))) ∧
    (∀ (k h o n : Nat), k < 4 → h < 4096 → o < 2 ^ 18 → 1 ≤ n →
      s.spadDecode th (BitVec.ofNat 32 (k * 2 ^ 30 + h * 2 ^ 18 + o)) n =
        (if (k = 0 ∧ h < (s.vdOf th).qlen) ∨ (k = 1 ∧ h = 0) then
          (if o + n ≤ 2 ^ 18 then .ok (if k = 0 then (s.vdOf th).qbase + h else s.curCore, o)
            else .error (BitVec.ofNat 64 (k * 2 ^ 30 + h * 2 ^ 18 + 2 ^ 18)))
        else .error (BitVec.ofNat 64 (k * 2 ^ 30 + h * 2 ^ 18 + o))))

/-! ## Remote and global accesses -/

/-- LD, ST, LDQ, STQ, VLD and VST of another core's scratchpad issue in every form: the access is in flight with its home core and places, CR has risen,
and nothing is read or written yet; a load's queue owes its entries, and a store has taken those of its store-data queue.
The ck of its performing, within the 400 of a message between cores, is left open (log 6). -/
def Obligations.RemoteAccessesIssue : Prop :=
  ∀ (s : State) (th : Thread) (d a b : Code) (x y z : Word) (v : Vec) (p q r : Pend) (w : LoadWidth) (sw : StoreWidth) (off : BitVec 12)
    (me : Bool) (msk : BitVec 3) (c o : Nat), s.cur = some th → legalSrc a = true → s.read a noPend = .ok (x, p) → s.readIdx b p = .ok (y, q) → c ≠ s.curCore → th.cnt.cr < 6 →
    (∀ e ∈ remoteLoads w off, legalDst d = true → (legalSrc b = true ∨ (b = 63 ∧ e.1 = 3)) → th.canTake (th.dest (scalarDest d)) 1 = true →
      s.spadDecode th (effAddr x y e.2.1) w.bytes = .ok (c, o) → o % w.bytes = 0 →
      ∃ t, exec (e.2.2 d a b) s = .next t ∧ Issued s t (s.opIn th .cr [.rs] .thread ⟨(effAddr x y e.2.1).setWidth 64, spadLocs c o w.bytes, some c,
        .load w, th.dest (scalarDest d), q, holdWords (scalarDest d) false e.1, false, [], none, s.homeMsgs th (some c) w.bytes⟩) (.remoteAccessPerformed s.nextOp) 400) ∧
    (∀ e ∈ remoteStores sw off, legalSrc d = true → (legalSrc b = true ∨ (b = 63 ∧ e.1 = 3)) → s.read d q = .ok (z, r) →
      s.spadDecode th (effAddr x y e.2.1) sw.bytes = .ok (c, o) → o % sw.bytes = 0 →
      ∃ t, exec (e.2.2 d a b) s = .next t ∧ Issued s t (s.opIn th .cr [.rs] .thread ⟨(effAddr x y e.2.1).setWidth 64, spadLocs c o sw.bytes, some c,
        .store ((leBytes sw.bytes z.toNat).map some), .none, r, 0, false, [], none, s.homeMsgs th (some c) sw.bytes⟩) (.remoteAccessPerformed s.nextOp) 400) ∧
    (s.spadDecode th (effAddr x 0 off) 8 = .ok (c, o) → o % 8 = 0 →
      (legalDst d = true → th.canTake (th.dest (scalarDest d)) 1 = true →
        ∃ t, exec (.ldImm d a off) s = .next t ∧ Issued s t (s.opIn th .cr [.rs] .thread ⟨(effAddr x 0 off).setWidth 64, spadLocs c o 8, some c,
          .load .w64, th.dest (scalarDest d), p, holdWords (scalarDest d) false 1, false, [], none, s.homeMsgs th (some c) 8⟩)
          (.remoteAccessPerformed s.nextOp) 400) ∧
      (legalSrc d = true → s.read d p = .ok (z, r) →
        ∃ t, exec (.stImm d a off) s = .next t ∧ Issued s t (s.opIn th .cr [.rs] .thread ⟨(effAddr x 0 off).setWidth 64, spadLocs c o 8, some c,
          .store ((leBytes 8 z.toNat).map some), .none, r, 0, false, [], none, s.homeMsgs th (some c) 8⟩) (.remoteAccessPerformed s.nextOp) 400)) ∧
    (∀ e ∈ [(1, effAddr x y 0, Instr.ldq w d a b, Instr.stq sw d a b), (3, effAddr x y off, .ldqX w d a b off, .stqX sw d a b off)],
      (legalSrc b = true ∨ (b = 63 ∧ e.1 = 3)) →
      (isLq d = true → (th.lqOf (d.toNat - 32)).length < 32 → s.spadDecode th e.2.1 w.bytes = .ok (c, o) → o % w.bytes = 0 →
        ∃ t b, exec e.2.2.1 s = .next t ∧ Issued s t (s.opIn th .cr [.rs] .thread ⟨e.2.1.setWidth 64, spadLocs c o w.bytes, some c,
          .load w, .lq (d.toNat - 32), q, 0, false, [], none, s.homeMsgs th (some c) w.bytes⟩) (.remoteAccessPerformed s.nextOp) 400 ∧
          t.cur = some b ∧ b.lqOf (d.toNat - 32) = (th.lqOf (d.toNat - 32) ++ [LqEntry.owed s.nextOp 0]).drop (q.at (d.toNat - 32))) ∧
      (isSq d = true → (th.sqOf (d.toNat - 40)).head? = some z → s.spadDecode th e.2.1 sw.bytes = .ok (c, o) → o % sw.bytes = 0 →
        ∃ t b, exec e.2.2.2 s = .next t ∧ Issued s t (s.opIn th .cr [.rs] .thread ⟨e.2.1.setWidth 64, spadLocs c o sw.bytes, some c,
          .store ((leBytes sw.bytes z.toNat).map some), .none, q, 0, false, [], none, s.homeMsgs th (some c) sw.bytes⟩)
          (.remoteAccessPerformed s.nextOp) 400 ∧ t.cur = some b ∧ b.sqOf (d.toNat - 40) = (th.sqOf (d.toNat - 40)).drop 1)) ∧
    (∀ e ∈ [(1, effAddr x y 0, BitVec.allOnes 128, Instr.vld d a b, Instr.vst d a b),
        (3, effAddr x y off, s.laneMask me msk, .vldX d a b off me msk, .vstX d a b off me msk)],
      (legalSrc b = true ∨ (b = 63 ∧ e.1 = 3)) → s.spadDecode th e.2.1 128 = .ok (c, o) → o % 8 = 0 →
      (d.toNat < 16 → th.owes (.v d.toNat) = false →
        ∃ t, exec e.2.2.2.1 s = .next t ∧ Issued s t (s.opIn th .cr [.rs] .thread ⟨e.2.1.setWidth 64, spadLocs c o 128, some c,
          .vload e.2.2.1, .v d.toNat, q, 0, false, [], none, s.homeMsgs th (some c) 128⟩) (.remoteAccessPerformed s.nextOp) 400) ∧
      (isLq d = true → (th.lqOf (d.toNat - 32)).length ≤ 16 →
        ∃ t b, exec e.2.2.2.1 s = .next t ∧ Issued s t (s.opIn th .cr [.rs] .thread ⟨e.2.1.setWidth 64, spadLocs c o 128, some c,
          .vload e.2.2.1, .lq (d.toNat - 32), q, 0, false, [], none, s.homeMsgs th (some c) 128⟩) (.remoteAccessPerformed s.nextOp) 400 ∧
          t.cur = some b ∧ b.lqOf (d.toNat - 32) =
            (th.lqOf (d.toNat - 32) ++ (List.range 16).map (LqEntry.owed s.nextOp)).drop (q.at (d.toNat - 32))) ∧
      (legalVSrc d = true → s.readVec d q = .ok (v, r) →
        ∃ t, exec e.2.2.2.2 s = .next t ∧ Issued s t (s.opIn th .cr [.rs] .thread ⟨e.2.1.setWidth 64, spadLocs c o 128, some c,
          .store (vstoreData e.2.2.1 v), .none, r, 0, false, [], none, s.homeMsgs th (some c) 128⟩) (.remoteAccessPerformed s.nextOp) 400) ∧
      (isSq d = true → ((th.sqOf (d.toNat - 40)).take 16).length = 16 →
        ∃ t b, exec e.2.2.2.2 s = .next t ∧ Issued s t (s.opIn th .cr [.rs] .thread ⟨e.2.1.setWidth 64, spadLocs c o 128, some c,
          .store (vstoreData e.2.2.1 (wordsVec ((th.sqOf (d.toNat - 40)).take 16))), .none, q, 0, false, [], none, s.homeMsgs th (some c) 128⟩)
          (.remoteAccessPerformed s.nextOp) 400 ∧ t.cur = some b ∧ b.sqOf (d.toNat - 40) = (th.sqOf (d.toNat - 40)).drop 16))

/-- LDG, VLDG, STG and VSTG in every form issue: the access is in flight with its translated places, LD or ST has risen, and nothing is read
or written yet. A load into a register holds its instruction until the data are there, one into a queue does not.
The ck of its completion, within 1,024, is the model's choice (log 6); that a load which discards its value holds its instruction is its reading
(log 65). -/
def Obligations.GlobalAccessesIssue : Prop :=
  ∀ (s : State) (th : Thread) (d a b : Code) (x y z : Word) (v : Vec) (p q r : Pend) (w : LoadWidth) (sw : StoreWidth) (off : BitVec 12)
    (ox : OX) (me : Bool) (msk : BitVec 3) (locs : List Loc), s.cur = some th →
    legalSrc a = true → s.read a noPend = .ok (x, p) → s.readIdx b p = .ok (y, q) →
    (legalDst d = true → th.cnt.ld < 30 → th.canTake (th.dest (scalarDest d)) 1 = true →
      (∀ e ∈ globalLoads w off ox x y, (legalSrc b = true ∨ (b = 63 ∧ e.1 = 3)) →
        s.globalCheck th e.2.1 w.bytes w.bytes ⟨true, false, false⟩ = .ok locs →
        ∃ t, exec (e.2.2.2 d a b) s = .next t ∧ Issued s t (s.opIn th .ld (gaClasses e.2.2.1.ord) e.2.2.1.scope ⟨e.2.1, locs, none,
          .load w, th.dest (scalarDest d), q, e.1, false, [], none, 0⟩) (.globalAccessComplete s.nextOp) 1024) ∧
      (s.globalCheck th (x + off.signExtend 64) 8 8 ⟨true, false, false⟩ = .ok locs →
        ∃ t, exec (.ldgImm d a off) s = .next t ∧ Issued s t (s.opIn th .ld [.ga] .thread ⟨x + off.signExtend 64, locs, none,
          .load .w64, th.dest (scalarDest d), p, 1, false, [], none, 0⟩) (.globalAccessComplete s.nextOp) 1024)) ∧
    (legalSrc d = true → th.cnt.st < 30 →
      (∀ e ∈ globalStores sw off ox x y, (legalSrc b = true ∨ (b = 63 ∧ e.1 = 3)) → s.read d q = .ok (z, r) →
        s.globalCheck th e.2.1 sw.bytes sw.bytes ⟨false, true, false⟩ = .ok locs →
        ∃ t, exec (e.2.2.2 d a b) s = .next t ∧ Issued s t (s.opIn th .st (gaClasses e.2.2.1.ord) e.2.2.1.scope ⟨e.2.1, locs, none,
          .store ((leBytes sw.bytes z.toNat).map some), .none, r, 0, false, [], none, 0⟩) (.globalAccessComplete s.nextOp) 1024) ∧
      (s.read d p = .ok (z, r) → s.globalCheck th (x + off.signExtend 64) 8 8 ⟨false, true, false⟩ = .ok locs →
        ∃ t, exec (.stgImm d a off) s = .next t ∧ Issued s t (s.opIn th .st [.ga] .thread ⟨x + off.signExtend 64, locs, none,
          .store ((leBytes 8 z.toNat).map some), .none, r, 0, false, [], none, 0⟩) (.globalAccessComplete s.nextOp) 1024)) ∧
    (∀ e ∈ globalVectors d a b off ox me msk x y (s.laneMask me msk), (legalSrc b = true ∨ (b = 63 ∧ e.1 = 3)) →
      (s.globalCheck th e.2.1 128 8 ⟨true, false, false⟩ = .ok locs → th.cnt.ld < 30 →
        (d.toNat < 16 → th.owes (.v d.toNat) = false →
          ∃ t, exec e.2.2.2.2.1 s = .next t ∧ Issued s t (s.opIn th .ld (gaClasses e.2.2.1.ord) e.2.2.1.scope ⟨e.2.1, locs, none,
            .vload e.2.2.2.1, .v d.toNat, q, e.1, false, [], none, 0⟩) (.globalAccessComplete s.nextOp) 1024) ∧
        (isLq d = true → (th.lqOf (d.toNat - 32)).length ≤ 16 →
          ∃ t, exec e.2.2.2.2.1 s = .next t ∧ Issued s t (s.opIn th .ld (gaClasses e.2.2.1.ord) e.2.2.1.scope ⟨e.2.1, locs, none,
            .vload e.2.2.2.1, .lq (d.toNat - 32), q, 0, false, [], none, 0⟩) (.globalAccessComplete s.nextOp) 1024)) ∧
      (s.globalCheck th e.2.1 128 8 ⟨false, true, false⟩ = .ok locs → th.cnt.st < 30 →
        (legalVSrc d = true → s.readVec d q = .ok (v, r) →
          ∃ t, exec e.2.2.2.2.2 s = .next t ∧ Issued s t (s.opIn th .st (gaClasses e.2.2.1.ord) e.2.2.1.scope ⟨e.2.1, locs, none,
            .store (vstoreData e.2.2.2.1 v), .none, r, 0, false, [], none, 0⟩) (.globalAccessComplete s.nextOp) 1024) ∧
        (isSq d = true → ((th.sqOf (d.toNat - 40)).take 16).length = 16 →
          ∃ t c, exec e.2.2.2.2.2 s = .next t ∧ Issued s t (s.opIn th .st (gaClasses e.2.2.1.ord) e.2.2.1.scope ⟨e.2.1, locs, none,
            .store (vstoreData e.2.2.2.1 (wordsVec ((th.sqOf (d.toNat - 40)).take 16))), .none, q, 0, false, [], none, 0⟩)
            (.globalAccessComplete s.nextOp) 1024 ∧ t.cur = some c ∧ c.sqOf (d.toNat - 40) = (th.sqOf (d.toNat - 40)).drop 16)))

/-- The twenty atomics in both lengths issue with their operands read and CR raised, on a global word or on a word of a scratchpad; at the performed
point each is one action: its place holds what R270 gives, and d receives the old value, zero-extended, at once or, of a window's home core, in a
reply. An AMCAS that does not match writes nothing and wakes no thread.
The ck of the performing, within 1,024 for a global word and within the 400 of a message for a scratchpad, is left open (log 6). -/
def Obligations.AtomicsAct : Prop :=
  (∀ (s : State) (th : Thread) (d a b : Code) (x y z : Word) (p q r : Pend) (off : BitVec 12) (ox : OX) (locs : List Loc) (c o : Nat),
    s.cur = some th →
    legalSrc a = true → legalSrc b = true → s.read a noPend = .ok (x, p) → s.read b p = .ok (y, q) → th.cnt.cr < 6 →
    th.canTake (th.dest (scalarDest d)) 1 = true →
    ∀ e ∈ atomics, ∀ g ∈ [(1, 0, OX.plain, e.2.2.1 d a b), (3, off, ox, e.2.2.2 d a b off ox)],
      (if e.1 = .cas then legalBoth d = true ∧ s.read d q = .ok (z, r) else legalDst d = true ∧ z = 0 ∧ r = q) →
      (wordField (x + g.2.1.signExtend 64) 32 32 ≠ 2 ^ 32 - 1 →
        s.globalCheck th (x + g.2.1.signExtend 64) e.2.1 e.2.1 ⟨true, true, false⟩ = .ok locs →
        ∃ t, exec g.2.2.2 s = .next t ∧ Issued s t (s.opIn th .cr (gaClasses g.2.2.1.ord) g.2.2.1.scope ⟨x + g.2.1.signExtend 64, locs, none,
          .atomic e.1 (y.toNat % 2 ^ (8 * e.2.1)) (z.toNat % 2 ^ (8 * e.2.1)), th.dest (scalarDest d), r, holdWords (scalarDest d) false g.1,
          false, [], none, 0⟩) (.globalAccessComplete s.nextOp) 1024) ∧
      (wordField (x + g.2.1.signExtend 64) 32 32 = 2 ^ 32 - 1 →
        s.spadDecode th ((x + g.2.1.signExtend 64).setWidth 32) e.2.1 = .ok (c, o) → o % e.2.1 = 0 →
        ∃ t, exec g.2.2.2 s = .next t ∧ Issued s t (s.opIn th .cr (windowClasses (c == s.curCore) g.2.2.1.ord) g.2.2.1.scope
          ⟨x + g.2.1.signExtend 64, spadLocs c o e.2.1, some c, .atomic e.1 (y.toNat % 2 ^ (8 * e.2.1)) (z.toNat % 2 ^ (8 * e.2.1)),
          th.dest (scalarDest d), r, holdWords (scalarDest d) false g.1, false, [], none, s.homeMsgs th (some c) e.2.1⟩) (.remoteAccessPerformed s.nextOp) 400)) ∧
  (∀ (s : State) (i : Nat) (o : Op) (a : Access) (th : Thread) (op : AtomicOp) (v e k : Nat), s.Canonical → tabGet s.ops i = some o →
    o.kind = .access a → a.home = none → a.performed = false → s.away o = false → s.mayPerform i o a = true → a.act = .atomic op v e →
    s.thread o.core o.slot = some th → k < 32 → a.dest = .w k → a.words = 0 → a.locs.Nodup → (∀ x ∈ s.late, x.next ≤ i) →
    (∀ l ∈ a.locs, l.glob = true ∧ s.poisoned l = false) → v < 2 ^ (8 * a.locs.length) → e < 2 ^ (8 * a.locs.length) →
    ∃ t b, exec (.globalAccessComplete i) s = .next t ∧ Completed s t i o th b ∧ b.pc = th.pc ∧
      leNat (a.locs.map t.readLoc) = atomicSpec op a.locs.length (leNat (a.locs.map s.readLoc)) v e ∧
      (∀ l, l.glob = true → l ∉ a.locs → t.readLoc l = s.readLoc l) ∧
      t.regAt o.core th k = BitVec.ofNat 64 (leNat (a.locs.map s.readLoc)) ∧
      (op = .cas → leNat (a.locs.map s.readLoc) ≠ e → t.dram = s.dram ∧ t.poisonD = s.poisonD ∧
        ∀ ck x y, (ck, Instr.parkWake x y) ∈ t.agenda → (ck, Instr.parkWake x y) ∈ s.agenda)) ∧
  (∀ (s : State) (i : Nat) (o : Op) (a : Access) (th : Thread) (op : AtomicOp) (v e c : Nat), s.Canonical → tabGet s.ops i = some o →
    o.kind = .access a → a.home = some c → a.performed = false → s.away o = false → s.homeLocs o.node a.locs = some a.locs →
    s.mayPerform i o a = true → s.nodeHolds o.node (s.writesNow a) a.locs = false → a.act = .atomic op v e → s.thread o.core o.slot = some th →
    a.locs.Nodup → (∀ l ∈ a.locs, l.glob = false ∧ s.poisoned l = false) → v < 2 ^ (8 * a.locs.length) → e < 2 ^ (8 * a.locs.length) →
    ∃ t, exec (.remoteAccessPerformed i) s = .next t ∧
      leNat (a.locs.map t.readLoc) = atomicSpec op a.locs.length (leNat (a.locs.map s.readLoc)) v e ∧
      (∀ l, l ∉ a.locs → t.readLoc l = s.readLoc l) ∧
      (a.dest = .none → a.words = 0 → ∃ b, Completed s t i o th b ∧ b.pc = th.pc ∧ b.faults = th.faults) ∧
      (a.dest ≠ .none → t.thread o.core o.slot = some th ∧
        tabGet t.ops i = some { o with kind := .access { a with performed := true, value := a.locs.map s.readLoc, err := none } } ∧
        ∃ ck, s.clk < ck ∧ ck ≤ s.clk + 400 ∧ (ck, .remoteReply i) ∈ t.agenda) ∧
      (op = .cas → leNat (a.locs.map s.readLoc) ≠ e → t.spad = s.spad ∧ t.poisonS = s.poisonS ∧
        ∀ ck x y, (ck, Instr.parkWake x y) ∈ t.agenda → (ck, Instr.parkWake x y) ∈ s.agenda))

/-- A global access completes: a load reads its places, and its value reaches its register, where its instruction then retires, or its
entries of a queue; of a vector the enabled lanes do, a register's others staying and a queue's being 0; a store writes its enabled bytes and no other;
the class counter falls. A load that meets an uncorrectable error takes the data-error trap with the address of the first bad byte; one into a queue
fills its entries with 0 and leaves the fault to be reported.
The load of a gang's member is performed and then waits for those of the others;
that a later store to the register overtakes
the load's value is the model's reading (log 5). -/
def Obligations.GlobalAccessesComplete : Prop :=
  ∀ (s : State) (i : Nat) (o : Op) (a : Access) (th : Thread), tabGet s.ops i = some o →
    o.kind = .access a → a.home = none → a.performed = false → s.away o = false → s.mayPerform i o a = true →
    s.thread o.core o.slot = some th →
    (s.gangHeldOp o a = true → ∀ w p, a.act = .load w → p = { a with performed := true, value := a.locs.map s.readLoc, err := s.firstBad a.locs a.act } →
      ({ s with ops := tabSet s.ops i { o with kind := .access p } } : State).gangLoads o.core o.slot = none →
      ∃ t, exec (.globalAccessComplete i) s = .next t ∧ tabGet t.ops i = some { o with kind := .access p } ∧
        t.thread o.core o.slot = some th ∧ t.spad = s.spad ∧ t.dram = s.dram) ∧
    (s.gangHeldOp o a = false →
    (∀ w k, a.act = .load w → (∀ l ∈ a.locs, s.poisoned l = false) → s.Canonical → k < 32 → a.dest = .w k → a.words ≠ 0 →
      (∀ x ∈ s.late, x.next ≤ i) →
      ∃ t b, exec (.globalAccessComplete i) s = .next t ∧ Completed s t i o th b ∧
        b.pc = th.pc + BitVec.ofNat 64 (4 * a.words) ∧ b.run = .ready ∧
        t.regAt o.core th k = loadSpec w (a.locs.map s.readLoc) ∧ t.dram = s.dram) ∧
    (∀ w k, a.act = .load w → (∀ l ∈ a.locs, s.poisoned l = false) → k < 32 → a.dest = .h k → a.words ≠ 0 →
      ∃ t b, exec (.globalAccessComplete i) s = .next t ∧ Completed s t i o th b ∧
        b.pc = th.pc + BitVec.ofNat 64 (4 * a.words) ∧ b.bank[k]? = some (loadSpec w (a.locs.map s.readLoc)) ∧ t.dram = s.dram ∧ t.spad = s.spad) ∧
    (∀ w q, a.act = .load w → (∀ l ∈ a.locs, s.poisoned l = false) → q < 4 → a.dest = .lq q → a.words = 0 →
      ∃ t b, exec (.globalAccessComplete i) s = .next t ∧ Completed s t i o th b ∧ b.pc = th.pc ∧
        b.lqOf q = fillLq i [loadSpec w (a.locs.map s.readLoc)] (th.lqOf q) ∧ t.dram = s.dram ∧ t.spad = s.spad) ∧
    (∀ m, a.act = .vload m → (∀ l ∈ touched a.locs a.act, s.poisoned l = false) →
      (∀ k, s.Canonical → k < 16 → a.dest = .v k → a.words ≠ 0 → (∀ x ∈ s.late, x.next ≤ i) →
        ∃ t b, exec (.globalAccessComplete i) s = .next t ∧ Completed s t i o th b ∧ b.pc = th.pc + BitVec.ofNat 64 (4 * a.words) ∧ b.run = .ready ∧
          t.dram = s.dram ∧ ∀ j < 128, t.vByte o.core th k j = if m.getLsbD j = true then (a.locs.map s.readLoc).getD j 0 else s.vByte o.core th k j) ∧
      (∀ q, q < 4 → a.dest = .lq q → a.words = 0 →
        ∃ t b ws, exec (.globalAccessComplete i) s = .next t ∧ Completed s t i o th b ∧ b.pc = th.pc ∧ laneWords m (a.locs.map s.readLoc) ws ∧
          b.lqOf q = fillLq i ws (th.lqOf q) ∧ t.dram = s.dram ∧ t.spad = s.spad)) ∧
    (∀ j q, ((∃ w, a.act = .load w) ∨ ∃ m, a.act = .vload m) → q < 4 → a.dest = .lq q → a.words = 0 → s.firstBad a.locs a.act = some j →
      ∃ t b, exec (.globalAccessComplete i) s = .next t ∧ Completed s t i o th b ∧ b.pc = th.pc ∧ b.lqOf q = fillLq i [] (th.lqOf q) ∧
        b.faults = th.faults ++ [⟨i, o.cls, o.tag, 8, 0, a.addr + BitVec.ofNat 64 j⟩] ∧ t.spad = s.spad) ∧
    (∀ d, a.act = .store d → a.dest = .none → a.words = 0 →
      ∃ t b, exec (.globalAccessComplete i) s = .next t ∧ Completed s t i o th b ∧ b.pc = th.pc ∧
        (∀ l, t.readLoc l = (s.putLocs (storePairs a.locs d)).readLoc l) ∧
        (∀ l, l ∉ a.locs → t.readLoc l = s.readLoc l)) ∧
    ((∃ w, a.act = .load w) → a.words ≠ 0 → o.cls = .ld → th.handler = false →
      ∀ j, s.firstBad a.locs a.act = some j →
        ∃ t b, exec (.globalAccessComplete i) s = .next t ∧ t.thread o.core o.slot = some b ∧ b.handler = true ∧
          wordField b.tstat 16 8 = 8 ∧ b.taddr = a.addr + BitVec.ofNat 64 j)) ∧
    (∀ (ws : List Word) (l : List LqEntry) (n : Nat), ((fillLq i ws l)[n]? : Option LqEntry) = (l[n]?).map (fun e => match e with
      | .owed j k => if j = i then .data (ws.getD k 0) else e
      | .data _ => e))

/-- A remote access is performed at its home core, where a store is complete and a load's value leaves in a reply; the reply delivers a load's value, or
an atomic's old one, to its register of the workspace or of the handler bank, to its entries of a queue, or the enabled lanes to a v register, and CR
falls. A poisoned unit that was met fills a queue's entries, and d of an atomic, with 0 and leaves the fault to be reported.
The ck of the reply, within the 400 of a message between cores, is left open (log 6). -/
def Obligations.RemoteAccessesPerform : Prop :=
  ∀ (s : State) (i : Nat) (o : Op) (a : Access) (th : Thread) (c : Nat), tabGet s.ops i = some o →
    o.kind = .access a → a.home = some c → s.away o = false → s.thread o.core o.slot = some th →
    (a.performed = false → s.homeLocs o.node a.locs = some a.locs → s.mayPerform i o a = true →
      s.nodeHolds o.node (s.writesNow a) (touched a.locs a.act) = false →
      (∀ d, a.act = .store d → a.dest = .none → a.words = 0 →
        ∃ t b, exec (.remoteAccessPerformed i) s = .next t ∧ Completed s t i o th b ∧ b.pc = th.pc ∧
          (∀ l, t.readLoc l = (s.putLocs (storePairs a.locs d)).readLoc l)) ∧
      (∀ w, a.act = .load w → (∀ l ∈ a.locs, s.poisoned l = false) →
        ∃ t ck, exec (.remoteAccessPerformed i) s = .next t ∧ t.spad = s.spad ∧ t.dram = s.dram ∧
          t.ops = tabSet s.ops i { o with kind := .access { a with performed := true, value := a.locs.map s.readLoc, err := none } } ∧
          s.clk < ck ∧ ck ≤ s.clk + 400 ∧ t.agenda = s.agenda ++ [(ck, .remoteReply i)])) ∧
    (∀ w k, a.performed = true → a.err = none → a.act = .load w → s.Canonical → k < 32 → a.dest = .w k → a.words = 0 →
      (∀ x ∈ s.late, x.next ≤ i) →
      ∃ t b, exec (.remoteReply i) s = .next t ∧ Completed s t i o th b ∧ b.pc = th.pc ∧
        t.regAt o.core th k = loadSpec w a.value) ∧
    (a.performed = true → a.err = none → ((∃ w, a.act = .load w) ∨ ∃ op v e, a.act = .atomic op v e) →
      (∀ k, s.Canonical → k < 32 → a.dest = .w k → a.words = 0 → (∀ x ∈ s.late, x.next ≤ i) →
        ∃ t b, exec (.remoteReply i) s = .next t ∧ Completed s t i o th b ∧ b.pc = th.pc ∧ t.regAt o.core th k = a.act.gives a.value) ∧
      (∀ k, k < 32 → a.dest = .h k → a.words = 0 →
        ∃ t b, exec (.remoteReply i) s = .next t ∧ Completed s t i o th b ∧ b.pc = th.pc ∧ b.bank[k]? = some (a.act.gives a.value) ∧ t.spad = s.spad) ∧
      (∀ q, q < 4 → a.dest = .lq q → a.words = 0 →
        ∃ t b, exec (.remoteReply i) s = .next t ∧ Completed s t i o th b ∧ b.pc = th.pc ∧
          b.lqOf q = fillLq i [a.act.gives a.value] (th.lqOf q) ∧ t.spad = s.spad) ∧
      (∀ j, j < 2 → a.dest = .sq j → a.words ≠ 0 →
        ∃ t b, exec (.remoteReply i) s = .next t ∧ Completed s t i o th b ∧ b.pc = th.pc + BitVec.ofNat 64 (4 * a.words) ∧ b.run = .ready ∧
          b.sqOf j = th.sqOf j ++ [a.act.gives a.value] ∧ t.spad = s.spad)) ∧
    (∀ m, a.performed = true → a.err = none → a.act = .vload m → a.words = 0 →
      (∀ k, s.Canonical → k < 16 → a.dest = .v k → s.destAway o a.dest = false → (∀ x ∈ s.late, x.next ≤ i) →
        ∃ t b, exec (.remoteReply i) s = .next t ∧ Completed s t i o th b ∧ b.pc = th.pc ∧
          ∀ j < 128, t.vByte o.core th k j = if m.getLsbD j = true then a.value.getD j 0 else s.vByte o.core th k j) ∧
      (∀ q, q < 4 → a.dest = .lq q →
        ∃ t b ws, exec (.remoteReply i) s = .next t ∧ Completed s t i o th b ∧ b.pc = th.pc ∧ laneWords m a.value ws ∧
          b.lqOf q = fillLq i ws (th.lqOf q) ∧ t.spad = s.spad)) ∧
    (∀ j, a.performed = true → a.err = some j → a.words = 0 → s.destAway o a.dest = false →
      ∃ t b, exec (.remoteReply i) s = .next t ∧ Completed s t i o th b ∧ b.pc = th.pc ∧
        b.faults = th.faults ++ [⟨i, o.cls, o.tag, 8, 0, a.addr + BitVec.ofNat 64 j⟩] ∧
        (∀ q, q < 4 → a.dest = .lq q → b.lqOf q = fillLq i [] (th.lqOf q)) ∧
        (∀ k op v e, s.Canonical → k < 32 → a.dest = .w k → a.act = .atomic op v e → (∀ x ∈ s.late, x.next ≤ i) → t.regAt o.core th k = 0))

/-! ## Fences, parking, waiting, copies -/

/-- PREF and FLSH retire and move a line at most. FENCE waits while an operation of a class that it names is outstanding, and passes while only
operations of other classes are; a set of 0 names all. PARK retires when its word
differs from its operand and else Parks; a wake retires it, and a performed write to a 128-byte unit puts the wake of every thread that is Parked on
it on the agenda, 4 ck on. WAIT makes its thread Waiting; its core arrives when every thread of the node there is Waiting with its counters at zero
and its accesses performed. -/
def Obligations.FencesParksWakesAndWaits : Prop :=
  (∀ (s : State) (th : Thread) (a b : Code) (x y : Word) (p q : Pend) (off : BitVec 12) (sc : Scope) (set : BitVec 6), s.cur = some th →
      legalSrc a = true → s.read a noPend = .ok (x, p) → s.readIdx b p = .ok (y, q) →
      (∀ e ∈ [(1, Instr.pref a b), (1, .flsh a b), (3, .prefX a b off), (3, .flshX a b off)], (legalSrc b = true ∨ (b = 63 ∧ e.1 = 3)) →
        ∃ v, CachesOnly s v ∧ exec e.2 s = .next (v.retire q e.1)) ∧
      ((∃ k < 6, (set = 0 ∨ set.getLsbD k = true) ∧ s.outstanding th k) → exec (.fence sc set) s = .next (s.waiting .retry)) ∧
      ((∀ k < 6, set = 0 ∨ set.getLsbD k = true → ¬ s.outstanding th k) → exec (.fence sc set) s = .next (s.retire noPend 1)) ∧
      (∀ l ls, legalSrc b = true → wordField x 32 32 = 2 ^ 32 - 1 → s.parkPlace th x = .ok (l :: ls) → s.readWaits (l :: ls) = false →
        s.mustWait s.curCore s.curSlot (parkView (l :: ls)) = false → (∀ k ∈ l :: ls, s.poisoned k = false) →
        exec (.park a b) s = .next (if BitVec.ofNat 64 (leNat ((l :: ls).map s.readLoc)) = y
          then s.modCur (fun c => { c with run := .parked l.glob (l.key / 128), pend := q }) else s.retire q 1)) ∧
      (∀ l ls, legalSrc b = true → wordField x 32 32 ≠ 2 ^ 32 - 1 → s.globalCheck th x 8 8 ⟨true, false, false⟩ = .ok (l :: ls) →
        s.readWaits (l :: ls) = false → s.mustWait s.curCore s.curSlot (parkView (l :: ls)) = false → (∀ k ∈ l :: ls, s.poisoned k = false) →
        ∃ v, CachesOnly s v ∧ exec (.park a b) s = .next (if BitVec.ofNat 64 (leNat ((l :: ls).map s.readLoc)) = y
          then v.modCur (fun c => { c with run := .parked l.glob (l.key / 128), pend := q }) else v.retire q 1)) ∧
      (∀ c t g u (k : Thread), s.thread c t = some k → k.run = .parked g u →
        exec (.parkWake c t) s = .next (s.setThread c t (k.retire k.pend 1))) ∧
      (exec .wait s = .next ((s.modCur (fun c => { c with run := .waiting })).arrivalTry s.curCore th.node))) ∧
  (∀ (s : State) (core node : Nat), s.arrives core node = true ↔
    (∃ j k, s.thread core j = some k ∧ k.node = node) ∧
      ∀ j k, s.thread core j = some k → k.node = node → k.run = .waiting ∧ k.cnt = ⟨0, 0, 0, 0, 0⟩ ∧ s.allSettled core j = true) ∧
  (∀ (s : State) (ws : List (Loc × Byte)) (w : Loc × Byte) (c t : Nat) (k : Core) (th : Thread), w ∈ ws → (c, k) ∈ s.cores →
      k.thread t = some th → th.run = .parked w.1.glob (w.1.key / 128) →
      ∃ e ∈ (s.storeLocs ws).agenda, e.2 = .parkWake c t ∧ (e ∈ s.agenda ∨ e.1 = s.clk + 4))

/-- CPY reads its descriptor from the own scratchpad, and EXCH its segment of the plan store; both issue a copy of the runs, with CP raised and
nothing copied yet. A one-dimensional global copy is one run. A bad EXCH index takes the copy trap.
The ck of the registration, within 1,024, is the model's choice (log 6); the name of an exchange's source bytes is its reading (log 66). -/
def Obligations.CopiesIssue : Prop :=
  (∀ (s : State) (th : Thread) (a b : Code) (x y : Word) (p q : Pend) (off : Nat) (ctrl bytes : List Byte) (runs : List CopyRun),
    s.cur = some th → legalSrc a = true → s.read a noPend = .ok (x, p) → th.cnt.cp < 120 → s.couchLoad s.curCore < 120 →
    s.allSettled s.curCore s.curSlot = true →
    (legalSrc b = true → s.read b p = .ok (y, q) → s.spadDecode th (x.setWidth 32) 8 = .ok (s.curCore, off) → off % 8 = 0 →
      s.localRead s.curCore off 8 = .ok ctrl → off + (32 + 24 * (leNat ctrl % 16)) ≤ 0x40000 →
      s.localRead s.curCore off (32 + 24 * (leNat ctrl % 16)) = .ok bytes →
      (CopyDescr.ofBytes bytes).checked (s.vdOf th) (some s.curCore) = .ok runs →
      ∃ t, exec (.cpy a b) s = .next t ∧ Issued s t ⟨s.curCore, s.curSlot, th.node, .cp, y.toNat % 65536, [.en], .thread,
        .copy ⟨false, runs, false, [], [], [], [], none, bytes⟩⟩ (.copyRegistration s.nextOp) 1024) ∧
    (∀ rs, x.toNat ≤ 255 → planSegment (s.core s.curCore).plan x.toNat (256 - x.toNat) = some rs →
      s.planBad s.curCore x.toNat rs.length = false → (∀ r ∈ rs, r.legal (s.node th.node) (s.vdOf th) = true) →
      ∃ t, exec (.exch a) s = .next t ∧ Issued s t ⟨s.curCore, s.curSlot, th.node, .cp, th.tag, [.en], .thread,
        .copy ⟨true, rs.map (fun r => ⟨false, spadKey s.curCore r.soff, false, spadKey ((s.vdOf th).qbase + r.dh) r.doff, r.len,
          BitVec.ofNat 64 (2 ^ 30 + r.soff)⟩), false, [], [], [], [], none, []⟩⟩ (.copyRegistration s.nextOp) 1024) ∧
    (255 < x.toNat → exec (.exch a) s = .next (s.trapCur .copy 3 0))) ∧
  (∀ (s : State) (c off n : Nat), s.readWaits (spadLocs c off n) = false → (∀ l ∈ spadLocs c off n, s.poisoned l = false) →
    s.localRead c off n = .ok (memBytes s.spad (spadKey c off) n)) ∧
  (∀ (d : CopyDescr) (v : Vd) (own : Option Nat) (n : Nat), d.formed = true → d.sg = true → d.dg = true → d.dims = [(n, 0, 0)] →
    d.src + n ≤ 2 ^ 47 → d.dst + n ≤ 2 ^ 47 → d.checked v own = .ok [⟨true, d.src, true, d.dst, n, BitVec.ofNat 64 d.src⟩])

/-- A copy registers when no engine holds its bytes: its sources are captured then, so that later stores to them do not matter. Each chunk is
written to its places, and the last one completes the copy; a core that the stop tree has halted registers and moves nothing. A page that is gone ends it with a fault to report and nothing written; a source byte
in error is reported when it completes.
Chunks of one run and the address reported are the model's reading (log 26), the ck of the end its choice (log 6). -/
def Obligations.CopiesRegisterAndMove : Prop :=
  ∀ (s : State) (i : Nat) (o : Op) (c : Copy) (th : Thread), tabGet s.ops i = some o → o.kind = .copy c → s.away o = false →
    s.thread o.core o.slot = some th →
    (∀ raw, c.registered = false → c.err = none → s.copyStops o = false → c.runs.mapM (s.runPairs (s.node o.node)) = .ok raw →
      raw.mapM (s.homePairs o.node) = some raw →
      (∀ l ∈ raw, ∀ x ∈ l, s.held x.1 = false ∧ s.held x.2.1 = false ∧ s.readHeld x.2.1 = false ∧ s.poisoned x.1 = false) →
      s.nodeHolds o.node false (raw.flatten.map (·.1)) = false → s.nodeHolds o.node true (raw.flatten.map (·.2.1)) = false →
      ∃ t chs srcs clss msgs, exec (.copyRegistration i) s = .next t ∧
        tabGet t.ops i = some { o with kind := .copy ⟨c.exch, [], true, chs, srcs, clss, msgs, none, c.descr⟩ } ∧
        chs.flatten = raw.flatten.map (fun x => (x.2.1, s.readLoc x.1)) ∧ (∀ ch ∈ chs, ch.length ≤ 128) ∧
        srcs.flatten = raw.flatten.map (·.1) ∧ srcs.length = chs.length ∧
        t.agenda = s.agenda ++ [(s.clk + 2, .copyChunk i)] ∧ t.spad = s.spad ∧ t.dram = s.dram) ∧
    (∀ k a, c.registered = false → c.err = none → s.copyStops o = false → c.runs.mapM (s.runPairs (s.node o.node)) = .error (k, a) → (s.node o.node).copy = none →
      ∃ t b, exec (.copyRegistration i) s = .next t ∧ Completed s t i o th b ∧ b.faults = th.faults ++ [⟨i, o.cls, o.tag, k.kind, 0, a⟩] ∧
        t.spad = s.spad ∧ t.dram = s.dram) ∧
    (∀ ch rest, c.registered = true → c.chunks = ch :: rest → s.copyStops o = false → s.homeLocs o.node (ch.map (·.1)) = some (ch.map (·.1)) →
      ∃ t, exec (.copyChunk i) s = .next t ∧
        tabGet t.ops i = some { o with kind := .copy { c with chunks := rest, srcs := c.srcs.tail, clss := c.clss.tail, msgs := c.msgs.tail } } ∧
        (∀ l, t.readLoc l = (s.putLocs ch).readLoc l) ∧ (∃ ck, s.clk < ck ∧ (ck, Instr.copyChunk i) ∈ t.agenda)) ∧
    (s.copyStops o = true → (c.registered = true → c.chunks ≠ [] → exec (.copyChunk i) s = .next (s.due (s.clk + 1) (.copyChunk i))) ∧
      (c.registered = false → c.err = none → exec (.copyRegistration i) s = .next (s.due (s.clk + 1) (.copyRegistration i)))) ∧
    (c.registered = true → c.chunks = [] → ∃ ck, s.clk < ck ∧ ck ≤ s.clk + 1024 ∧
      exec (.copyChunk i) s = .next { s with agenda := s.agenda ++ [(ck, .copyComplete i)], fresh := s.fresh + 1 }) ∧
    (c.registered = true → c.chunks = [] → c.err = none →
      ∃ t b, exec (.copyComplete i) s = .next t ∧ Completed s t i o th b ∧ b.faults = th.faults ∧ t.spad = s.spad ∧ t.dram = s.dram) ∧
    (∀ a, c.registered = true → c.chunks = [] → c.err = some a → (s.node o.node).copy = none →
      ∃ t b, exec (.copyComplete i) s = .next t ∧ Completed s t i o th b ∧ b.faults = th.faults ++ [⟨i, o.cls, o.tag, 8, 0, a⟩])

/-! ## Collectives and fabric -/

/-- ARED, RSCT, AGTH, ATOA and BCST of a member over a group that its format divides, and ORED of two frames that pass the frame check, issue
with CR raised; a core that is no member takes the collective trap, cause 1, and a group that does not divide the elements cause 2.
That a delivery is looked at within 64 ck is the model's choice (log 6). -/
def Obligations.CollectivesIssue : Prop :=
  ∀ (s : State) (th : Thread) (d a : Code) (fmto : BitVec 5) (mode : CollMode) (gid : BitVec 8) (root : BitVec 12) (v : Vec) (p : Pend)
    (fm : Fmt) (ms : List Nat), s.cur = some th →
    (∀ e ∈ collectives d a fmto mode gid root, legalVSrc a = true → s.readVec a noPend = .ok (v, p) → (d.toNat < 16 ∨ d = 42) →
      e.2.1 (effective th fmto) = true → Fmt.ofCode (effective th fmto) = some fm →
      (e.1 = .bcst → (s.node th.node).desc.hLo ≤ root.toNat ∧ root.toNat ≤ (s.node th.node).desc.hHi) →
      (s.collMembers th gid.toNat = none → exec e.2.2.2.2 s = .next (s.trapCur .collective 1 0)) ∧
      (s.collMembers th gid.toNat = some ms →
        (collDivides e.1 = true → elemCount fm.width % ms.length ≠ 0 → exec e.2.2.2.2 s = .next (s.trapCur .collective 2 0)) ∧
        ((collDivides e.1 = true → elemCount fm.width % ms.length = 0) →
          (e.1 = .bcst → root.toNat + (s.vdOf th).qbase ∉ ms → exec e.2.2.2.2 s = .next (s.trapCur .collective 3 0)) ∧
          ((e.1 = .bcst → root.toNat + (s.vdOf th).qbase ∈ ms) → th.cnt.cr < 6 → s.allSettled s.curCore s.curSlot = true →
            (d.toNat < 16 → th.owes (.v d.toNat) = false) →
            ∃ t, exec e.2.2.2.2 s = .next t ∧ Issued s t ⟨s.curCore, s.curSlot, th.node, .cr, th.tag, [.xr], .thread,
              .coll ⟨e.1, fmto.toNat, effective th fmto, e.2.2.1, gid.toNat, e.2.2.2.1, 0, v, 0, 0,
                if d.toNat < 16 then .v d.toNat else .none, ms,
                s.msgsTo th.node s.curCore (if e.1 = .ared ∧ mode = .comp ∨ e.1 = .rsct ∧ mode = .comp then 256 else 128), none⟩⟩ (.collectiveDelivery s.nextOp) 64)))) ∧
    (∀ x y q f w, legalSrc d = true → legalSrc a = true → s.read a noPend = .ok (x, p) → s.read d p = .ok (y, q) →
      ((s.node th.node).desc.hLo ≤ root.toNat ∧ root.toNat ≤ (s.node th.node).desc.hHi) →
      s.collMembers th gid.toNat = some ms → root.toNat + (s.vdOf th).qbase ∈ ms →
      s.wmAddr th x = .ok f → s.wmAddr th y = .ok w →
      s.frameCheck (Sig.of th.sigd) [(f, (Sig.of th.sigd).bytes), (w, (Sig.of th.sigd).bytes)]
        (Range.meets (f, (Sig.of th.sigd).bytes) (w, (Sig.of th.sigd).bytes)) false 0 = .ok () →
      th.cnt.cr < 6 → s.allSettled s.curCore s.curSlot = true →
      ∃ t, exec (.ored d a gid root) s = .next t ∧ Issued s t ⟨s.curCore, s.curSlot, th.node, .cr, th.tag, [.xr], .thread,
        .coll ⟨.ored, 0, 0, .wrap, gid.toNat, root.toNat, th.sigd, 0, f, w, .none, ms,
          s.msgsTo th.node s.curCore (Sig.of th.sigd).bytes, none⟩⟩ (.collectiveDelivery s.nextOp) 64)

/-- Until every member has issued, a delivery is tried again within 64 ck; then each member's operation holds its result, or cause 4 where members
disagree or one has left, and its delivery writes its v register, or notes its fault, and CR falls. A gather gives member k's first elements in
block k, an all-to-all this member's block of each, a broadcast the root's value; a reduction combines the members' elements, one that scatters gives
this member's block and zero beyond it; ORED of two members joins the higher frame into the lower. Integers are added modulo 2^w or with the clamp; max
and min choose an element that none exceeds, maxi and mini a pair, and of equal ones that of the smaller index; two FP32 values with a finite sum are
added with their compensation (comp).
The 64 ck are the model's choice (log 6). -/
def Obligations.CollectivesDeliver : Prop :=
  (∀ (s : State) (i : Nat) (o : Op) (c : Coll) (th : Thread), tabGet s.ops i = some o → o.kind = .coll c → s.away o = false →
    s.thread o.core o.slot = some th →
    (s.olderColl i o c.gid = true → exec (.collectiveDelivery i) s = .next (s.dueWithin 64 (.collectiveDelivery i))) ∧
    (s.olderColl i o c.gid = false →
      (c.result = none → exec (.collectiveDelivery i) s =
        .next (((s.resolveColl o.node (s.vd (s.node o.node).vd).qbase c).getD s).dueWithin 64 (.collectiveDelivery i))) ∧
      (s.destWaits o c.dest = false →
        (∀ v k, c.result = some (v, none) → c.dest = .v k → k < 16 → s.Canonical →
          ∃ t b, exec (.collectiveDelivery i) s = .next t ∧ Completed s t i o th b ∧ b.pc = th.pc ∧
            memBytes t.spad (spadKey o.core (th.wp + 256 + 128 * k)) 128 = leBytes 128 v.toNat ∧ t.dram = s.dram) ∧
        (∀ v k code addr, c.result = some (v, some (k, code, addr)) →
          ∃ t b, exec (.collectiveDelivery i) s = .next t ∧ Completed s t i o th b ∧
            b.faults = th.faults ++ [⟨i, o.cls, o.tag, k.kind, code, addr⟩] ∧ t.spad = s.spad)))) ∧
  (∀ (s : State) (node qbase : Nat) (c : Coll) (found : List (Nat × Nat × Op × Coll)), s.collFound node c = some found →
    (found.map (fun x => x.2.1)).Nodup →
    ((found.length < c.members.length ∨ (∃ x ∈ found, x.2.2.2.agrees c = false)) →
      ∃ u, s.resolveColl node qbase c = some u ∧ u.spad = s.spad ∧ ∀ x ∈ found, tabGet u.ops x.2.1 =
        some { x.2.2.1 with kind := .coll { x.2.2.2 with result := some (0, some (.collective, 4, 0)) } }) ∧
    (c.members.length ≤ found.length → (∀ x ∈ found, x.2.2.2.agrees c = true) →
      (∀ fm, c.op ≠ .ored → Fmt.ofCode c.fmt = some fm →
        ∃ u, s.resolveColl node qbase c = some u ∧ u.spad = s.spad ∧ ∀ (r : Nat) (x : Nat × Nat × Op × Coll), found[r]? = some x → tabGet u.ops x.2.1 =
          some { x.2.2.1 with kind := .coll { x.2.2.2 with result := some ((collValue c fm (c.members.findIdx (· == c.root + qbase))
            (found.map (fun y => y.2.2.2.val)) s.fresh r).1, none) } }) ∧
      (∀ m n g run t, c.op = .ored → g = Sig.of c.sigd → found = [m, n] → m.1 = c.root + qbase →
        s.homeLocs node (oredKeys g (m.1, m.2.2.2) ++ oredKeys g (n.1, n.2.2.2)) = some (oredKeys g (m.1, m.2.2.2) ++ oredKeys g (n.1, n.2.2.2)) →
        s.anyHeldW (oredKeys g (m.1, m.2.2.2) ++ oredKeys g (n.1, n.2.2.2)) = false →
        s.nodeHolds node true (oredKeys g (m.1, m.2.2.2) ++ oredKeys g (n.1, n.2.2.2)) = false →
        t = s.frameStore node m.1 m.2.2.2.area (s.frameBytes node n.1 n.2.2.2.frame g.bytes) →
        run = wmJoin g (t.memberSrc node m.1) m.2.2.2.frame m.2.2.2.frame m.2.2.2.area →
        ∃ u, s.resolveColl node qbase c = some u ∧
          (∀ l, u.readLoc l = (t.homeStore node 0 ((run.bytes m.1).map (fun (k, b) => (⟨false, k⟩, b)))).readLoc l) ∧
          (run.bad = none → ∀ x ∈ found, tabGet u.ops x.2.1 = some { x.2.2.1 with kind := .coll { x.2.2.2 with result := some (0, none) } })))) ∧
  (∀ (c : Coll) (fm : Fmt) (root r f i : Nat) (vs : List Vec), fm.width ∈ [8, 16, 32, 64] → i < 1024 / fm.width → 0 < vs.length →
    vs.length ∣ 1024 / fm.width →
    (c.op = .rsct → elem (collValue c fm root vs f r).1 fm.width i = if i < 1024 / fm.width / vs.length
      then elem (combineVec c.mode fm vs f).1 fm.width (r * (1024 / fm.width / vs.length) + i) else 0) ∧
    (c.op = .agth → elem (collValue c fm root vs f r).1 fm.width i =
      elem (vs.getD (i / (1024 / fm.width / vs.length)) 0) fm.width (i % (1024 / fm.width / vs.length))) ∧
    (c.op = .atoa → elem (collValue c fm root vs f r).1 fm.width i =
      elem (vs.getD (i / (1024 / fm.width / vs.length)) 0) fm.width (r * (1024 / fm.width / vs.length) + i % (1024 / fm.width / vs.length))) ∧
    (c.op = .bcst → (collValue c fm root vs f r).1 = vs.getD root 0) ∧
    (c.op = .ared → (collValue c fm root vs f r).1 = (combineVec c.mode fm vs f).1)) ∧
  (∀ (mode : CollMode) (fm : Fmt) (f i : Nat) (vs : List Vec), fm.width ∈ [8, 16, 32, 64] → i < 1024 / fm.width →
    (mode ∉ [CollMode.maxi, .mini] →
      ∃ g, elem (combineVec mode fm vs f).1 fm.width i = (combineElem mode fm (vs.map (fun v => elem v fm.width i)) g).1 % 2 ^ fm.width) ∧
    (∀ mx, mode = (if mx = true then CollMode.maxi else .mini) → 2 * i + 1 < 1024 / fm.width →
      elem (combineVec mode fm vs f).1 fm.width (2 * i) =
        (bestPair mx fm (vs.map (fun v => (elem v fm.width (2 * i), elem v fm.width (2 * i + 1))))).1 % 2 ^ fm.width ∧
      elem (combineVec mode fm vs f).1 fm.width (2 * i + 1) =
        (bestPair mx fm (vs.map (fun v => (elem v fm.width (2 * i), elem v fm.width (2 * i + 1))))).2 % 2 ^ fm.width)) ∧
  (∀ (n : Nat) (xs : List Nat) (f : Nat), Fmt.int n ∈ [Fmt.int 8, .int 16, .int 32, .int 64] →
    ((combineElem .wrap (.int n) xs f).1 : Int) = ((xs.map (Fmt.int n).intVal).sum) % 2 ^ n ∧
    ((combineElem .sat (.int n) xs f).1 : Int) = (max (-2 ^ (n - 1)) (min (2 ^ (n - 1) - 1) ((xs.map (Fmt.int n).intVal).sum))) % 2 ^ n ∧
    (xs ≠ [] → (combineElem .max (.int n) xs f).1 ∈ xs ∧ (combineElem .min (.int n) xs f).1 ∈ xs ∧
      ∀ x ∈ xs, (Fmt.int n).intVal x ≤ (Fmt.int n).intVal (combineElem .max (.int n) xs f).1 ∧
        (Fmt.int n).intVal (combineElem .min (.int n) xs f).1 ≤ (Fmt.int n).intVal x)) ∧
  (∀ (n : Nat) (mx : Bool) (ps : List (Nat × Nat)), Fmt.int n ∈ [Fmt.int 8, .int 16, .int 32, .int 64] → ps ≠ [] →
    bestPair mx (.int n) ps ∈ ps ∧ ∀ p ∈ ps, (Fmt.int n).intVal p.1 = (Fmt.int n).intVal (bestPair mx (.int n) ps).1 ∧
        (bestPair mx (.int n) ps).2 ≤ p.2 ∨
      (if mx = true then (Fmt.int n).intVal p.1 < (Fmt.int n).intVal (bestPair mx (.int n) ps).1
        else (Fmt.int n).intVal (bestPair mx (.int n) ps).1 < (Fmt.int n).intVal p.1)) ∧
  (∀ (x y f : Nat), let neg (z : Nat) := Nat.xor z (2 ^ 31)
    let sum := addEnc x y
    let bb := addEnc sum (neg x)
    let rest := addEnc (addEnc x (neg (addEnc sum (neg bb)))) (addEnc y (neg bb))
    ∀ sg m e, fp32.decode sum = .fin sg m e → (combineElem .comp (.flt fp32) [x, y] f).1 = addEnc sum (addEnc (addEnc 0 0) rest))

/-- PUTS, GET, RADD and APND whose checks pass issue with CR raised, the request to leave within 1,024 ck; a control word that R288 does not allow, a
device that is not in the load-store domain or a service request of the wrong form takes the fabric trap, cause 1, with nothing sent.
The 1,024 ck are the model's choice (log 6). -/
def Obligations.FabricPrimitivesIssue : Prop :=
  ∀ (s : State) (th : Thread) (d a b c : Code) (x y z g : Word) (p q r u : Pend) (k : FabCtl) (ls : List Loc), s.cur = some th →
    legalSrc a = true → legalSrc b = true → legalSrc c = true →
    s.read a noPend = .ok (x, p) → s.read b p = .ok (y, q) → s.read c q = .ok (z, r) →
    (∀ e ∈ [(FabricOp.puts, legalSrc d = true ∧ s.read d r = .ok (g, u), Instr.puts d a b c), (.get, True, .get a b c), (.radd, True, .radd a b c),
        (.apnd, legalDst d = true, .apnd d a b c)], e.2.1 →
      (¬ ctlOk e.1 z ∨ tabGet (s.vdOf th).bind (wordField z 0 10) = none ∨ (e.1 = .puts ∧ badService y z) →
        exec e.2.2 s = .next (s.trapCur .fabric 1 0)) ∧
      (fabCtl e.1 z = some k ↔ ctlOk e.1 z ∧ k = ⟨wordField z 24 24, z[16], wordField z 0 10⟩) ∧
      (ctlOk e.1 z → ∀ v, tabGet (s.vdOf th).bind (wordField z 0 10) = some v → ¬ (e.1 = .puts ∧ badService y z) →
        fabOk (s.vdOf th) e.1 (fabCtl e.1 z) y = true)) ∧
    (th.cnt.cr < 6 → s.allSettled s.curCore s.curSlot = true →
      (∀ f, legalSrc d = true → s.read d r = .ok (g, u) → fabCtl .puts z = some k → fabOk (s.vdOf th) .puts (some k) y = true →
        s.fabLocal th .puts k.lg x k.len = .ok ls → (d = 42 ∨ g.toNat % 8 = 0) →
        f = ⟨.puts, k.dev, k.len, k.lg, x, y, if d = 42 then none else some g, 0, .none, s.fabSnap .puts ls, false⟩ →
        ∃ t, exec (.puts d a b c) s = .next t ∧ Issued s t (s.fabIn th f) (s.fabLeaves th f) 1024) ∧
      (∀ f, fabCtl .get z = some k → fabOk (s.vdOf th) .get (some k) y = true → s.fabLocal th .get k.lg x k.len = .ok ls →
        f = ⟨.get, k.dev, k.len, k.lg, x, y, none, 0, .none, [], false⟩ →
        ∃ t, exec (.get a b c) s = .next t ∧ Issued s t (s.fabIn th f) (s.fabLeaves th f) 1024) ∧
      (∀ f, fabCtl .radd z = some k → fabOk (s.vdOf th) .radd (some k) x = true → x.toNat % 8 = 0 →
        f = ⟨.radd, k.dev, k.len, k.lg, 0, x, none, y, .none, [], false⟩ →
        ∃ t, exec (.radd a b c) s = .next t ∧ Issued s t (s.fabIn th f) (s.fabLeaves th f) 1024) ∧
      (∀ f, legalDst d = true → th.canTake (th.dest (scalarDest d)) 1 = true → fabCtl .apnd z = some k → fabOk (s.vdOf th) .apnd (some k) x = true →
        s.fabLocal th .apnd k.lg y k.len = .ok ls → x.toNat % 8 = 0 →
        f = ⟨.apnd, k.dev, k.len, k.lg, y, x, none, 0, th.dest (scalarDest d), s.fabSnap .apnd ls, false⟩ →
        ∃ t, exec (.apnd d a b c) s = .next t ∧ Issued s t (s.fabIn th f) (s.fabLeaves th f) 1024))

/-- A request of another device is performed in the virtual device that is bound to its sender: PUTS writes its bytes and then adds 1 to its
signal, GET returns bytes, RADD adds to a word, APND takes the index at its header and stores its row below the bound; an unbound sender or a failed page is answered with a status and nothing but leading data bytes
written. The reply leaves on lane 1 of the port toward the sender, is dropped where no port leads there, and waits while that lane is paused. An
acknowledgement completes the primitive: GET's bytes are written, on the scratchpad or in global memory, d of APND takes the index, or all ones when it
failed; from a device whose reset has been noticed it is one of status 3.
The context of an incoming request is the model's choice (log 13). -/
def Obligations.FabricRequestsAndAcks : Prop :=
  (∀ (s : State) (src : Nat) (r : FabricReq), r.op = none →
    (s.bound r.dstVd src r.srcVd = true ↔ r.dstVd < 8 ∧ tabGet (s.vd (Fin.ofNat 8 r.dstVd)).bind src = some r.srcVd) ∧
    (s.bound r.dstVd src r.srcVd = false →
      (s.portTo src = none → exec (.fabricRequest src r) s = .next s) ∧
      (∀ p, s.portTo src = some p → s.lanePaused p 1 = true →
        exec (.fabricRequest src r) s = .next { s with egress := s.egress ++ [(src, 1, .reply src r 2 [])] }) ∧
      (s.laneOpen src 1 → exec (.fabricRequest src r) s = .next { s with outbox := s.outbox ++ [.reply src r 2 []] })) ∧
    (s.bound r.dstVd src r.srcVd = true → s.behind (.fabricRequest src r) = true →
      exec (.fabricRequest src r) s = .next { s with inbox := s.inbox ++ [.fabricRequest src r] }) ∧
    (s.bound r.dstVd src r.srcVd = true → s.behind (.fabricRequest src r) = false → s.laneOpen src 1 →
      (∀ ls, r.prim = .puts → r.signal = none →
        s.vaLocs (Fin.ofNat 8 r.dstVd) (s.lowCtx (Fin.ofNat 8 r.dstVd)) r.addr r.data.length ⟨false, true, false⟩ = .ok ls → s.anyHeldW ls = false →
        ∃ t, exec (.fabricRequest src r) s = .next t ∧ (∀ l, t.readLoc l = (s.putLocs (ls.zip r.data)).readLoc l) ∧
          t.outbox = s.outbox ++ [.reply src r 0 []]) ∧
      (∀ a ls sg, r.prim = .puts → r.signal = some a → s.Canonical → sg.Nodup → sg.length = 8 → (∀ l ∈ sg, l.glob = true ∧ l ∉ ls) →
        s.vaLocs (Fin.ofNat 8 r.dstVd) (s.lowCtx (Fin.ofNat 8 r.dstVd)) r.addr r.data.length ⟨false, true, false⟩ = .ok ls →
        s.vaLocs (Fin.ofNat 8 r.dstVd) (s.lowCtx (Fin.ofNat 8 r.dstVd)) a 8 ⟨true, true, false⟩ = .ok sg → s.anyHeldW (ls ++ sg) = false →
        ∃ t, exec (.fabricRequest src r) s = .next t ∧ t.locsNat sg = (s.locsNat sg + 1) % 2 ^ 64 ∧
          (∀ l, l ∉ sg → t.readLoc l = (s.putLocs (ls.zip r.data)).readLoc l) ∧ t.outbox = s.outbox ++ [.reply src r 0 []]) ∧
      (∀ ls, r.prim = .get →
        s.vaLocs (Fin.ofNat 8 r.dstVd) (s.lowCtx (Fin.ofNat 8 r.dstVd)) r.addr r.len ⟨true, false, false⟩ = .ok ls → s.anyHeld ls = false →
        ∃ t, exec (.fabricRequest src r) s = .next t ∧ t.dram = s.dram ∧ t.outbox = s.outbox ++ [.reply src r 0 (ls.map s.readLoc)]) ∧
      (∀ ls, r.prim = .radd → s.Canonical → ls.Nodup → ls.length = 8 → (∀ l ∈ ls, l.glob = true) →
        s.vaLocs (Fin.ofNat 8 r.dstVd) (s.lowCtx (Fin.ofNat 8 r.dstVd)) r.addr 8 ⟨true, true, false⟩ = .ok ls → s.anyHeldW ls = false →
        ∃ t, exec (.fabricRequest src r) s = .next t ∧ t.locsNat ls = (s.locsNat ls + leNat r.data) % 2 ^ 64 ∧
          t.outbox = s.outbox ++ [.reply src r 0 []]) ∧
      (∀ tail rest i base cap, r.prim = .apnd → s.Canonical → tail.Nodup →
        s.vaLocs (Fin.ofNat 8 r.dstVd) (s.lowCtx (Fin.ofNat 8 r.dstVd)) r.addr 8 ⟨true, true, false⟩ = .ok tail →
        s.vaLocs (Fin.ofNat 8 r.dstVd) (s.lowCtx (Fin.ofNat 8 r.dstVd)) (r.addr + 8) 16 ⟨true, false, false⟩ = .ok rest →
        s.anyHeldW tail = false → s.anyHeld rest = false →
        i = s.locsNat tail → base = s.locsNat (rest.take 8) → cap = s.locsNat (rest.drop 8) →
        (cap ≤ i → ∃ t, exec (.fabricRequest src r) s = .next t ∧ t.locsNat tail = (i + 1) % 2 ^ 64 ∧
          (∀ l, l ∉ tail → t.readLoc l = s.readLoc l) ∧ t.outbox = s.outbox ++ [.reply src r 0 (leBytes 8 i)]) ∧
        (∀ ls, i < cap → s.vaLocs (Fin.ofNat 8 r.dstVd) (s.lowCtx (Fin.ofNat 8 r.dstVd)) (BitVec.ofNat 64 (base + i * r.len)) r.data.length
            ⟨false, true, false⟩ = .ok ls → s.anyHeldW ls = false →
          ∃ t, exec (.fabricRequest src r) s = .next t ∧
            (∀ l, t.readLoc l = (s.putLocs (tail.zip (leBytes 8 (i + 1)) ++ ls.zip r.data)).readLoc l) ∧
            t.outbox = s.outbox ++ [.reply src r 0 (leBytes 8 i)])) ∧
      (∀ a, r.prim ∈ [.get, .radd] → s.vaLocs (Fin.ofNat 8 r.dstVd) (s.lowCtx (Fin.ofNat 8 r.dstVd)) r.addr
          (if r.prim = .get then r.len else 8) ⟨true, r.prim = .radd, false⟩ = .error (.tfault, a) →
        exec (.fabricRequest src r) s = .next { s with outbox := s.outbox ++ [.reply src r 1 []] }))) ∧
  (∀ (s : State) (i status : Nat) (data : List Byte) (o : Op) (f : Fab) (th : Thread) (st : Nat), tabGet s.ops i = some o → o.kind = .fab f →
    f.sent = true → s.away o = false → s.thread o.core o.slot = some th → f.dest = .none →
    st = (if f.dev ∈ (s.vd (s.node o.node).vd).resetPeers then 3 else status) →
    (st ≠ 0 → ∃ t b, exec (.fabricAck i status data) s = .next t ∧ Completed s t i o th b ∧
      b.faults = th.faults ++ [⟨i, o.cls, o.tag, 18, st, 0⟩] ∧ t.spad = s.spad ∧ t.dram = s.dram) ∧
    (st = 0 → f.prim = .radd → ∃ t b, exec (.fabricAck i status data) s = .next t ∧ Completed s t i o th b ∧
      b.faults = th.faults ∧ t.spad = s.spad ∧ t.dram = s.dram) ∧
    (∀ ls, st = 0 → f.prim = .get → f.lg = false → s.fabRange o f = some ls → s.fabWaits o f true = false → s.homeLocs o.node ls = some ls →
      ∃ t b, exec (.fabricAck i status data) s = .next t ∧ Completed s t i o th b ∧
        (∀ l, t.readLoc l = (s.putLocs (ls.zip data)).readLoc l)) ∧
    (∀ ls, st = 0 → f.prim = .get → f.lg = true → s.fabRange o f = some ls → s.ackFault o f = none → s.fabWaits o f true = false →
      ∃ t b, exec (.fabricAck i status data) s = .next t ∧ Completed s t i o th b ∧ b.faults = th.faults ∧
        (∀ l, t.readLoc l = (s.putLocs (ls.zip data)).readLoc l)) ∧
    (∀ k a, st = 0 → s.ackFault o f = some (k, a) →
      ∃ t b, exec (.fabricAck i status data) s = .next t ∧ Completed s t i o th b ∧ b.faults = th.faults ++ [⟨i, o.cls, o.tag, k.kind, 0, a⟩] ∧
        t.spad = s.spad ∧ t.dram = s.dram)) ∧
  (∀ (s : State) (i status : Nat) (data : List Byte) (o : Op) (f : Fab) (th : Thread) (st : Nat) (x : Word), tabGet s.ops i = some o →
    o.kind = .fab f → f.prim = .apnd → f.sent = true → s.away o = false → s.thread o.core o.slot = some th → s.Canonical → (∀ e ∈ s.late, e.next ≤ i) →
    st = (if f.dev ∈ (s.vd (s.node o.node).vd).resetPeers then 3 else status) →
    x = (if st = 0 then BitVec.ofNat 64 (leNat data) else BitVec.allOnes 64) →
    ((∃ k < 32, f.dest = .w k ∨ f.dest = .h k) ∨ (∃ j < 2, f.dest = .sq j)) →
    ∃ t b, exec (.fabricAck i status data) s = .next t ∧ Completed s t i o th b ∧ b.pc = th.pc ∧ t.dram = s.dram ∧
      b.faults = (if st = 0 then th.faults else th.faults ++ [⟨i, o.cls, o.tag, 18, st, 0⟩]) ∧
      (∀ k, f.dest = .w k → t.regAt o.core th k = x) ∧ (∀ k, f.dest = .h k → b.bank[k]? = some x) ∧
      (∀ j, f.dest = .sq j → b.sqOf j = th.sqOf j ++ [x]))

/-! ## Vectors -/

/-- The element-wise arithmetic of 06 R178, R180 and R181 under every length: with a format that it accepts, each enabled element is the element
function of the sources' elements, in ascending order with the generator carried, each other one the old value; d is written and it retires. The element
functions are one rounding of the exact result, or in an integer format the result modulo 2^w; VRCP, VRSQ, VEX2 and VLG2 round their exact value to
nearest. That an inexact power or logarithm rounds as its exact value does is the model's reading (log 17). -/
def Obligations.VectorElementwiseResults : Prop :=
  FloatElements ∧ IntegerElements ∧ ExactFunctions ∧
  (∀ (s u : State) (th : Thread) (d a b c : Code) (lit : Word) (vx : VX) (x y z : Vec) (k : Word) (p q r : Pend) (fm : Fmt), s.cur = some th →
    legalVDst d = true → legalVSrc a = true → s.readVec a noPend = .ok (x, p) →
    (∀ e ∈ vectorUnaries, ∀ g ∈ [(1, VX.none, e.1 d a), (3, vx, e.2.1 d a vx)], e.2.2.1 (effective th g.2.1.fmto) = true →
      Fmt.ofCode (effective th g.2.1.fmto) = some fm →
      ∀ o, o = s.elements th g.2.1 fm d (fun i r => e.2.2.2 fm r (elem x fm.width i)) → s.writeVec d o.1 = some u →
        exec g.2.2 s = .next ((u.setSeed o.2).retire p g.1)) ∧
    (∀ e ∈ vectorBinaries, ∀ g ∈ [(1, VX.none, e.1 d a b), (3, vx, e.2.1 d a b vx)], legalVSrc b = true → s.readVec b p = .ok (y, q) →
      e.2.2.2.1 (effective th g.2.1.fmto) = true → Fmt.ofCode (effective th g.2.1.fmto) = some fm →
      ∀ o, o = s.elements th g.2.1 fm d (fun i r => e.2.2.2.2 fm r (elem x fm.width i) (elem y fm.width i)) → s.writeVec d o.1 = some u →
        exec g.2.2 s = .next ((u.setSeed o.2).retire q g.1)) ∧
    (∀ e ∈ vectorBinaries, e.2.2.2.1 (effective th vx.fmto) = true → Fmt.ofCode (effective th vx.fmto) = some fm →
      ∀ o, o = s.elements th vx fm d (fun i r => e.2.2.2.2 fm r (elem x fm.width i) (elem (broadcast fm.width lit) fm.width i)) →
        s.writeVec d o.1 = some u → exec (e.2.2.1 d a lit vx) s = .next ((u.setSeed o.2).retire p 5)) ∧
    (anyFmtOk (effective th vx.fmto) = true → Fmt.ofCode (effective th vx.fmto) = some fm → legalVSrc c = true →
      (legalVSrc b = true → s.readVec b p = .ok (y, q) → s.readVec c q = .ok (z, r) →
        ∀ o, o = s.elements th vx fm d (fun i r => eFma fm r (elem x fm.width i) (elem y fm.width i) (elem z fm.width i)) →
          s.writeVec d o.1 = some u → exec (.vfma d a b c vx) s = .next ((u.setSeed o.2).retire r 3)) ∧
      (s.readVec c p = .ok (z, q) →
        ∀ o, o = s.elements th vx fm d (fun i r => eFma fm r (elem x fm.width i) (elem (broadcast fm.width lit) fm.width i) (elem z fm.width i)) →
          s.writeVec d o.1 = some u → exec (.vfmaLit d a lit c vx) s = .next ((u.setSeed o.2).retire q 5))) ∧
    (∀ g ∈ [(1, VX.none, Instr.vscl d a b), (3, vx, .vsclX d a b vx)], legalSrc b = true → s.read b p = .ok (k, q) →
      anyFmtOk (effective th g.2.1.fmto) = true → Fmt.ofCode (effective th g.2.1.fmto) = some fm →
      ∀ o, o = s.elements th g.2.1 fm d (fun i r => eScl (scaleWord k.toNat) fm r (elem x fm.width i)) → s.writeVec d o.1 = some u →
        exec g.2.2 s = .next ((u.setSeed o.2).retire q g.1)) ∧
    (anyFmtOk (effective th vx.fmto) = true → Fmt.ofCode (effective th vx.fmto) = some fm →
      ∀ o, o = s.elements th vx fm d (fun i r => eScl (scaleWord lit.toNat) fm r (elem x fm.width i)) → s.writeVec d o.1 = some u →
        exec (.vsclLit d a lit vx) s = .next ((u.setSeed o.2).retire p 5)) ∧
    (∀ fd tf, anyFmtOk (effective th vx.fmto) = true → Fmt.ofCode (effective th vx.fmto) = some fm → Fmt.ofCode (BitVec.toNat (w := 5) fd) = some tf →
      ∀ o, o = maskedLoop (s.laneMask vx.me vx.msk) tf.width (1024 / max fm.width tf.width) (s.oldVec d) th.rounding
          (fun i r => convElem fm tf false r (elem x fm.width i)) → s.writeVec d o.1 = some u →
        exec (.vcvt d a vx fd) s = .next ((u.setSeed o.2).retire p 3)))

/-- In an integer format, VADD, VSUB, VMUL, VMIN and VMAX give each enabled element its result modulo 2^w, and leave each other element of a v
register as it was. -/
def Obligations.VectorIntegerElements : Prop :=
  ∀ (s : State) (th : Thread) (d a b : Code) (vx : VX) (x y : Vec) (p q : Pend) (w : Nat), s.cur = some th →
    d.toNat < 16 → legalVSrc a = true → legalVSrc b = true → s.readVec a noPend = .ok (x, p) → s.readVec b p = .ok (y, q) →
    th.owes (.v d.toNat) = false → w ∈ [8, 16, 32, 64] → Fmt.ofCode (effective th vx.fmto) = some (.int w) →
    ∀ e ∈ vectorInts, ∃ z : Vec, exec (e.1 d a b vx) s = .next ((s.setV d.toNat z).retire q 3) ∧
      ∀ i < 1024 / w, elem z w i = if (s.laneMask vx.me vx.msk).getLsbD (i * w / 8) = true
        then (e.2 (.int w) (elem x w i) (elem y w i) % 2 ^ w).toNat else elem (s.getV d.toNat) w i

/-- VAND, VOR, VXOR and VMV work on all 1024 bits, lane byte by lane byte under their mask; VCMP sets every mask bit of an element to its
predicate, zero where disabled; VSEL picks by element; MAND, MOR and MNOT work on 128 bits. -/
def Obligations.VectorBitsComparesAndMasks : Prop :=
  ∀ (s u : State) (th : Thread) (d a b : Code) (lit : Word) (vx : VX) (pr : VPred) (x y z : Vec) (p q : Pend) (fm : Fmt), s.cur = some th →
    (legalVSrc a = true → s.readVec a noPend = .ok (x, p) →
      (legalVDst d = true →
        (∀ e ∈ vectorBitwise, ∀ g ∈ [(1, VX.none, y, q, e.1 d a b), (3, vx, y, q, e.2.1 d a b vx), (5, vx, broadcast 64 lit, p, e.2.2.1 d a lit vx)],
          (g.1 < 5 → legalVSrc b = true ∧ s.readVec b p = .ok (y, q)) →
          (∀ j < 128, z.extractLsb' (8 * j) 8 = if (s.laneMask g.2.1.me g.2.1.msk).getLsbD j = true
            then (e.2.2.2 x g.2.2.1).extractLsb' (8 * j) 8 else (s.oldVec d).extractLsb' (8 * j) 8) →
          s.writeVec d z = some u → exec g.2.2.2.2 s = .next (u.retire g.2.2.2.1 g.1)) ∧
        (∀ g ∈ [(1, VX.none, Instr.vmv d a), (3, vx, .vmvX d a vx)],
          (∀ j < 128, z.extractLsb' (8 * j) 8 = if (s.laneMask g.2.1.me g.2.1.msk).getLsbD j = true
            then x.extractLsb' (8 * j) 8 else (s.oldVec d).extractLsb' (8 * j) 8) →
          s.writeVec d z = some u → exec g.2.2 s = .next (u.retire p g.1)) ∧
        (∀ g ∈ [(3, y, q, Instr.vsel d a b vx), (5, broadcast fm.width lit, p, .vselLit d a lit vx)],
          (g.1 < 5 → legalVSrc b = true ∧ s.readVec b p = .ok (y, q)) →
          anyFmtOk (effective th vx.fmto) = true → Fmt.ofCode (effective th vx.fmto) = some fm →
          (∀ i < 1024 / fm.width, elem z fm.width i = if (s.laneMask vx.me vx.msk).getLsbD (i * fm.width / 8) = true
            then elem x fm.width i else elem g.2.1 fm.width i) →
          s.writeVec d z = some u → exec g.2.2.2 s = .next (u.retire g.2.2.1 g.1))) ∧
      (∀ g ∈ [(1, VX.none, y, q, Instr.vcmp pr d a b), (3, vx, y, q, .vcmpX pr d a b vx), (5, vx, broadcast fm.width lit, p, .vcmpLit pr d a lit vx)],
        legalNum d = true → (g.1 < 5 → legalVSrc b = true ∧ s.readVec b p = .ok (y, q)) →
        wideFmtOk (effective th g.2.1.fmto) = true → Fmt.ofCode (effective th g.2.1.fmto) = some fm →
        ∃ m : BitVec 128, exec g.2.2.2.2 s = .next ((s.setM d.toNat m).retire g.2.2.2.1 g.1) ∧
          ∀ i < 1024 / fm.width, ∀ j < fm.width / 8, m.getLsbD (i * (fm.width / 8) + j) =
            ((s.laneMask g.2.1.me g.2.1.msk).getLsbD (i * fm.width / 8) &&
              (if fm.isInt then vpredInt pr (fm.intVal (elem x fm.width i)) (fm.intVal (elem g.2.2.1 fm.width i))
                else vpredFloat pr (fm.val (elem x fm.width i)) (fm.val (elem g.2.2.1 fm.width i)))))) ∧
    (legalNum d = true → legalNum a = true →
      (legalNum b = true →
        exec (.mand d a b) s = .next ((s.setM d.toNat (s.getM a.toNat &&& s.getM b.toNat)).retire noPend 1) ∧
        exec (.mor d a b) s = .next ((s.setM d.toNat (s.getM a.toNat ||| s.getM b.toNat)).retire noPend 1)) ∧
      exec (.mnot d a) s = .next ((s.setM d.toNat (~~~ s.getM a.toNat)).retire noPend 1))

/-- The reductions write one value of the enabled elements: of integers their sum modulo 2^64 or clamped to the format, of floats the FP32 sum along the
fixed tree, or the element that wins and its index; VPRM, VBRD and VIOT move elements under their mask; VPCK and VUPK convert halves;
VINS replaces one element and VEXT reads one. -/
def Obligations.VectorReductionsAndMoves : Prop :=
  ReductionValues ∧
  (∀ (s u : State) (th : Thread) (d a b : Code) (lit k n : Word) (vx : VX) (fd : BitVec 5) (x y z : Vec) (p q r : Pend) (fm tf : Fmt),
    s.cur = some th →
    (∀ e ∈ vectorReductions, ∀ g ∈ [(1, VX.none, e.1 d a), (3, vx, e.2.1 d a vx)], legalVDst d = true → legalVSrc a = true →
      s.readVec a noPend = .ok (x, p) → e.2.2.1 (effective th g.2.1.fmto) = true → Fmt.ofCode (effective th g.2.1.fmto) = some fm →
      ∀ o, o = e.2.2.2 fm th.rounding ((List.range (1024 / fm.width)).map (fun i =>
          if (s.laneMask g.2.1.me g.2.1.msk).getLsbD (i * fm.width / 8) = true then some (elem x fm.width i) else none)) →
        s.writeVec d (BitVec.ofNat 1024 o.1) = some u → exec g.2.2 s = .next ((u.setSeed o.2).retire p g.1)) ∧
    (∀ g ∈ [(1, VX.none, y, q, Instr.vprm d a b), (3, vx, y, q, .vprmX d a b vx), (5, vx, broadcast fm.width lit, p, .vprmLit d a lit vx)],
      legalVDst d = true → legalVSrc a = true → s.readVec a noPend = .ok (x, p) → (g.1 < 5 → legalVSrc b = true ∧ s.readVec b p = .ok (y, q)) →
      wideFmtOk (effective th g.2.1.fmto) = true → Fmt.ofCode (effective th g.2.1.fmto) = some fm →
      s.enabledElements d g.2.1 fm.width z (fun i => elem x fm.width (elem g.2.2.1 fm.width i % (1024 / fm.width))) →
      s.writeVec d z = some u → exec g.2.2.2.2 s = .next (u.retire g.2.2.2.1 g.1)) ∧
    (∀ g ∈ [(1, VX.none, Instr.vbrd d a), (3, vx, .vbrdX d a vx)], legalVDst d = true → legalSrc a = true → s.read a noPend = .ok (k, p) →
      anyFmtOk (effective th g.2.1.fmto) = true → Fmt.ofCode (effective th g.2.1.fmto) = some fm →
      s.enabledElements d g.2.1 fm.width z (fun _ => k.toNat % 2 ^ fm.width) →
      s.writeVec d z = some u → exec g.2.2 s = .next (u.retire p g.1)) ∧
    (∀ g ∈ [(1, VX.none, Instr.viot d), (3, vx, .viotX d vx)], legalVDst d = true →
      anyFmtOk (effective th g.2.1.fmto) = true → Fmt.ofCode (effective th g.2.1.fmto) = some fm →
      ∀ o, o = s.elements th g.2.1 fm d (fun i r => arith fm r i (Ext.ofInt i)) → s.writeVec d o.1 = some u →
        exec g.2.2 s = .next ((u.setSeed o.2).retire noPend g.1)) ∧
    (legalVDst d = true → legalVSrc a = true → s.readVec a noPend = .ok (x, p) → anyFmtOk (effective th vx.fmto) = true →
      Fmt.ofCode (effective th vx.fmto) = some fm → Fmt.ofCode fd.toNat = some tf →
      (legalVSrc b = true → s.readVec b p = .ok (y, q) → packOk (effective th vx.fmto) fd.toNat = true →
        ∀ o, o = maskedLoop (s.laneMask vx.me vx.msk) tf.width (2 * (1024 / fm.width)) (s.oldVec d) th.rounding (fun i r =>
            convElem fm tf true r (if i < 1024 / fm.width then elem x fm.width i else elem y fm.width (i - 1024 / fm.width))) →
          s.writeVec d o.1 = some u → exec (.vpck d a b vx fd) s = .next ((u.setSeed o.2).retire q 3)) ∧
      (legalSrc b = true → s.read b p = .ok (k, q) → unpackOk (effective th vx.fmto) fd.toNat = true →
        ∀ o, o = maskedLoop (s.laneMask vx.me vx.msk) tf.width (1024 / tf.width) (s.oldVec d) th.rounding (fun i r =>
            convElem fm tf false r (elem x fm.width (k.toNat % 2 * (1024 / tf.width) + i))) →
          s.writeVec d o.1 = some u → exec (.vupk d a b vx fd) s = .next ((u.setSeed o.2).retire q 3))) ∧
    (∀ g ∈ [(1, vx, Instr.vins d a b), (3, vx, .vinsX d a b vx.fmto)], legalVBoth d = true → legalSrc a = true → legalSrc b = true →
      s.read a noPend = .ok (k, p) → s.read b p = .ok (n, q) → s.readVec d q = .ok (x, r) →
      anyFmtOk (effective th (if g.1 = 1 then 0 else vx.fmto)) = true → Fmt.ofCode (effective th (if g.1 = 1 then 0 else vx.fmto)) = some fm →
      (∀ i < 1024 / fm.width, elem z fm.width i = if i = n.toNat then k.toNat % 2 ^ fm.width else elem x fm.width i) →
      s.writeVec d z = some u → exec g.2.2 s = .next (u.retire r g.1)) ∧
    (∀ g ∈ [(1, vx, Instr.vext d a b), (3, vx, .vextX d a b vx.fmto)], legalDst d = true → legalVSrc a = true → legalSrc b = true →
      s.readVec a noPend = .ok (x, p) → s.read b p = .ok (n, q) →
      anyFmtOk (effective th (if g.1 = 1 then 0 else vx.fmto)) = true → Fmt.ofCode (effective th (if g.1 = 1 then 0 else vx.fmto)) = some fm →
      s.write d (if 1024 / fm.width ≤ n.toNat then 0 else match fm with
        | .int w => wrap64 (Int.bmod (elem x w n.toNat) (2 ^ w))
        | _ => BitVec.ofNat 64 (elem x fm.width n.toNat)) = some u →
      exec g.2.2 s = .next (u.retire q g.1)))

/-- A vector instruction that gives a next state waits, traps, or changes its d, the generator and what retirement changes, and nothing else:
a v register's 128 bytes, a mask's 16, or a scalar code for VEXT. -/
def Obligations.VectorFrame : Prop :=
  ∀ (s t : State) (d a b c : Code) (lit : Word) (vx : VX) (pr : VPred) (fd : BitVec 5),
    (∀ i, i ∈ vectorUnaries.flatMap (fun e => [e.1 d a, e.2.1 d a vx]) ++ vectorReductions.flatMap (fun e => [e.1 d a, e.2.1 d a vx]) ++
        vectorBinaries.flatMap (fun e => [e.1 d a b, e.2.1 d a b vx, e.2.2.1 d a lit vx]) ++
        vectorBitwise.flatMap (fun e => [e.1 d a b, e.2.1 d a b vx, e.2.2.1 d a lit vx]) ++
        [.vfma d a b c vx, .vfmaLit d a lit c vx, .vscl d a b, .vsclX d a b vx, .vsclLit d a lit vx, .vcvt d a vx fd, .vsel d a b vx,
          .vselLit d a lit vx, .vprm d a b, .vprmX d a b vx, .vprmLit d a lit vx, .vbrd d a, .vbrdX d a vx, .viot d, .viotX d vx,
          .vpck d a b vx fd, .vupk d a b vx fd, .vmv d a, .vmvX d a vx, .vins d a b, .vinsX d a b fd] →
      exec i s = .next t → Ends s t (RetiredVector s t d)) ∧
    (∀ i, i ∈ [Instr.vcmp pr d a b, .vcmpX pr d a b vx, .vcmpLit pr d a lit vx, .mand d a b, .mor d a b, .mnot d a] →
      exec i s = .next t → Ends s t (RetiredMask s t d)) ∧
    (∀ i, i ∈ [Instr.vext d a b, .vextX d a b fd] → exec i s = .next t → Ends s t (RetiredScalar false s t d))

/-! ## The Press and the Watermark unit -/

/-- PSHP writes BASE of a shape record. PMM, PMMG, PLDA, PSTA, PZ and PCVT whose checks pass are accepted: PR rises and the operands' bytes are
registered; the tile changes at completion. A shape cause takes the shape trap, and an FMTO that names a format no frame has, over a frame, the
illegal-instruction trap. Which of several causes is reported, and which rows, bytes and format the checks of R197 look at, is the model's reading
(log 29, 67). -/
def Obligations.PressInstructionsAreAccepted : Prop :=
  ∀ (s : State) (th : Thread) (acc sa sb : BitVec 3) (d a : Code) (idx : BitVec 4) (na nb ad xi : Bool) (fmto : BitVec 5) (x : Word) (v : Vec)
    (p : Pend) (n : Nat) (ra rb : Shape) (rows : List (Option Nat)), s.cur = some th → ra = s.shape sa fmto → rb = s.shape sb fmto →
    (legalNum d = true → legalSrc a = true → s.read a noPend = .ok (x, p) →
      exec (.pshp d a) s = .next ((s.wsWrite (2432 + 32 * d.toNat) 4 (x.toNat % 2 ^ 32)).retire p 1)) ∧
    (namesNoFrame fmto ra rb = false → pairCause .a xi ra rb false = none → rows = (List.range ra.rows).map some →
      (∀ w, s.shapeAddrs th [(ra, (rows.filterMap id).eraseDups), (rb, List.range rb.rows)] false = .ok () →
        w = pmmWork rows na nb ad xi (s.getS sa.toNat) (s.getS sb.toNat) fmto s → s.pressFree th w →
        ∃ t, exec (.pmm acc sa sb na nb ad xi fmto) s = .next t ∧ Accepted s t acc w 3) ∧
      (∀ k c e, s.shapeAddrs th [(ra, (rows.filterMap id).eraseDups), (rb, List.range rb.rows)] false = .error (k, c, e) →
        exec (.pmm acc sa sb na nb ad xi fmto) s = .next (s.trapCur k c e))) ∧
    (namesNoFrame fmto ra rb = false → pairCause .a xi ra rb false = some n →
      exec (.pmm acc sa sb na nb ad xi fmto) s = .next (s.trapCur .shape n 0)) ∧
    (namesNoFrame fmto ra rb = true → exec (.pmm acc sa sb na nb ad xi fmto) s = .next (s.trapCur .illegalInstruction 0 0)) ∧
    (s.readVec (idx.setWidth 6) noPend = .ok (v, noPend) → namesNoFrame fmto ra rb = false →
      (∀ w, pairCause .gather xi ra rb (gatherBad v ra.rows) = none → rows = gatherRows v ra.rows →
        s.shapeAddrs th [(ra, (rows.filterMap id).eraseDups), (rb, List.range rb.rows)] false = .ok () →
        w = pmmWork rows na nb ad xi (s.getS sa.toNat) (s.getS sb.toNat) fmto s → s.pressFree th w →
        ∃ t, exec (.pmmg acc sa sb idx na nb ad xi fmto) s = .next t ∧ Accepted s t acc w 3) ∧
      (pairCause .gather xi ra rb (gatherBad v ra.rows) = some n →
        exec (.pmmg acc sa sb idx na nb ad xi fmto) s = .next (s.trapCur .shape n 0))) ∧
    (ra.ownCause .tile false = none →
      (∀ w, s.shapeAddrs th [(ra, List.range ra.rows)] false = .ok () → w = pldaWork (s.getS sa.toNat) fmto s → s.pressFree th w →
        ∃ t, exec (.plda acc sa fmto) s = .next t ∧ Accepted s t acc w 3) ∧
      (∀ w, s.shapeAddrs th [(ra, List.range ra.rows)] true = .ok () → w = pstaWork ad (s.getS sa.toNat) fmto s → s.pressFree th w →
        ∃ t, exec (.psta acc sa ad fmto) s = .next t ∧ Accepted s t acc w 3)) ∧
    (ra.ownCause .tile false = some n →
      exec (.plda acc sa fmto) s = .next (s.trapCur .shape n 0) ∧ exec (.psta acc sa ad fmto) s = .next (s.trapCur .shape n 0)) ∧
    (legalNum d = true → s.pressFree th (tileWork .pz 2) → ∃ t, exec (.pz d) s = .next t ∧ Accepted s t (d.setWidth 3) (tileWork .pz 2) 1) ∧
    (∀ w, w = tileWork (.pcvt (fmto.toNat == 18)) 16 → s.pressFree th w → ∃ t, exec (.pcvt acc fmto) s = .next t ∧ Accepted s t acc w 3)

/-- An XI lane holds the exact sum of what was added to it, modulo M = 68,719,472,640, and its value is the one in [−M/2, M/2). -/
def Obligations.XiLanesAddExactlyModuloM : Prop :=
  ∀ (l : BitVec 40) (x : Int), (xiValue (xiAdd l x) - (xiValue l + x)) % 68719472640 = 0 ∧
    -34359736320 ≤ xiValue l ∧ xiValue l < 34359736320

/-- An accepted Press operation starts once earlier ones have left its engine and its tile, but on a core that the stop tree has halted, and
completes after its latency: its tile takes the operation's result, PSTA's bytes are written, and PR falls. A data error in an operand, or a
residue mismatch, spoils the tile and waits to be reported. What a PMM or PMMG, a PLDA, PZ or PCVT leaves in its lanes, and what a PSTA writes and
where, is given from the elements of the operands, the same when a product is done in two parts (R212). A row that PMMG's index leaves out is
elements of zero that no scale multiplies (log 67). -/
def Obligations.PressOperationsComplete : Prop :=
  ProductsFillTiles ∧ LoadsAndConversionsFillTiles ∧ DrainsWriteElements ∧ ElementsStandAtTheirPlaces ∧
  ∀ (s : State) (c i : Nat) (op : PressOp) (th : Thread) (rest : List PressOp), (s.core c).press = op :: rest → op.id = i →
    s.thread c op.slot = some th →
    (op.started = none → (op.ream = false ∨ 96 ≤ refcPhase s.clk c) → (s.core c).treeStopped s.clk = false →
      ∃ t, exec (.pressOpStart c i) s = .next t ∧ t.agenda = s.agenda ++ [(s.clk + op.left, .pressOpComplete c i)] ∧
        ((t.core c).press.head?).map (·.started) = some (some s.clk) ∧ t.spad = s.spad) ∧
    (op.started = none → (s.core c).treeStopped s.clk = true →
      exec (.pressOpStart c i) s = .next { s with agenda := s.agenda ++ [(s.clk + 1, .pressOpStart c i)] }) ∧
    (∀ k, op.started = some k → k + op.left ≤ s.clk → (∀ e ∈ rest, e.id ≠ i) →
      (op.err = none → op.bad = false → (laneUnits c op.acc op.req.reads).any s.poisonT.contains = false → op.acc < 8 →
        ∃ t b, exec (.pressOpComplete c i) s = .next t ∧ (t.core c).press = rest ∧ t.thread c op.slot = some b ∧
          b.cnt.pr = th.cnt.pr - 1 ∧ b.faults = th.faults ∧ b.pc = th.pc ∧
          (t.core c).tile op.acc = (op.req.effect (op.src c) op.blocks op.req.blocks ((s.core c).tile op.acc) op.rounding).1 ∧
          (∀ l, t.readLoc l = (s.putLocs (op.stores c ((s.core c).tile op.acc) s.spad)).readLoc l)) ∧
      (∀ a, op.err = some a ∨ op.err = none ∧ op.bad = true ∧ a = 0 → op.acc < 8 →
        ∃ t b e, exec (.pressOpComplete c i) s = .next t ∧ (t.core c).press = rest ∧ t.thread c op.slot = some b ∧
          b.cnt.pr = th.cnt.pr - 1 ∧ b.faults = th.faults ++ [⟨i, .pr, op.tag, 8, 0, e⟩] ∧ (op.err = some a → e = a) ∧
          (op.req.lanes ≠ [] → (t.core c).tile op.acc = ((s.core c).tile op.acc).spoil op.req.lanes)))

/-- A Watermark instruction whose checks pass is accepted by the free unit, its thread waiting until it completes; while the unit is busy, or cannot
register its bytes yet, it takes its place behind those that wait; a check that fails takes its trap. WMCF of a signature word and frame that R220
allows takes them and answers FB, and a word that breaks R217 is cause 1; WMZ clears every held coefficient; WMRD at level 0 answers 1.0.
What WMST, WMSN, WMJN and WMLG will write into the frame and the work area, and what WMRD answers beyond level 0, is given coefficient by coefficient
from the words of the scratchpad, when no word read is poisoned.
A thread's instructions wait for its operation (log 5). -/
def Obligations.WatermarkInstructionsIssue : Prop :=
  WatermarkValues ∧
  (∀ (s : State) (th : Thread) (d a b : Code), s.cur = some th → legalDst d = true → legalSrc a = true → legalSrc b = true →
      ∀ e ∈ [(WmReq.wmcf d a b, Instr.wmcf d a b), (.wmz, .wmz), (.wmst a b, .wmst a b), (.wmsn a, .wmsn a), (.wmjn a b, .wmjn a b),
        (.wmlg a b, .wmlg a b), (.wmrd d a, .wmrd d a)],
      (∀ op n, wmAnsOf e.1 th s = .ok op n → (s.core s.curCore).wm = none → (s.core s.curCore).wmWait = [] →
        op.done = some (s.clk + n) ∧ op.bad = none ∧ op.slot = s.curSlot ∧ op.tag = th.tag ∧
        ∃ t, exec e.2 s = .next t ∧ (t.core s.curCore).wm = some op ∧ t.cur = some { th with run := .blocked .unit } ∧
          t.agenda = s.agenda ++ [(s.clk + n, .watermarkComplete s.curCore)] ∧ t.spad = s.spad ∧ t.dram = s.dram) ∧
      (((∃ op n, wmAnsOf e.1 th s = .ok op n) ∨ (∃ k code addr, wmAnsOf e.1 th s = .bad k code addr) ∨ wmAnsOf e.1 th s = .hold) →
        ((s.core s.curCore).wm ≠ none ∨ (s.core s.curCore).wmWait ≠ []) →
        ∃ t, exec e.2 s = .next t ∧ (t.core s.curCore).wmWait = (s.core s.curCore).wmWait ++ [(s.curSlot, e.1)] ∧
          t.cur = some { th with run := .blocked .unit } ∧ t.agenda = s.agenda ∧ t.spad = s.spad) ∧
      (wmAnsOf e.1 th s = .hold → (s.core s.curCore).wm = none → (s.core s.curCore).wmWait = [] →
        ∃ t, exec e.2 s = .next t ∧ (t.core s.curCore).wmWait = [(s.curSlot, e.1)] ∧ t.cur = some { th with run := .blocked .unit } ∧
          t.agenda = s.agenda ++ [(s.clk + 1, .watermarkAccept s.curCore)] ∧ t.spad = s.spad) ∧
      (∀ k code addr, wmAnsOf e.1 th s = .bad k code addr → (s.core s.curCore).wm = none → (s.core s.curCore).wmWait = [] →
        exec e.2 s = .next (s.trapCur k code addr))) ∧
  (∀ (s : State) (th : Thread) (d a b : Code) (x y : Word) (p q : Pend) (off : Nat) (g : Sig), s.cur = some th →
      (s.read a noPend = .ok (x, p) → s.read b p = .ok (y, q) → s.wmAddr th y = .ok off → g = Sig.of x →
        (g.ok = false → wmAnsOf (.wmcf d a b) th s = .bad .watermark 1 0) ∧
        (g.ok = true → off + g.bytes ≤ 0x3FC00 → s.onWorkspace (off, g.bytes) = false →
          s.mustWait s.curCore s.curSlot ⟨[.sl, .ss], .thread, true, false, [], none⟩ = false →
          ∃ op, wmAnsOf (.wmcf d a b) th s = .ok op 2 ∧ op.dest = some (d, BitVec.ofNat 64 g.bytes) ∧ op.config = some (x, BitVec.ofNat 18 off) ∧
            op.writes = [])) ∧
      (∀ base m i, 1 ≤ m → m ≤ g.lvl → i ∈ g.idx m → tabGet (wmZero g base).out (g.at base m i) = some 0) ∧
      (s.read a noPend = .ok (x, p) → g = Sig.of th.sigd → s.frameCheck g [(th.frb.toNat, g.bytes)] false false 0 = .ok () →
        wordField x 56 8 = 0 → wordField x 0 56 = 0 → s.mustWait s.curCore s.curSlot ⟨[.sl, .ss], .thread, true, false, [], none⟩ = false →
        ∃ op, wmAnsOf (.wmrd d a) th s = .ok op 6 ∧ op.dest = some (d, 0x3F800000) ∧ op.writes = []))

/-- The unit accepts the instruction that has waited longest once it is free, and at the ck of its completion the bytes are written, d, SIGD and FRB
take their values, and the instruction retires. A unit that was stopped completes nothing. A data error that it met is an asynchronous fault at that
retirement, its TADDR the word met. -/
def Obligations.WatermarkUnitSteps : Prop :=
  ∀ (s : State) (c j : Nat) (th : Thread), s.thread c j = some th →
    (∀ r rest op n, (s.core c).wm = none → (s.core c).wmWait = (j, r) :: rest →
      wmAnsOf r th ((s.modCore c (fun k => { k with wmWait := rest })).at c j) = .ok op n →
      ∃ t, exec (.watermarkAccept c) s = .next t ∧ (t.core c).wm = some op ∧ (t.core c).wmWait = rest ∧
        (s.clk + n, Instr.watermarkComplete c) ∈ t.agenda ∧ t.spad = s.spad) ∧
    (∀ op, (s.core c).wm = some op → op.done = none → exec (.watermarkComplete c) s = .next s) ∧
    (∀ op ck, (s.core c).wm = some op → op.slot = j → op.done = some ck → ck ≤ s.clk →
      (op.err = none → op.bad = none → op.dest = none →
        ∃ t b, exec (.watermarkComplete c) s = .next t ∧ (t.core c).wm = none ∧ t.thread c j = some b ∧
          b.pc = th.pc + 4 ∧ b.run = .ready ∧ b.sigd = (op.config.map (·.1)).getD th.sigd ∧ b.frb = (op.config.map (·.2)).getD th.frb ∧
          (∀ l, t.readLoc l = (s.putLocs (op.writes.map (fun w => (⟨false, w.1⟩, w.2)))).readLoc l)) ∧
      (∀ d x, op.err = none → op.bad = none → op.dest = some (d, x) → op.writes = [] → d.toNat < 32 →
        th.handler = false → th.owes (.w d.toNat) = false → (∀ e ∈ s.late, e.next ≤ op.id) → s.Canonical →
        ∃ t b, exec (.watermarkComplete c) s = .next t ∧ (t.core c).wm = none ∧ t.thread c j = some b ∧ b.pc = th.pc + 4 ∧ b.run = .ready ∧
          b.sigd = (op.config.map (·.1)).getD th.sigd ∧ b.frb = (op.config.map (·.2)).getD th.frb ∧ t.regAt c th d.toNat = x) ∧
      (∀ o, op.err = some o → op.dest = none → th.handler = false →
        ∃ t b, exec (.watermarkComplete c) s = .next t ∧ (t.core c).wm = none ∧ t.thread c j = some b ∧ b.handler = true ∧
          b.tstat = tstatOf (th.pc + 4) 13 0 ∧ b.taddr = selfAddr o ∧ b.pc = Config.handlerEntry))

/-! ## Command processors and the host -/

/-- WRITE stores its words in order up to the first that faults; SIGNAL, WRITE-SIGNAL and TIMESTAMP store their word; WAIT-VALUE goes on or holds its
queue; INDIRECT enters its buffer or stops for depth or overlap; FENCE waits for the queue's nodes; a v2 packet is its v3 one. The queue then stands
past the packet; one that stops reports its code and address.
That RPTR is past a failing packet is the model's reading (log 33), and so are words read and written whatever their poison (log 44) and code 9 for a
v2 kind with no counterpart whatever else is wrong with its header (log 70). -/
def Obligations.PacketsHaveTheirEffects : Prop :=
  ∀ (s : State) (vd : Fin 8) (q : Fin 64) (addr saddr val mask : Word) (op : SignalOp) (cmp : WaitCmp) (data : List Word32) (n w code : Nat),
    ((s.queue vd q).chain = [] → OnlyQueue s (s.packetDone vd q w) vd q { s.queue vd q with
      rptr := ((s.queue vd q).rptr + w) % (2 ^ (s.queue vd q).size / 4), hold := none }) ∧
    ((s.queue vd q).chain = [] → ((s.stopQueue vd q code w).queue vd q).err = true ∧ ((s.stopQueue vd q code w).queue vd q).code = code ∧
      ((s.stopQueue vd q code w).queue vd q).depth = 0 ∧ ((s.stopQueue vd q code w).queue vd q).hold = none ∧
      ((s.stopQueue vd q code w).queue vd q).erra = (s.queue vd q).ring +
        BitVec.ofNat 64 (4 * ((s.queue vd q).rptr % (2 ^ (s.queue vd q).size / 4))) ∧
      (s.stopQueue vd q code w).outbox = s.outbox ++ [.msix vd.val 0] ∧ Reported s (s.stopQueue vd q code w) 3 vd) ∧
    (∀ (ls : List Loc) x u, s.Canonical → ls.Nodup → Packed s ls x u → u.locsNat ls = x % 2 ^ (8 * ls.length) ∧
      ∀ l, l ∉ ls → u.readLoc l = s.readLoc l) ∧
    (∀ (k : Nat) (ps : List (List Loc)), k ≤ data.length → ps.length = k → s.anyHeldW ps.flatten = false →
      (∀ i < k, s.pktLocs vd q (addr + BitVec.ofNat 64 (4 * i)) 4 ⟨false, true, false⟩ = .ok (ps.getD i [])) →
      (k < data.length → ∃ e, s.pktLocs vd q (addr + BitVec.ofNat 64 (4 * k)) 4 ⟨false, true, false⟩ = .error e) →
      ∃ u : State, (∀ l, u.readLoc l = (s.putLocs (ps.flatten.zip (data.flatMap Sys2Proof.wordBytes))).readLoc l) ∧ u.vds = s.vds ∧
        exec (.write vd q addr data) s =
          .next (if k = data.length then u.packetDone vd q (3 + data.length) else u.stopQueue vd q 5 (3 + data.length)) ∧
        (k = data.length → ∀ ls, u.pktLocs vd q saddr 8 ⟨true, true, false⟩ = .ok ls → u.anyHeldW ls = false →
          ∃ v, Packed u ls (signalSpec op (u.locsNat ls) val) v ∧
            exec (.writeSignal vd q addr saddr op val data) s = .next (v.packetDone vd q (8 + data.length)))) ∧
    (∀ ls, s.pktLocs vd q addr 8 ⟨true, true, false⟩ = .ok ls → s.anyHeldW ls = false →
      ∃ u, Packed s ls (signalSpec op (s.locsNat ls) val) u ∧ exec (.signal vd q addr op val) s = .next (u.packetDone vd q 6)) ∧
    (∀ ls, s.pktLocs vd q addr 8 ⟨false, true, false⟩ = .ok ls → s.anyHeldW ls = false →
      ∃ u, Packed s ls s.clk u ∧ exec (.timestamp vd q addr) s = .next (u.packetDone vd q 3)) ∧
    (∀ ls, s.pktLocs vd q addr 8 ⟨true, true, false⟩ = .ok ls → s.anyHeldW ls = true → exec (.signal vd q addr op val) s = .next s) ∧
    (∀ ls i, s.pktLocs vd q addr 8 ⟨true, false, false⟩ = .ok ls → s.anyHeld ls = false →
      (i = .waitValue vd q addr cmp val mask ∨ (i = .waitValueComplete vd q ∧ (s.queue vd q).hold = some (.value addr cmp val mask))) →
      (waitSpec cmp (BitVec.ofNat 64 (s.locsNat ls) &&& mask) val → ∃ u, CachesOnly s u ∧ exec i s = .next (u.packetDone vd q 8)) ∧
      (¬ waitSpec cmp (BitVec.ofNat 64 (s.locsNat ls) &&& mask) val → ∃ t, exec i s = .next t ∧
        OnlyQueue s t vd q { s.queue vd q with hold := some (.value addr cmp val mask) })) ∧
    (∀ i, (i = .fencePacket vd q ∨ (i = .fencePacketComplete vd q ∧ (s.queue vd q).hold = some .fence)) →
      ((∀ e ∈ s.nodes, e.2.vd ≠ vd ∨ e.2.queue ≠ q.val) → (∀ e ∈ (s.vd vd).loads, e.2.queue ≠ q.val) →
        exec i s = .next (s.packetDone vd q 1)) ∧
      ((∃ e ∈ s.nodes, e.2.vd = vd ∧ e.2.queue = q.val) → ∃ t, exec i s = .next t ∧
        OnlyQueue s t vd q { s.queue vd q with hold := some .fence })) ∧
    ((s.queue vd q).chain = [] →
      ((addr.toNat + 4 * n ≤ (s.queue vd q).ring.toNat ∨ (s.queue vd q).ring.toNat + 2 ^ (s.queue vd q).size ≤ addr.toNat) →
        ∃ t, exec (.indirect vd q addr n) s = .next t ∧ OnlyQueue s t vd q { s.queue vd q with
          rptr := ((s.queue vd q).rptr + 4) % (2 ^ (s.queue vd q).size / 4), chain := [⟨addr, n, 0⟩] }) ∧
      ((s.queue vd q).ring.toNat < addr.toNat + 4 * n → addr.toNat < (s.queue vd q).ring.toNat + 2 ^ (s.queue vd q).size →
        exec (.indirect vd q addr n) s = .next (s.stopQueue vd q 4 4))) ∧
    (∀ f fs, (s.queue vd q).chain = f :: fs → fs.length < 3 → (∀ e ∈ f :: fs, e.next < e.words) →
      ((addr.toNat + 4 * n ≤ (s.queue vd q).ring.toNat ∨ (s.queue vd q).ring.toNat + 2 ^ (s.queue vd q).size ≤ addr.toNat) →
        (∀ e ∈ f :: fs, addr.toNat + 4 * n ≤ e.addr.toNat ∨ e.addr.toNat + 4 * e.words ≤ addr.toNat) →
        ∃ t, exec (.indirect vd q addr n) s = .next t ∧
          OnlyQueue s t vd q { s.queue vd q with chain := ⟨addr, n, 0⟩ :: { f with next := f.next + 4 } :: fs }) ∧
      (∀ e ∈ f :: fs, e.addr.toNat < addr.toNat + 4 * n → addr.toNat < e.addr.toNat + 4 * e.words →
        exec (.indirect vd q addr n) s = .next (s.stopQueue vd q 4 4))) ∧
    (4 ≤ (s.queue vd q).chain.length → (∀ f ∈ (s.queue vd q).chain, f.next < f.words) →
      exec (.indirect vd q addr n) s = .next (s.stopQueue vd q 3 4)) ∧
    (addr.toNat % 8 = 0 → 1 ≤ n → n ≤ 2 ^ 20 → 1 ≤ data.length → data.length ≤ 4092 →
      ∀ e ∈ v2Packets vd q addr val mask n data, ∃ t, exec (.v2Packet vd q e.1) s = .next t ∧ exec e.2 s = .next t) ∧
    (∀ (h : Word32) ws, wordField (h.setWidth 64) 0 8 = 2 → (wordField (h.setWidth 64) 28 4 = 0 ∨ 6 < wordField (h.setWidth 64) 28 4) →
      exec (.v2Packet vd q (h :: ws)) s = .next (s.stopQueue vd q 9 (1 + ws.length)))

/-- PULL makes one node of each node and copy node of its mould, by the words of its patch table, which a table in memory gives once and with a VER
above VLAST, or stops with 5, 7 or 8; REAM-LOAD copies its slices within R299's bound; SELFTEST queues a node that reports its
results; MLOAD, MFREE, the PULL registers, the doorbell and QSTAT act as R296, R303 and R304 say; the Headbox answers R312's statuses and refills its
buckets.
MLOAD's handle is free and a MFREE in use is tried again (log 34); a dropped PULL write (log 42) and a lost slice (log 43) are the model's reading. -/
def Obligations.QueuesMouldsAndServicesAct : Prop :=
  ∀ (s : State) (vd : Fin 8) (q : Fin 64),
    (∀ val, (s.vd vd).formed = true →
      (∃ t, exec (.doorbell vd q val) s = .next t ∧ OnlyQueue s t vd q { s.queue vd q with wptr := wordField val 0 22 }) ∧
      (∃ t, exec (.qstatErrClear vd q) s = .next t ∧ OnlyQueue s t vd q { s.queue vd q with err := false })) ∧
    (∀ mh paddr table, tabGet (s.vd vd).moulds (BitVec.toNat (w := 32) mh % 64) = none →
      exec (.pull vd q mh paddr table) s = .next (s.stopQueue vd q 6 (4 + table.length))) ∧
    (∀ (mh : Word32) table l ver ps, tabGet (s.vd vd).moulds (mh.toNat % 64) = some l → (s.replays vd (mh.toNat % 64)).length < 4 →
      ((mh[31] = false ∧ table = [] ∧ ps = []) ∨
        (mh[31] = true ∧ tableOf table = (ver, ps, true) ∧ ∀ p ∈ ps, mouldField l.body p ≠ none)) →
      ∃ t, exec (.pull vd q mh 0 table) s = .next t ∧ ReplayStarts s t vd q mh l ps (4 + table.length) ∧ (t.vd vd).moulds = (s.vd vd).moulds) ∧
    (∀ (mh : Word32) paddr table l, mh[31] = false → paddr ≠ 0 → tabGet (s.vd vd).moulds (mh.toNat % 64) = some l →
      (s.replays vd (mh.toNat % 64)).length < 4 →
      (∀ e, s.pktLocs vd q paddr 8 ⟨true, false, false⟩ = .error e →
        exec (.pull vd q mh paddr table) s = .next (s.stopQueue vd q 5 (4 + table.length))) ∧
      (∀ hd, s.pktLocs vd q paddr 8 ⟨true, false, false⟩ = .ok hd → s.anyHeld hd = true → exec (.pull vd q mh paddr table) s = .next s) ∧
      (∀ hd e, s.pktLocs vd q paddr 8 ⟨true, false, false⟩ = .ok hd → s.anyHeld hd = false → s.locsNat (hd.take 2) ≤ 1024 →
        s.pktLocs vd q paddr (8 + 16 * s.locsNat (hd.take 2)) ⟨true, false, false⟩ = .error e →
        exec (.pull vd q mh paddr table) s = .next (s.stopQueue vd q 5 (4 + table.length))) ∧
      (∀ hd ls ver ps, s.pktLocs vd q paddr 8 ⟨true, false, false⟩ = .ok hd → s.anyHeld hd = false → s.locsNat (hd.take 2) ≤ 1024 →
        s.pktLocs vd q paddr (8 + 16 * s.locsNat (hd.take 2)) ⟨true, false, false⟩ = .ok ls → s.anyHeld ls = false →
        tableOf (s.wordsAt ls) = (ver, ps, true) →
        (ver ≤ l.vlast → ∃ u, CachesOnly s u ∧ exec (.pull vd q mh paddr table) s = .next (u.stopQueue vd q 7 (4 + table.length))) ∧
        (l.vlast < ver → (∃ p ∈ ps, mouldField l.body p = none) →
          ∃ u, CachesOnly s u ∧ exec (.pull vd q mh paddr table) s = .next (u.stopQueue vd q 8 (4 + table.length))) ∧
        (l.vlast < ver → (∀ p ∈ ps, mouldField l.body p ≠ none) →
          ∃ t, exec (.pull vd q mh paddr table) s = .next t ∧ ReplayStarts s t vd q mh l ps (4 + table.length) ∧
            (t.vd vd).moulds = tabSet (s.vd vd).moulds (mh.toNat % 64) { l with vlast := ver }))) ∧
    (∀ (ver : Word32) (es : List (BitVec 16 × BitVec 16 × Word)), es.length ≤ 1024 →
      tableOf (BitVec.ofNat 32 es.length :: ver :: es.flatMap (fun e =>
        [e.2.1.setWidth 32, e.1.setWidth 32, e.2.2.extractLsb' 0 32, e.2.2.extractLsb' 32 32])) =
      (ver.toNat, es.map (fun e => ⟨e.1.toNat, e.2.1.toNat, e.2.2, true⟩), true)) ∧
    (∀ (ld : ReamLoad), ld.first ≤ ld.last → ld.last < (s.vd vd).qlen → ld.roff + ld.len ≤ (s.vd vd).reamk * 65536 →
      (s.runsOn vd ((s.vd vd).coresOf ld.first ld.last) = true → exec (.reamLoad vd q ld) s = .next s) ∧
      (s.runsOn vd ((s.vd vd).coresOf ld.first ld.last) = false →
      (∀ i, ld.first + i ≤ ld.last → ∃ ls, s.pktLocs vd q (reamSrc ld i) ld.len ⟨true, false, false⟩ = .ok ls) →
      ∃ t, exec (.reamLoad vd q ld) s = .next t ∧ tabGet (t.vd vd).loads s.nextId = some ⟨ld, q.val, s.ctxOf vd q⟩ ∧
        t.queue vd q = (s.packetDone vd q 7).queue vd q ∧ t.ream = s.ream ∧
        (∀ c, c = max 1 (s.vd vd).channels.length → Soon s t
          (4000 + (ld.len * (ld.last + 1 - ld.first) + 128 * c - 1) / (128 * c) + (ld.len + 63) / 64) (.reamLoadComplete vd s.nextId)))) ∧
    (∀ id l (ls : Nat → List Loc), tabGet (s.vd vd).loads id = some l → l.body.roff + l.body.len ≤ 2 ^ 19 → s.Canonical →
      s.loadHeld vd l = false → (s.vd vd).loadsUpTo id = [(id, l)] →
      (∀ i, l.body.first + i ≤ l.body.last → s.vaLocs vd l.ctx (reamSrc l.body i) l.body.len ⟨true, false, false⟩ = .ok (ls i)) →
      ∃ t, exec (.reamLoadComplete vd id) s = .next t ∧ (t.vd vd).loads = tabErase (s.vd vd).loads id ∧ t.dram = s.dram ∧ t.spad = s.spad ∧
        ∀ i, l.body.first + i ≤ l.body.last →
          memBytes t.ream (((s.vd vd).qbase + l.body.first + i) * 2 ^ 19 + l.body.roff) l.body.len = (ls i).map s.readLoc) ∧
    (∀ (st : SelfTest) ls, st.first ≤ st.last → st.last < (s.vd vd).qlen →
      s.pktLocs vd q st.addr (32 + 8 * (st.last + 1 - st.first)) ⟨false, true, false⟩ = .ok ls →
      ∃ t n, exec (.selftest vd q st) s = .next t ∧ tabGet t.nodes s.nextId = some n ∧ n.test = some (st, 0) ∧ n.st = .ready ∧ n.vd = vd ∧
        n.hLo = st.first ∧ n.hHi = st.last ∧ n.desc.prio = (s.queue vd q).pri ∧ t.queue vd q = (s.packetDone vd q 5).queue vd q) ∧
    (∀ id n st c0 ls, tabGet s.nodes id = some n → n.test = some (st, c0) → n.vd = vd → n.st = .running → s.Canonical → ls.Nodup →
      s.testHeld vd n st = false →
      ({ s with fresh := s.fresh + (n.hHi + 1 - n.hLo) } : State).vaLocs vd n.ctx (SelfTest.addr st) (32 + 8 * (n.hHi + 1 - n.hLo))
        ⟨false, true, false⟩ = .ok ls →
      ∃ (t : State) (f : Nat → Nat), exec (.selftestComplete vd id) s = .next t ∧ (t.node id).st = .completed ∧ (∀ i, Nat.land st.tset (f i) = f i) ∧
        ls.map t.readLoc = Machine.wordBytes ([if ∀ i < n.hHi + 1 - n.hLo, f i = 0 then 0 else 1, BitVec.ofNat 64 c0, BitVec.ofNat 64 s.clk,
          BitVec.ofNat 64 (n.hHi + 1 - n.hLo)] ++ (List.range (n.hHi + 1 - n.hLo)).map (fun i => BitVec.ofNat 64 (f i))) ∧
        (∀ i, n.hLo + i ≤ n.hHi → ∀ o < 2 ^ 18, memRead t.spad (spadKey ((s.vd vd).qbase + n.hLo + i) o) = 0) ∧
        (∀ i, n.hLo + i ≤ n.hHi → f i ≠ 0 → (s.vd vd).qbase + n.hLo + i ∈ t.failmap)) ∧
    (∀ va, (s.vd vd).formed = true → s.anyHeld (s.mouldLocs vd va) = false →
      (∀ l, s.checkMould vd va = .ok l → ∃ t h, exec (.mload vd va) s = .next t ∧ h < 64 ∧ tabGet (s.vd vd).moulds h = none ∧
        (t.vd vd).moulds = tabSet (s.vd vd).moulds h l ∧ (t.vd vd).mdone = true ∧ (t.vd vd).mhandle = h ∧ (t.vd vd).mstat = 0 ∧
        t.outbox = s.outbox ++ [.msix vd.val 1]) ∧
      (∀ e, s.checkMould vd va = .error e → ∃ t, exec (.mload vd va) s = .next t ∧ (t.vd vd).moulds = (s.vd vd).moulds ∧
        (t.vd vd).mdone = true ∧ (t.vd vd).mstat = e ∧ t.outbox = s.outbox ++ [.msix vd.val 1])) ∧
    (∀ h, (s.vd vd).formed = true →
      (s.replays vd h = [] → ∃ t, exec (.mfree vd h) s = .next t ∧ OnlyVd s t vd ∧ (t.vd vd).moulds = tabErase (s.vd vd).moulds h) ∧
      (s.replays vd h ≠ [] → exec (.mfree vd h) s = .next (s.due (s.clk + 1) (.mfree vd h)))) ∧
    (∀ ws (ls : Nat → List Loc) x, x = s.queue vd q → s.Canonical → ((List.range (List.length ws)).flatMap ls).Nodup →
      (x.wptr % x.words + x.words - x.rptr % x.words) % x.words + ws.length + 1 ≤ x.words →
      (∀ i < ws.length, s.pktLocs vd q (x.ring + BitVec.ofNat 64 (4 * ((x.wptr + i) % x.words))) 4 ⟨false, true, false⟩ = .ok (ls i)) →
      ∃ ps, s.ringPlaces vd q ws = some ps ∧ ((s.ringAppend vd q ps).queue vd q).wptr = (x.wptr + ws.length) % x.words ∧
        ∀ i < ws.length, (s.ringAppend vd q ps).locsNat (ls i) = BitVec.toNat (w := 32) (ws.getD i 0)) ∧
    (∀ h val l ws, (s.vd vd).formed = true → wordField val 0 16 = 0 → tabGet (s.vd vd).moulds h = some l → l.body.queue = q.val →
      ws = [0x06004003, BitVec.ofNat 32 (h % 64), val.extractLsb' 16 32, (val.extractLsb' 48 16).signExtend 32] →
      (∀ ps, s.ringPlaces vd q ws = some ps → s.ringHeld ps = false → exec (.pullWrite vd h val) s = .next (s.ringAppend vd q ps)) ∧
      (s.ringPlaces vd q ws = none →
        ∃ t, exec (.pullWrite vd h val) s = .next t ∧ OnlyVd s t vd ∧ (t.vd vd).pdrop = true ∧ (t.vd vd).queues = (s.vd vd).queues)) ∧
    (∀ r, r.op = none → (s.bound vd.val r.src r.srcVd = false ∨ r.dstVd ≠ vd.val) →
      exec (.headboxRequest vd r) s = .next (s.depart r.src 1 (.answer r.src r 2 0))) ∧
    (∀ r, (s.vd vd).svcFind r = none →
      (r.op = none → s.bound vd.val r.src r.srcVd = true → r.dstVd = vd.val → s.behind (.headboxRequest vd r) = false →
        exec (.headboxRequest vd r) s = .next (s.depart r.src 1 (.answer r.src r 0 1))) ∧
      (∀ id, r.op = some id → ∃ t, exec (.headboxRequest vd r) s = .next t ∧ Soon s t 400 (.fabricAck id 0 (leBytes 8 1)) ∧ t.dram = s.dram)) ∧
    (∀ r i e ls ws t ps u, (s.vd vd).svcFind r = some i → e = (s.vd vd).service[i] → r.payload.length ≤ svcArglen e → r.payload.length % 16 = 0 →
      s.template vd e = some ls → s.anyHeld ls = false → ws = s.wordsAt ls → templateOk e ws (r.payload.length / 16) = true →
      (svcRate e = 0 ∨ (s.vd vd).tokens[i] ≠ 0) → t = s.pktRead vd (svcQueue e) (svcTmpl e) ls →
      t.ringPlaces vd (svcQueue e) (servicePacket ws r.payload) = some ps → t.ringHeld ps = false → u = t.ringAppend vd (svcQueue e) ps →
      ∃ v : State, v.dram = u.dram ∧ (v.vd vd).queues = (u.vd vd).queues ∧
        (v.vd vd).tokens[i] = (if svcRate e = 0 then (s.vd vd).tokens[i] else (s.vd vd).tokens[i] - 1) ∧
        (r.op = none → s.bound vd.val r.src r.srcVd = true → r.dstVd = vd.val → s.behind (.headboxRequest vd r) = false →
          exec (.headboxRequest vd r) s = .next (v.depart r.src 1 (.answer r.src r 0 0))) ∧
        (∀ id, r.op = some id → ∃ w, exec (.headboxRequest vd r) s = .next w ∧ w.dram = v.dram ∧ w.vds = v.vds ∧
          ∃ ck, s.clk < ck ∧ ck ≤ s.clk + 400 ∧ (ck, .fabricAck id 0 (leBytes 8 0)) ∈ w.agenda)) ∧
    (∀ r, r.op = none → s.bound vd.val r.src r.srcVd = true → r.dstVd = vd.val →
      (s.behind (.headboxRequest vd r) = true ∨ s.headbox vd r = none) →
      exec (.headboxRequest vd r) s = .next { s with inbox := s.inbox ++ [.headboxRequest vd r] }) ∧
    (∀ (dev lane : Nat) (m : Sent), (∀ k f, m ≠ .forward k f) → s.laneOpen dev lane → s.depart dev lane m = { s with outbox := s.outbox ++ [m] }) ∧
    (∀ i : Fin 64, svcRate (s.vd vd).service[i] ≠ 0 → ∃ t, exec (.headboxTokenRefill vd i) s = .next t ∧
      (t.vd vd).tokens[i] = min (svcBurst (s.vd vd).service[i]) ((s.vd vd).tokens[i] + 1) ∧
      t.agenda = s.agenda ++ [(s.clk + svcRate (s.vd vd).service[i] * 256, .headboxTokenRefill vd i)])

/-! ## Nodes and the Deckle -/

/-- NODE_DISPATCH of a node that the Hollander has chosen, first or with no dispatch before it, binds it to its cores and a free stream, its launch to
complete within 4,000 ck, or binds a self-test node, or hands a copy node to the mill engine; a node with a failed core is Failed. The launch gives each core R55's items: threads at the entry with their indices in w0 and w1, nothing in flight.
DISPLACE asks the one that keeps the node from its cores to leave, with DGRACE.
A copy node's 1,024 ck are the model's choice (log 6), and so is that a node of another context on the quire keeps it whole (log 72). -/
def Obligations.NodesDispatchLaunchAndDisplace : Prop :=
  ∀ (s : State) (vd : Fin 8) (node : Nat) (n : Node), tabGet s.nodes node = some n →
    (.dispatch node ∈ s.hollander vd → dispatchesUpTo node (s.hollander vd) = [node] →
      (∀ i, n.copy = none → n.test = none → (s.nodeCores n).any s.deadCore = false → s.freeStream vd = some i →
        ∃ t, exec (.nodeDispatch vd node) s = .next t ∧ t.node node = { n with st := .running, stream := some i } ∧
          tabGet t.streams i = some ⟨node, 0, 0, n.groups, [], false, false, [], none, s.nextOp⟩ ∧ tabGet s.streams i = none ∧ i < 32 ∧
          (∀ c ∈ s.nodeCores n, t.core c = { s.core c with bound := some node }) ∧ (∀ c, c ∉ s.nodeCores n → t.core c = s.core c) ∧
          Soon s t 4000 (.launchComplete node)) ∧
      (∀ st x, n.copy = none → n.test = some (st, x) → (s.nodeCores n).any s.deadCore = false →
        ∃ t, exec (.nodeDispatch vd node) s = .next t ∧ t.node node = { n with st := .running, launched := true, test := some (st, s.clk) } ∧
          (∀ c ∈ s.nodeCores n, t.core c = { s.core c with bound := some node }) ∧ Soon s t 8000000 (.selftestComplete vd node)) ∧
      (n.copy = none → (s.nodeCores n).any s.deadCore = true →
        ∃ t, exec (.nodeDispatch vd node) s = .next t ∧ (n.st.over = false → (t.node node).st = .failed) ∧ Reported s t 6 n.vd) ∧
      (∀ d runs, n.copy = some d → (CopyDescr.ofBytes d).checked (s.vd n.vd) none = .ok runs →
        ∃ t, exec (.nodeDispatch vd node) s = .next t ∧ t.node node = { n with st := .running } ∧
          tabGet t.ops s.nextOp = some ⟨4096, 0, node, .cp, 0, [.en], .thread, .copy ⟨false, runs, false, [], [], [], [], none, d⟩⟩ ∧
          Soon s t 1024 (.copyRegistration s.nextOp) ∧ t.spad = s.spad ∧ t.dram = s.dram)) ∧
    (n.st = .running → n.launched = false → n.copy = none → n.hHi < 4096 → n.desc.threads ≤ 4 → n.desc.wp % 1024 = 0 →
      n.desc.wp + 0xC00 * n.desc.threads ≤ 0x3FC00 → s.Canonical → (s.nodeCores n).any s.coreHeld = false →
      ∃ t, exec (.launchComplete node) s = .next t ∧ t.node node = { n with launched := true } ∧
        ∀ h, n.hLo ≤ h → h ≤ n.hHi →
          (∀ j < n.desc.threads, ∃ th, t.thread ((s.vd n.vd).qbase + h) j = some th ∧ th.node = node ∧ th.wp = n.desc.wp + 0xC00 * j ∧
            th.pc = BitVec.ofNat 64 n.desc.entry ∧ th.fmt = 0 ∧ th.rnd = 0 ∧ th.seed = launchSeed h j ∧ th.sigd = 0 ∧ th.frb = 0 ∧
            th.cnt = ⟨0, 0, 0, 0, 0⟩ ∧ th.handler = false ∧ th.run = .blocked .start ∧ (∀ q, th.lqOf q = []) ∧ (∀ q, th.sqOf q = []) ∧
            t.regAt ((s.vd n.vd).qbase + h) th 0 = BitVec.ofNat 64 j ∧ t.regAt ((s.vd n.vd).qbase + h) th 1 = BitVec.ofNat 64 h ∧
            ∀ k, 2 ≤ k → k < 32 → t.regAt ((s.vd n.vd).qbase + h) th k = 0) ∧
          (∀ j, n.desc.threads ≤ j → t.thread ((s.vd n.vd).qbase + h) j = none) ∧
          (t.core ((s.vd n.vd).qbase + h)).plan = n.desc.plan ∧ (t.core ((s.vd n.vd).qbase + h)).press = [] ∧
          (t.core ((s.vd n.vd).qbase + h)).sent = 0 ∧ (t.core ((s.vd n.vd).qbase + h)).recv = 0 ∧
          (t.core ((s.vd n.vd).qbase + h)).bound = some node ∧ (∀ k, (t.core ((s.vd n.vd).qbase + h)).tile k = Tile.reset) ∧
          (∀ g, g ∈ (t.core ((s.vd n.vd).qbase + h)).groups ↔ ∃ e ∈ n.groups, e.1 = g ∧ h ∈ e.2.members)) ∧
    (∀ o m, .displace node ∈ s.hollander vd → s.blockers node n (s.nodeCores n) = [o] → tabGet s.nodes o = some m → m.ladder = .running →
      ∃ t, exec (.displace vd node) s = .next t ∧ 
        t.node o = { m with
          ladder := .soft
          victims := s.needed n o (s.nodeCores n)
          switch := false
          resumeAt := none } ∧
        (m.ctx = n.ctx → s.needed n o (s.nodeCores n) = (s.nodeCores n).filter (fun c => (s.core c).bound == some o)) ∧
        t.agenda = s.agenda ++ [(s.clk + (s.vd vd).dgrace, .graceExpiry o)] ∧ t.cores = s.cores ∧ t.spad = s.spad)

/-- The fetcher buffers FIRE, PHASE and END records, applies SET, and fails the node of a malformed one. An arrival is matched to the oldest entry that
holds its core, kept as early, or trapped after END. A firing leaves the buffer and 40 ck later resumes the Waiting threads of its members. Two quiet
probe passes, or 512 ck of high wires, report a PHASE; a deadlocked quire's nodes are Failed.
The order of SETs (log 35), the start of the 512 ck (log 36) and the stuck streams (log 28) are the model's reading. -/
def Obligations.DeckleStreamsRun : Prop :=
  ∀ (s : State) (i : Nat) (t : Stream), tabGet s.streams i = some t →
    (t.ended = false → t.buf.length < 64 → ∀ w rest, (s.node t.node).desc.deckle.drop t.pos = w :: rest →
      (∀ g idl, g < 256 → (w = BitVec.ofNat 32 (0x10000000 + g) ∧ idl = none) ∨
          (w = BitVec.ofNat 32 (0x20000000 + g) ∧ idl = some false) ∨ (w = BitVec.ofNat 32 (0x28000000 + g) ∧ idl = some true) →
        ∃ u e v, exec (.deckleFetch i) s = .next u ∧ tabGet u.streams i = some v ∧ v.buf = t.buf ++ [e] ∧ v.pos = t.pos + 1 ∧
          v.next = t.next + 1 ∧ v.ended = false ∧ e.num = t.next ∧ e.gid = g ∧
          e.kind = (match idl with
            | none => .fire
            | some b => .phase b) ∧
          e.members = ((tabGet t.groups g).map (·.members)).getD [] ∧ e.report = false) ∧
      (w = 0 → ∃ u v, exec (.deckleFetch i) s = .next u ∧ tabGet u.streams i = some v ∧ v.ended = true ∧ v.buf = t.buf) ∧
      (∀ g a b, g < 256 → w = BitVec.ofNat 32 (0x30001000 + g) → rest.head? = some (BitVec.ofNat 32 (a + 4096 * b)) →
        (s.node t.node).hLo ≤ a → a ≤ b → b ≤ (s.node t.node).hHi → b < 4096 → t.buf = [] → t.node ∈ tabKeys s.nodes →
        Sys2Proof.Machine.groupsFit (s.node t.node) (tabSet t.groups g { ((tabGet t.groups g).getD ⟨[], 0⟩) with
          members := (List.range (b + 1 - a)).map (a + ·) }) = true →
        ∃ u v, exec (.deckleFetch i) s = .next u ∧ tabGet u.streams i = some v ∧ v.pos = t.pos + 2 ∧ v.buf = [] ∧
          (tabGet v.groups g).map (·.members) = some ((List.range (b + 1 - a)).map (a + ·)) ∧
          (tabGet (u.node t.node).groups g).map (·.members) = some ((List.range (b + 1 - a)).map (a + ·))) ∧
      (4 ≤ wordField (w.setWidth 64) 28 4 → t.node ∈ tabKeys s.nodes → (s.node t.node).st.over = false →
        ∃ u, exec (.deckleFetch i) s = .next u ∧ (u.node t.node).st = .failed ∧ Reported s u 4 (s.node t.node).vd)) ∧
    (∀ c, (s.core c).bound = some t.node → (s.node t.node).stream = some i → s.arrives c t.node = true → (s.core c).matched = none →
      (s.core c).early = false →
      (∀ e, t.oldest (c - (s.vd (s.node t.node).vd).qbase) = some e →
        exec (.coreArrival c) s = .next (s.modCore c (fun k => { k with matched := some (i, e.num), early := false }))) ∧
      (t.oldest (c - (s.vd (s.node t.node).vd).qbase) = none → t.ended = false →
        exec (.coreArrival c) s = .next (s.modCore c (fun k => { k with early := true }))) ∧
      (t.oldest (c - (s.vd (s.node t.node).vd).qbase) = none → t.ended = true → ∀ j th, s.thread c j = some th → th.node = t.node →
        th.handler = false → (∀ x ∈ (s.core c).threads, x.2.handler = false) → ∃ u b, exec (.coreArrival c) s = .next u ∧ u.thread c j = some b ∧ b.handler = true ∧
          b.pc = Config.handlerEntry ∧ wordField b.tstat 16 8 = 19 ∧ wordField b.tstat 0 16 = 1)) ∧
    (∀ e, e ∈ t.buf → e.due = true → (∀ x ∈ t.buf, x.num = e.num → x = e) →
      ∃ u v, exec (.deckleFire i e.num) s = .next u ∧ tabGet u.streams i = some v ∧ (∀ x ∈ v.buf, x.num ≠ e.num) ∧
        tabGet v.firing e.num = some e.members ∧ (e.num = 0 → v.opened = true) ∧
        u.agenda = s.agenda ++ [(s.clk + 40, .deckleRelease i e.num)] ∧
        (∀ h ∈ e.members, (u.core ((s.vd (s.node t.node).vd).qbase + h)).matched ≠ some (i, e.num)) ∧
        (∀ c j, u.thread c j = s.thread c j)) ∧
    (∀ num ms h j th, tabGet t.firing num = some ms → h ∈ ms → (s.core ((s.vd (s.node t.node).vd).qbase + h)).bound = some t.node →
      s.thread ((s.vd (s.node t.node).vd).qbase + h) j = some th → th.node = t.node →
      ∃ u, exec (.deckleRelease i num) s = .next u ∧ u.spad = s.spad ∧ u.dram = s.dram ∧
        (th.run = .waiting → u.thread ((s.vd (s.node t.node).vd).qbase + h) j = some (th.retire noPend 1)) ∧
        (th.run = .blocked .start → u.thread ((s.vd (s.node t.node).vd).qbase + h) j =
          some (if num = 0 then { th with run := .ready } else th))) ∧
    (∀ e, t.phase = some e → e.probing = true → (∀ x ∈ t.buf, x.num = e.num → x = e) →
      ∃ u v f, exec (.feltProbePass i) s = .next u ∧ tabGet u.streams i = some v ∧ v.phase = some f ∧ f.num = e.num ∧
        f.quiet = (if s.quietPass t.node = true then e.quiet + 1 else 0) ∧ (f.report = true ↔ 2 ≤ f.quiet) ∧
        (f.quiet < 2 → u.agenda = s.agenda ++ [(s.clk + 80, .feltProbePass i)])) ∧
    (∀ e c, t.phase = some e → t.idle = some c → e.idl = true → c + 512 ≤ s.clk → s.complete i t e = true →
      ∃ u v f, exec (.idleTreeReport i) s = .next u ∧ tabGet u.streams i = some v ∧ v.phase = some f ∧ f.num = e.num ∧ f.report = true ∧
        u.agenda = s.agenda) ∧
    (∀ vd, s.deadlocked vd = true → ∃ u, exec (.deadlockTrap vd) s = .next u ∧ Reported s u 5 vd ∧
      ∀ k n, tabGet s.nodes k = some n → n.vd = vd → n.st.live = true → n.copy = none → s.switchedOut k = false → (u.node k).st = .failed)

/-! ## Pre-emption and recovery -/

/-- SOFT_REQUEST starts the ladder of a context's nodes, GRACE_EXPIRY sends the stop tree to their cores, SAVING and SAVE_COMPLETE save them, or the kill
timer kills the context; RESTORE brings them back from their images. A fault record is numbered and sent; after RESUME its thread's handler returns, HOLD
leaves it, the kills and RESET-VD end nodes and queues, a member's reset fails what was sent to it.
What a restore takes from open parts of the image (log 12), which cores it reserves (log 38), the number of a record (log 39), the ck of a stop within its
80 (log 41), the answer to a contained error (log 4) and the stream policy (log 8, 60) are the model's. -/
def Obligations.LadderAndRecoveryAct : Prop :=
  ∀ (s : State) (vd : Fin 8) (ctx node : Nat) (n : Node), tabGet s.nodes node = some n →
    (tabGet (s.vd vd).ctxSt ctx = none → ∃ t, exec (.softRequest vd ctx) s = .next t ∧ (t.vd vd).ctxSt = tabSet (s.vd vd).ctxSt ctx .soft ∧
      t.cores = s.cores ∧ t.spad = s.spad ∧
      (n.vd = vd → n.ctx = ctx → n.st.live = true → n.copy = none → n.test = none → n.ladder = .running → s.boundCores node ≠ [] →
        (t.node node).ladder = .soft ∧ (t.node node).victims = s.boundCores node ∧ (t.node node).switch = true ∧
        (s.clk + (s.vd vd).grace, Instr.graceExpiry node) ∈ t.agenda)) ∧
    (n.ladder = .soft → n.st.live = true → (∀ c ∈ s.boundCores node, (s.core c).stopAt = none) →
      ∃ t r kl, exec (.graceExpiry node) s = .next t ∧ t.node node = { n with ladder := .stopping, resumeAt := some r, killAt := some kl } ∧ r ≤ s.clk + 88 ∧
        (kl, Instr.killtExpiry node) ∈ t.agenda ∧ s.clk + (s.vd n.vd).killt ≤ kl ∧ kl ≤ s.clk + 80 + (s.vd n.vd).killt ∧
        (∀ c ∈ s.boundCores node, ∃ k, t.core c = { s.core c with stopAt := some k } ∧ s.clk < k ∧ k ≤ s.clk + 80 ∧ k + 8 ≤ r ∧
          k + (s.vd n.vd).killt ≤ kl) ∧
        (∀ c, c ∉ s.boundCores node → t.core c = s.core c)) ∧
    (∀ c ∈ s.boundCores node, (s.core c).stopAt = some s.clk → ∀ j th, s.thread c j = some th → th.node = node →
      ∃ b, (s.stopsDue node).thread c j = some b ∧ b.stopped = true ∧ { b with stopped := th.stopped, run := th.run } = th) ∧
    (∀ c, s.saveReady node n = true → (s.vd n.vd).ctx s.dram n.ctx = some c →
      (0x10000 + (s.vd n.vd).qlen * 0x61000 ≤ c.savelen.toNat → s.Canonical →
        ∃ t, exec (.saving node) s = .next t ∧ t.node node = { n with ladder := .saving } ∧ t.dram = s.dram ∧
          Soon s t (s.imageBound n.vd n.victims.length) (.saveComplete node) ∧
          ∀ core ∈ n.victims, (tabGet t.saved (savedKey node core)).isSome = true ∧ (t.core core).bound = some node ∧
            (∀ j, t.thread core j = none) ∧
            (∀ j th, s.thread core j = some th → th.wp + 2816 ≤ 2 ^ 18 →
              (∀ i x, i ≠ j → s.thread core i = some x → x.wp + 3072 ≤ th.wp ∨ th.wp + 3072 ≤ x.wp) →
              memBytes t.spad (spadKey core (th.wp + 2688)) 128 = th.statusBytes)) ∧
      (c.savelen.toNat < 0x10000 + (s.vd n.vd).qlen * 0x61000 → exec (.saving node) s = .next (s.killCtx n.vd n.ctx))) ∧
    (∀ c u, n.ladder = .saving → n.st.live = true → (s.vd n.vd).ctx s.dram n.ctx = some c →
      n.victims.foldlM (fun (st : State) core => st.saveLines node imageLines core) s = some u →
      (u.writeVa n.vd n.ctx c.savea (u.vdHeader n.vd n.ctx) = none →
        exec (.saveComplete node) s = .next { s with agenda := s.agenda ++ [(s.clk + 1, .saveComplete node)] }) ∧
      (∀ ls, u.vaLocs n.vd n.ctx c.savea 0x10000 ⟨false, true, false⟩ = .ok ls → u.anyHeldW ls = false → ls.Nodup → s.Canonical →
        ∃ t, exec (.saveComplete node) s = .next t ∧ (t.node node).st = .displaced ∧ (t.node node).ladder = .saved ∧ (t.node node).victims = [] ∧
          t.spad = u.spad ∧ ls.map t.readLoc = u.vdHeader n.vd n.ctx ∧ (∀ l, l ∉ ls → t.readLoc l = u.readLoc l) ∧
          ∀ core ∈ n.victims, (t.core core).bound = none ∧
            (tabGet t.saved (savedKey node core)).isSome = (tabGet s.saved (savedKey node core)).isSome)) ∧
    (∀ k, n.killAt = some k → n.st.live = true → (n.ladder = .stopping ∨ n.ladder = .saving) →
      exec (.killtExpiry node) s = .next (if k ≤ s.clk then s.killCtx n.vd n.ctx else s)) ∧
    (.restore node ∈ s.hollander n.vd →
      ∃ t, exec (.restore node) s = .next t ∧ t.node node = { n with restoring := s.savedCores node, switch := false } ∧ t.spad = s.spad ∧
        ∀ c ∈ s.savedCores node, t.core c = { s.core c with bound := some node } ∧
          Soon s t (s.imageBound n.vd (s.savedCores node).length) (.restoreComplete node c)) ∧
    (∀ c sv bytes, tabGet s.saved (savedKey node c) = some sv → n.restoring = [c] → n.ladder = .saved → s.readImage n sv = some bytes →
      s.coreHeld c = false → sv.core.early = false → s.Canonical →
      ∃ t, exec (.restoreComplete node c) s = .next t ∧ t.saved = tabErase s.saved (savedKey node c) ∧
        memBytes t.spad (spadKey c 0) 0x40000 = bytes ∧ (t.core c).tiles = (s.readCore n sv bytes).tiles ∧
        (t.core c).plan = (s.readCore n sv bytes).plan ∧ (t.core c).bound = some node ∧
        (∀ j th, sv.core.thread j = some th → ∃ b, t.thread c j = some b ∧ b.pc = BitVec.ofNat 64 (leNat (
          if (th.wp + 2688) / 128 ∈ sv.drop then s.imageBytes n sv (0x41008 + 0x2000 * j) 8 else (bytes.drop (th.wp + 2688)).take 8))) ∧
        (t.node node).restoring = [] ∧ (s.savedCores node = [c] → (t.node node).st = .running ∧ (t.node node).ladder = .running)) ∧
    (∀ (r : FaultRec) (m : Sent), m = .record s.seq.toNat s.devid r →
      (r.rkind ≤ 2 → s.reaches 5 ((s.vd r.vd).qbase + r.h) false = false →
        exec (.faultRecord r) s = .next (s.firewallDrop r.vd r.ctx (s.rowOf r.vd r.h))) ∧
      ((r.rkind ≤ 2 → s.reaches 5 ((s.vd r.vd).qbase + r.h) false = true) →
        ∃ t, exec (.faultRecord r) s = .next t ∧ t.seq = s.seq + 1 ∧ t.cores = s.cores ∧ t.spad = s.spad ∧
          (((s.vd r.vd).fsid[11] = false ∨ wordField (s.vd r.vd).fsid 0 10 = s.devid) → t.outbox = s.outbox ++ [m]) ∧
          ((s.vd r.vd).fsid[11] = true → wordField (s.vd r.vd).fsid 0 10 ≠ s.devid → ∀ u, u = { s with seq := s.seq + 1 } →
            t.outbox = (u.depart (wordField (s.vd r.vd).fsid 0 10) 2 m).outbox ∧ t.egress = (u.depart (wordField (s.vd r.vd).fsid 0 10) 2 m).egress) ∧
          ((s.vd r.vd).policy.contains r.ctx = true → r.rkind ≠ 7 → ∀ k, (if r.rkind ≤ 2 then s.threadNode r else none).or (s.recordNode r) = some k →
            Soon s t 40000 (if r.rkind = 1 ∧ 4 ≤ wordField r.tstat 16 8 ∧ wordField r.tstat 16 8 ≤ 9
              then .resume r.vd ((s.vd r.vd).qbase + r.h) ⟨k, r.slot⟩ else .killNode r.vd k)) ∧
          (r.rkind = 7 → r.alone = false → wordField r.mc 16 2 = 2 →
            Soon s t 40000 (.killContext r.vd r.ctx) ∨ Soon s t 40000 (.resetVd r.vd)) ∧
          (r.rkind = 7 → r.alone = false → wordField r.mc 16 2 = 2 → 0x41C0 ≤ wordField r.mc 0 16 → Soon s t 40000 (.resetVd r.vd)))) ∧
    (∀ (r : FaultRec) q d x, x = leNat ((FaultRec.bytes r q d).take 8) → (FaultRec.bytes r q d).length = 64 ∧ x / 2 ^ 56 = r.rkind % 256 ∧ x / 2 ^ 48 % 256 = r.vd.val ∧
      x / 2 ^ 40 % 256 = r.ctx % 256 ∧ x / 2 ^ 28 % 4096 = r.h % 4096 ∧ x / 2 ^ 26 % 4 = r.slot % 4 ∧ x / 2 ^ 16 % 1024 = d % 1024 ∧
      x % 65536 = q % 65536 ∧ leNat (((FaultRec.bytes r q d).drop 8).take 8) = r.tstat.toNat ∧ leNat (((FaultRec.bytes r q d).drop 16).take 8) = r.taddr.toNat ∧
      leNat (((FaultRec.bytes r q d).drop 24).take 8) = r.tinfo.toNat) ∧
    (∀ c j th, s.actionWaits node c j = false → s.thread c j = some th → th.node = node → n.vd = vd → th.awaiting = true → s.reaches 4 c true = true →
      (th.noted = true → s.anyHeld (drainLocs c) = false) →
      ∃ t b ck, exec (.resume vd c ⟨node, j⟩) s = .next t ∧ t.thread c j = some b ∧ b.eret = some ck ∧ s.clk < ck ∧ ck ≤ s.clk + 64 ∧
        b.tstat.toNat / 2 ^ 32 = (if th.noted = true then s.drainWord c / 2 * 2 % 2 ^ 32 else th.tstat.toNat / 2 ^ 32) ∧
        b.handler = th.handler ∧ b.pc = th.pc ∧ b.awaiting = false ∧ b.noted = false ∧ (∀ i, i ≠ 31 → b.bank[i]? = th.bank[i]?) ∧
        ((s.core c).stopAt = none → th.gang = .none → b.stopped = false) ∧ (t.core c).halted = false ∧ t.spad = s.spad ∧ t.dram = s.dram) ∧
    (∀ c j th, s.thread c j = some th → th.gang = .none →
      ∃ b, (s.handlerEret c j th).thread c j = some b ∧ b.pc.toNat = th.tstat.toNat / 2 ^ 32 ∧ b.handler = false ∧ b.run = .ready ∧ b.eret = none) ∧
    (∀ c j, exec (.hold vd c j) s = .next s) ∧
    (n.st.over = false → s.killWaits node = false → (∀ c ∈ s.boundCores node, s.reaches 4 c true = true) → ∃ t, exec (.killNode n.vd node) s = .next t ∧ (t.node node).st = .failed ∧ Reported s t 6 n.vd ∧
      (∀ c, (t.core c).bound ≠ some node) ∧ (∀ e ∈ t.ops, e.2.node ≠ node) ∧ (∀ e ∈ t.streams, e.2.node ≠ node)) ∧
    (∃ t, exec (.killContext vd ctx) s = .next t ∧ (∃ r ck, r.rkind = 6 ∧ r.vd = vd ∧ r.ctx = ctx ∧ (ck, .faultRecord r) ∈ t.agenda ∧ s.clk < ck ∧
        ck ≤ s.clk + 8000000 + s.recordBound vd) ∧ (n.vd = vd → n.ctx = ctx → (t.node node).st.over = true) ∧
      (∀ q : Fin 64, s.queueCtx vd q.val = some ctx → (t.queue vd q).en = false) ∧
      (∀ q : Fin 64, s.queueCtx vd q.val ≠ some ctx → t.queue vd q = s.queue vd q)) ∧
    ((s.vd vd).en = true → (s.vd vd).busy = true → exec (.resetVd vd) s = .next { s with agenda := s.agenda ++ [(s.clk + 1, .resetVd vd)] }) ∧
    (((s.vd vd).en = false ∨ (s.vd vd).busy = false) → ∃ t, exec (.resetVd vd) s = .next t ∧
      (n.vd = vd → n.ctx < 256 → (t.node node).st.over = true) ∧
      (∀ q : Fin 64, (t.queue vd q).en = false ∧ (t.queue vd q).rptr = (t.queue vd q).wptr ∧ (t.queue vd q).chain = []) ∧
      (t.vd vd).headOff = true ∧ (t.vd vd).moulds = [] ∧ (t.vd vd).policy = policyOf vd ∧
      (∀ b ∈ (s.vd vd).bind, b.1 ≠ s.devid → s.laneOpen b.1 2 → Sent.notice b.1 vd ∈ t.outbox) ∧
      (∀ b ∈ (s.vd vd).bind, b.1 = s.devid → Soon s t 1024 (.memberResetNotice vd b.1)) ∧
      ((s.vd vd).en = true → Soon s t 12000000 (.teardown vd))) ∧
    (∀ dev, (∃ b ∈ (s.vd vd).bind, b.1 = dev) → (s.contexts vd).any (s.abortHeld vd) = false →
      ∃ t, exec (.memberResetNotice vd dev) s = .next t ∧ dev ∈ (t.vd vd).resetPeers ∧ Reported s t 9 vd ∧
      (∀ id o f, (id, o) ∈ s.ops → o.kind = .fab f → (s.node o.node).vd = vd → f.dev = dev → f.sent = true → Soon s t 1024 (.fabricAck id 3 [])) ∧
      (∀ c j th g u, c ∈ tabKeys s.cores → s.thread c j = some th → th.run = .parked g u → (s.node th.node).vd = vd →
        (s.clk + 4, Instr.parkWake c j) ∈ t.agenda))

/-! ## Errors and isolation -/

/-- A machine check of a class that R382 lists is counted and logged in its bank, poisons its units where it is contained, and is reported by its class; a
residue mismatch strikes the operations of its core, a firewall drop kills its sender's context, a fatal error stops the device; STATUS is cleared by
writing VAL. FORM of a configuration that passes R338's checks zeroes and enables it within 2,000,000 ck; teardown discards and zeroes it. TLBINV drops the
translations it names; a spare slot goes to the waiting virtual device with the most tokens.
When formation and teardown act (log 51), the buckets (log 40), who waits for a spare slot (log 76), the ck of TLBINV (log 47) and what a residue mismatch
strikes (log 69) are the model's reading. FORM's first check that fails gives ERR its code. -/
def Obligations.ErrorsAndIsolationAct : Prop :=
  (∀ (s : State) (ev : McEvent), bankListed ev.bank = true → mcListed ev.bank ev.src ev.cls = true →
    (∀ vd, ev.src = 9 → ev.vd = some vd → s.bankCores ev.bank = [] →
      exec (.machineCheck ev) s = .next ((s.machineCheck ev).killCtx vd (wordField (ev.misc.getD 0) 40 8))) ∧
    (ev.src ≠ 9 → ∃ t, exec (.machineCheck ev) s = .next t ∧
      ((s.bank ev.bank).status[63] = false → wordField (t.bank ev.bank).status 63 1 = 1 ∧ wordField (t.bank ev.bank).status 62 1 = 0 ∧
        wordField (t.bank ev.bank).status 60 2 = (match ev.cls with
          | .corrected => 1
          | .contained => 2
          | .fatal => 3) ∧
        wordField (t.bank ev.bank).status 59 1 = (if ev.addr.isSome then 1 else 0) ∧
        wordField (t.bank ev.bank).status 58 1 = (if ev.misc.isSome then 1 else 0) ∧
        wordField (t.bank ev.bank).status 48 8 = ev.src % 256 ∧
        wordField (t.bank ev.bank).status 40 8 = (match ev.vd with
          | none => 255
          | some v => v.val) ∧
        (t.bank ev.bank).addr = ev.addr.getD 0 ∧ (t.bank ev.bank).misc = ev.misc.getD 0) ∧
      (ev.cls = .corrected → wordField (t.bank ev.bank).count 0 16 = min 65535 (wordField (s.bank ev.bank).count 0 16 + 1) ∧
        wordField (t.bank ev.bank).count 16 16 = wordField (s.bank ev.bank).count 16 16 ∧ t.agenda = s.agenda ∧ t.outbox = s.outbox) ∧
      (ev.cls = .contained → wordField (t.bank ev.bank).count 16 16 = min 65535 (wordField (s.bank ev.bank).count 16 16 + 1) ∧
        wordField (t.bank ev.bank).count 0 16 = wordField (s.bank ev.bank).count 0 16 ∧ t.devSt = s.devSt) ∧
      (ev.cls = .fatal → t.devSt = .stopped ∧ Sent.fatalReport ∈ t.outbox) ∧
      (ev.cls ≠ .corrected → Sent.msix 8 1 ∈ t.outbox ∧ Reported s t 7 (ev.vd.getD 0)) ∧
      (ev.cls = .contained → (∀ k, .dram k ∈ ev.poison → k / 128 ∈ t.poisonD) ∧ (∀ c o, .spad c o ∈ ev.poison → spadKey c o / 8 ∈ t.poisonS) ∧
        (∀ c o, .ream c o ∈ ev.poison → (c * 2 ^ 19 + o) / 64 ∈ t.poisonR)) ∧
      (ev.cls ≠ .contained → t.poisonD = s.poisonD ∧ t.poisonS = s.poisonS ∧ t.poisonR = s.poisonR) ∧
      (∀ c ∈ tabKeys s.cores, coreBank c = ev.bank → ev.poison = [] →
        (ev.src = 5 → (t.core c).press = (s.core c).press.map (fun p => if p.array = true ∧ p.started.isSome = true then { p with bad := true } else p)) ∧
        (ev.src = 4 → ∀ w, (s.core c).wm = some w → ∃ f, (t.core c).wm = some { w with bad := some f })) ∧
      (ev.src ≠ 4 → ev.src ≠ 5 → (∀ c j q i, .queue c j q i ∉ ev.poison) → ∀ c, t.core c = s.core c) ∧
      t.spad = s.spad ∧ t.ream = s.ream ∧ t.dram = s.dram)) ∧
  (∀ (s : State) (b : Nat) (val : Word), bankListed b = true →
    (val[63] = true → ∃ t, exec (.mcStatusClear b val) s = .next t ∧ t.bank b = { s.bank b with status := 0xFF0000000000 } ∧
      ∀ j, j ≠ b → t.bank j = s.bank j) ∧
    (val[63] = false → exec (.mcStatusClear b val) s = .next s)) ∧
  (∀ (s : State) (line : Nat), exec (.patrolScrub line .clean) s = .next s ∧
    (∀ e ∈ [(Scrub.corrected, McClass.corrected, ([] : List DataUnit)), (.contained, .contained, [.dram (line * 128)])],
      exec (.patrolScrub line e.1) s = .next (s.machineCheck ⟨0x3080 + line * 128 / 2 ^ 33, 3, e.2.1,
        some (BitVec.ofNat 64 (line * 128)), none, s.channelVd (line * 128 / 2 ^ 33), e.2.2⟩))) ∧
  (∀ (s : State) (vd : Fin 8) (v : Vd), v = s.vd vd →
    (v.en = false → v.busy = false → s.devReady = true →
      (∀ k, 1 ≤ k → (∀ j, 1 ≤ j → j < k → FormPasses s vd j) → ¬ FormPasses s vd k →
        ∃ t, exec (.form vd) s = .next t ∧ OnlyVd s t vd ∧ t.vd vd = { v with err := k }) ∧
      ((∀ k, FormPasses s vd k) →
        ∃ t, exec (.form vd) s = .next t ∧ (t.vd vd).en = true ∧ (t.vd vd).busy = true ∧ (t.vd vd).moulds = [] ∧
          (∀ q : Fin 64, t.queue vd q = Queue.reset) ∧ Soon s t 2000000 (.formationComplete vd) ∧ (t.vd vd).policy = policyOf vd ∧
          (t.vd vd).handlerCode = Config.handlerImage s.running ∧ (∀ c, v.qbase ≤ c → c < v.qbase + v.qlen → (t.core c).l1d = [] ∧ (t.core c).l1i = []) ∧
          (∀ c o, v.qbase ≤ c → c < v.qbase + v.qlen → o < 2 ^ 18 → memRead t.spad (c * 2 ^ 18 + o) = 0) ∧
          (∀ c o, v.qbase ≤ c → c < v.qbase + v.qlen → o < v.reamk * 65536 → o < 2 ^ 19 → memRead t.ream (c * 2 ^ 19 + o) = 0) ∧
          (∀ c o, (c < v.qbase ∨ v.qbase + v.qlen ≤ c) → o < 2 ^ 18 → memRead t.spad (c * 2 ^ 18 + o) = memRead s.spad (c * 2 ^ 18 + o)) ∧
          t.dram = s.dram ∧ (∀ w, w ≠ vd → t.vd w = s.vd w))) ∧
    (v.en = true → v.busy = true → ∃ t, exec (.formationComplete vd) s = .next t ∧ OnlyVd s t vd ∧
      t.vd vd = { v with busy := false, headOff := false }) ∧
    (v.en = true → v.busy = false → ∃ t, exec (.teardown vd) s = .next t ∧ (t.vd vd).en = false ∧ (t.vd vd).busy = true ∧
      Soon s t 28000000 (.teardownComplete vd) ∧ (∀ e ∈ t.nodes, e.2.vd ≠ vd) ∧
      (∀ c, v.qbase ≤ c → c < v.qbase + v.qlen → t.core c = Core.reset ∧ ∀ o < 2 ^ 18, memRead t.spad (c * 2 ^ 18 + o) = 0) ∧
      (∀ ch o, v.chmask.getLsbD ch = true → o < 2 ^ 33 → memRead t.dram (ch * 2 ^ 33 + o) = 0) ∧
      (∀ ch o, v.chmask.getLsbD ch = false → o < 2 ^ 33 → memRead t.dram (ch * 2 ^ 33 + o) = memRead s.dram (ch * 2 ^ 33 + o)) ∧
      (∀ e ∈ t.tlb, e.vd ≠ vd.val) ∧ (∀ e ∈ t.vat.tags, e.vd ≠ vd.val) ∧ (t.vd vd).tags = 0 ∧ (t.vd vd).pulp = 0 ∧
      (∀ e ∈ t.agenda, packetVd e.2 ≠ some vd) ∧ (∀ w, w ≠ vd → t.vd w = s.vd w)) ∧
    (v.en = false → v.busy = true → ∃ t, exec (.teardownComplete vd) s = .next t ∧ OnlyVd s t vd ∧ t.vd vd = { v with busy := false }) ∧
    (∀ val, (v.invDone = true → ∃ t, exec (.tlbinv vd val) s = .next t ∧ (t.vd vd).invDone = false ∧
        (t.vd vd).invCtx = wordField val 2 8 ∧
        (t.vd vd).invVpn.toNat = (if wordField val 48 16 = 0 then wordField val 12 36 * 4096 else v.invVpn.toNat) ∧ (t.vd vd).invOps = none ∧
        (t.vd vd).invBy = s.clk + 40000 ∧
        (t.vd vd).invKind = (if wordField val 10 2 = 3 then v.invKind else wordField val 10 2) ∧ Soon s t 38000 (.tlbinvDone vd) ∧
        t.tlb = s.tlb) ∧
      (v.invDone = false → exec (.tlbinv vd val) s = .next s)) ∧
    (∀ k, v.invDone = false → v.invOps = some k →
      ((∀ e ∈ s.ops, e.1 < k → (s.node e.2.node).vd = vd → e.2.owesGlobal = false) →
        ∃ t, exec (.tlbinvDone vd) s = .next t ∧ OnlyVd s t vd ∧ t.vd vd = { v with invDone := true, invOps := none }) ∧
      ((∃ e ∈ s.ops, e.1 < k ∧ (s.node e.2.node).vd = vd ∧ e.2.owesGlobal = true) →
        exec (.tlbinvDone vd) s = .next (s.due (s.clk + 1) (.tlbinvDone vd)))) ∧
    (v.invDone = false → v.invOps = none →
      ∃ t, exec (.tlbinvDone vd) s = .next t ∧ (t.vd vd).invDone = false ∧ (t.vd vd).invOps = some s.nextOp ∧
        Soon s t (max 1 (v.invBy - s.clk)) (.tlbinvDone vd) ∧ t.dram = s.dram ∧
        (∀ e, e ∈ t.tlb ↔ e ∈ s.tlb ∧ ¬ (e.vd = vd.val ∧ (v.invKind = 0 ∨ (v.invKind = 1 ∧ e.ctx = v.invCtx) ∨
          (2 ≤ v.invKind ∧ e.ctx = v.invCtx ∧
            v.invVpn.toNat / 2 ^ pageBits e.level e.leaf = e.page * 4096 / 2 ^ pageBits e.level e.leaf)))))) ∧
  (∀ (s : State) (i : Fin 8),
    (∃ t, exec .ddstatSample s = .next t ∧ t.agenda = s.agenda ++ [(s.clk + 4096, .ddstatSample)] ∧ ((s.vd i).en = false → t.vd i = s.vd i) ∧
      ((s.vd i).en = true → t.vd i = { s.vd i with
        tags := (s.vat.tags.filter (fun (e : VatTag) => e.vd == i.val)).length
        pulp := (s.vat.pulps.filter (fun (e : Nat × Pulp) => e.2.vd == i.val)).length })) ∧
    (∃ t, exec .calenderFrame s = .next t ∧ t.calNow = s.cal ∧ t.agenda = s.agenda ++ [(s.clk + 64, .calenderFrame)] ∧
      t.buckets[i] = min 128 (s.buckets[i] + (s.vd i).sprw) ∧ t.vds = s.vds ∧
      ∀ k l, tabGet s.links k = some l → ∃ m, tabGet t.links k = some m ∧ m.last = l.last ∧ m.tokens[i] = min 128 (l.tokens[i] + (s.vd i).sprw)) ∧
    (∀ k waits, s.spareWinner (s.link k) waits = some i.val →
      (s.vd i).en = true ∧ (s.vd i).spare = true ∧ waits i.val = true ∧ 0 < (s.link k).tokens[i] ∧
      (∀ j : Fin 8, (s.vd j).en = true → (s.vd j).spare = true → waits j.val = true → (s.link k).tokens[j] ≤ (s.link k).tokens[i]) ∧
      ((s.spareSlot k waits).link k).tokens[i] = (s.link k).tokens[i] - 1 ∧ ((s.spareSlot k waits).link k).last = i.val))

/-! ## The platform -/

/-- Bring-up checks image and table, takes DEVID and roles from the table, zeroes the memories, marks what failed and is READY, or goes to recovery; staged
firmware that passes goes to flash. BAR2 reaches the window's bytes. A port retries a bad frame eight times and forwards good ones; throttle, trip, resets
and register writes act as R33, R336 and R393 to R403 say.
What a device reset keeps (log 49), the SRC of bring-up failures (log 48) and which register writes take effect (log 50) are the model's reading. -/
def Obligations.PlatformActs : Prop :=
  ∀ s : State,
    (∀ (vd : Fin 8) (ia : Word) (data : List Byte),
      ((s.vd vd).formed = true → ∀ ks : Nat → Nat, (∀ j < data.length, (s.vd vd).iaKey (ia.toNat + j) = some (ks j)) →
        s.anyHeldW ((List.range data.length).map (fun j => ⟨true, ks j⟩)) = false →
        ((∀ j < data.length, s.inImage vd (ks j) = false) → ∃ t, exec (.hostBar2Access vd ia true data) s = .next t ∧
          ∀ l, t.readLoc l = (s.putLocs (((List.range data.length).map (fun j => (⟨true, ks j⟩ : Loc))).zip data)).readLoc l) ∧
        ((∀ j < data.length, s.inImage vd (ks j) = true) → ∃ t, exec (.hostBar2Access vd ia true data) s = .next t ∧ t.dram = s.dram) ∧
        ∃ t, exec (.hostBar2Access vd ia false data) s = .next t ∧
          CachesOnly { s with outbox := s.outbox ++ [.hostData ((List.range data.length).map (fun j => memRead s.dram (ks j)))] } t) ∧
      ((s.vd vd).formed = false →
        (∃ t, exec (.hostBar2Access vd ia false data) s = .next t ∧
          CachesOnly { s with outbox := s.outbox ++ [.hostData (List.replicate data.length 0)] } t) ∧
        ∃ t, exec (.hostBar2Access vd ia true data) s = .next t ∧ t.dram = s.dram ∧ t.spad = s.spad)) ∧
    (exec (.functionLevelReset 8) s =
      .next { State.reset with flash := s.flash, fused := s.fused, fresh := s.fresh, outbox := s.outbox }) ∧
    (∀ vd : Fin 8, ∃ t, exec (.functionLevelReset vd.val) s = .next t ∧ exec (.resetVd vd) s = .next t) ∧
    (∀ (p : Nat) (f : Frame), (s.port p).up = true →
      (f.good = true → (s.port p).retries = 0 → f.dest = s.devid → exec (.tvedtenFrame p f) s = .next s) ∧
      (∀ q, f.good = true → (s.port p).retries = 0 → f.dest ≠ s.devid → s.portTo f.dest = some q → s.laneOpen f.dest 3 →
        exec (.tvedtenFrame p f) s = .next { s with outbox := s.outbox ++ [.forward q f] }) ∧
      (f.good = false → (s.port p).retries < 8 → exec (.tvedtenFrame p f) s =
        .next { s with ports := tabSet s.ports p { s.port p with retries := (s.port p).retries + 1 } }) ∧
      (f.good = false → 8 ≤ (s.port p).retries → ∃ t, exec (.tvedtenFrame p f) s = .next t ∧ (t.port p).up = false ∧
        Sent.msix 8 1 ∈ t.outbox)) ∧
    (∀ p lane b, p < 96 → lane < 4 → ∃ t, exec (.pauseFrame p lane b) s = .next t ∧ (t.port p).paused[lane]? = some b ∧
      (∀ l, l ≠ lane → (t.port p).paused[l]? = (s.port p).paused[l]?) ∧ (t.port p).up = (s.port p).up ∧ { t with ports := s.ports } = s) ∧
    (∀ img table, s.fwstat ≠ 1 → ∃ t, exec (.fwstageGo img table) s = .next t ∧ t.fwgo = true ∧ t.fwstat = 1 ∧ t.staged = (img, table) ∧
      Soon s t 1024 .firmwareCheckComplete ∧ t.flash = s.flash) ∧
    (s.fwstat = 1 →
      ((Config.signatureOk s.staged.1 = false ∨ Config.signatureOk s.staged.2 = false) →
        exec .firmwareCheckComplete s = .next { s with fwstat := 3 }) ∧
      (Config.signatureOk s.staged.1 = true → Config.signatureOk s.staged.2 = true →
        (Config.imageRollback s.staged.1 < s.fused → exec .firmwareCheckComplete s = .next { s with fwstat := 4 }) ∧
        (s.fused ≤ Config.imageRollback s.staged.1 →
          (tableOk s.staged.2 = false → exec .firmwareCheckComplete s = .next { s with fwstat := 5 }) ∧
          (tableOk s.staged.2 = true → exec .firmwareCheckComplete s =
            .next { s with fwstat := 2, flash := s.staged, devSt := if s.devSt = .recovery then .booting else s.devSt })))) ∧
    (∀ failed ports, s.devSt = .booting → s.boot = none →
      (checkStaged s.fused s.flash.1 s.flash.2 ≠ 2 → exec (.bringUp failed ports) s = .next { s with devSt := .recovery, devid := 0 }) ∧
      (checkStaged s.fused s.flash.1 s.flash.2 = 2 → ∃ t, exec (.bringUp failed ports) s = .next t ∧ (∀ r < 128, tabGet t.fw r = some ⟨0x38, true⟩) ∧
        t.devid = leNat ((s.flash.2.drop 2).take 2) ∧ t.boot = some (failed, ports) ∧ t.running = s.flash.1 ∧ t.devSt = .booting ∧
        Soon s t 48000000000 .bringUpComplete)) ∧
    (∀ failed ports, s.boot = some (failed, ports) → ∃ t, exec .bringUpComplete s = .next t ∧ t.devSt = .ready ∧ t.devReady = true ∧
      t.boot = none ∧ t.spad = [] ∧ t.ream = [] ∧ t.dram = [] ∧ t.poisonD = [] ∧ t.fwver = Config.imageVersion s.running ∧
      (∀ c ∈ failed, c < 4096 → c ∈ t.failmap) ∧ (∀ p < 96, (t.port p).up = decide (p ∈ ports)) ∧
      (s.clk + 4096, Instr.ddstatSample) ∈ t.agenda ∧ (∃ ck, s.clk < ck ∧ ck % 64 = 0 ∧ (ck, Instr.calenderFrame) ∈ t.agenda)) ∧
    (∃ t, exec (.thermalThrottle true) s = .next t ∧ t.throttled = true ∧ t.devSt = s.devSt ∧
      (t.bank 0x41A0).count.toNat % 65536 = min 65535 ((s.bank 0x41A0).count.toNat % 65536 + 1)) ∧
    exec (.thermalThrottle false) s = .next { s with throttled := false } ∧
    (∃ t, exec .thermalTrip s = .next t ∧ t.devSt = .stopped ∧ Sent.fatalReport ∈ t.outbox) ∧
    (∀ c, exec (.refreshWindowEnd c) s = .next s) ∧
    (∀ fn off val, s.devSt = .recovery → (fn ≠ 8 ∨ off ≠ 0x0F5000) → exec (.registerWrite fn off val) s = .next s) ∧
    (∀ val : Word, (val[0] = true → s.fwstat ≠ 1 → ∃ t, exec (.registerWrite 8 0x0F5000 val) s = .next t ∧ t.fwgo = true ∧ t.fwstat = 1 ∧ t.staged = s.staged ∧
        Soon s t 1024 .firmwareCheckComplete) ∧
      (val[0] = false ∨ s.fwstat = 1 → exec (.registerWrite 8 0x0F5000 val) s = .next s)) ∧
    (∀ (vd : Fin 8) off, off % 8 = 0 → s.devSt ≠ .recovery →
      (off < 0x1000 → s.readVf vd (0x8000 + off) = s.readPf (0x100000 + 0x1000 * vd.val + off)) ∧
      ((s.vd vd).formed = false → 0x9000 ≤ off → s.readVf vd off = 0) ∧ s.readPf (0x100008 + 0x1000 * vd.val) = BitVec.ofNat 64 (s.vd vd).qbase) ∧
    s.readPf 0x0F5000 = BitVec.ofNat 64 (256 * s.fwstat + s.fwgo.toNat) ∧
    (s.devReady = false → s.devSt ≠ .recovery → s.configRequest = .retryStatus) ∧
    (s.devSt ≠ .recovery → ∀ (vd : Fin 8) (q : Fin 64) (val : Word),
      (∀ e ∈ (s.vd vd).afterBlock val,
        ((s.vd vd).en = false → ∃ t, exec (.registerWrite 8 (0x100000 + 0x1000 * vd.val + e.1) val) s = .next t ∧ OnlyVd s t vd ∧ t.vd vd = e.2) ∧
        ((s.vd vd).en = true → exec (.registerWrite 8 (0x100000 + 0x1000 * vd.val + e.1) val) s = .next s)) ∧
      (∀ e ∈ (s.vd vd).afterTimer val,
        ∃ t, exec (.registerWrite 8 (0x0F3000 + 0x20 * vd.val + e.1) val) s = .next t ∧ OnlyVd s t vd ∧ t.vd vd = e.2) ∧
      (∃ t, exec (.registerWrite 8 0x0F4000 val) s = .next t ∧ { t with msglim := s.msglim } = s ∧
        t.msglim = takes (fun n => decide (1 ≤ n ∧ n ≤ 16)) (wordField val 0 5) s.msglim) ∧
      ((s.vd vd).formed = true → ∃ t u, exec (.registerWrite vd.val (0x10018 + 0x40 * q.val) val) s = .next t ∧
        exec (.doorbell vd q val) s = .next t ∧ exec (.registerWrite vd.val (0x10008 + 0x40 * q.val) val) s = .next u ∧
        OnlyQueue s u vd q ((s.queue vd q).afterCtl val)) ∧
      (∃ t, exec (.registerWrite vd.val 0x80C8 val) s = .next t ∧ exec (.tlbinv vd val) s = .next t))

end
end

