-- ==== Sys2Proof/Laws/Store.lean ====
section
/-!
SUPPORT. Laws of the tables and memories: a read after a write, the places that a write leaves alone, and the canonical form, which every
memory operation keeps.
-/
namespace Sys2Proof.Machine

/-! ## Tables -/

@[simp] theorem tabGet_nil {α : Type} (k : Nat) : tabGet ([] : Tab α) k = none := rfl

@[simp] theorem tabGet_tabSet_same {α : Type} (t : Tab α) (k : Nat) (v : α) : tabGet (tabSet t k v) k = some v := by
  induction t with
  | nil => simp [tabSet, tabGet]
  | cons e t ih =>
    obtain ⟨j, w⟩ := e
    simp only [tabSet]
    split
    · simp [tabGet]
    · split
      · simp [tabGet]
      · simp [tabGet, ih, show j ≠ k by omega]

theorem tabGet_tabSet_other {α : Type} (t : Tab α) {k j : Nat} (v : α) (h : j ≠ k) : tabGet (tabSet t k v) j = tabGet t j := by
  induction t with
  | nil => simp [tabSet, tabGet, Ne.symm h]
  | cons e t ih =>
    obtain ⟨i, w⟩ := e
    simp only [tabSet]
    split
    · simp [tabGet, Ne.symm h]
    · split
      · rename_i hk
        subst hk
        simp [tabGet, Ne.symm h]
      · simp [tabGet, ih]

theorem tabGet_tabSet {α : Type} (t : Tab α) (k j : Nat) (v : α) : tabGet (tabSet t k v) j = if j = k then some v else tabGet t j := by
  split
  · subst j; simp
  · exact tabGet_tabSet_other t v ‹_›

theorem tabGet_tabErase_other {α : Type} (t : Tab α) {k j : Nat} (h : j ≠ k) : tabGet (tabErase t k) j = tabGet t j := by
  induction t with
  | nil => rfl
  | cons e t ih =>
    obtain ⟨i, w⟩ := e
    simp only [tabErase]
    split
    · subst i; simp [tabGet, Ne.symm h, ih]
    · simp [tabGet, ih]

/-- An erased entry is gone, whatever the table. -/
theorem tabGet_tabErase_same {α : Type} (t : Tab α) (k : Nat) : tabGet (tabErase t k) k = none := by
  induction t with
  | nil => rfl
  | cons e t ih =>
    obtain ⟨i, w⟩ := e
    simp only [tabErase]
    split
    · exact ih
    · simp [tabGet, *]

/-! ## The canonical form -/

theorem memWfFrom_le {k j : Nat} {m : Memory} (h : memWfFrom k m = true) (hj : j ≤ k) : memWfFrom j m = true := by
  cases m with
  | nil => rfl
  | cons e t =>
    obtain ⟨a, b⟩ := e
    simp only [memWfFrom, Bool.and_eq_true, decide_eq_true_eq] at h ⊢
    exact ⟨⟨by omega, h.1.2⟩, h.2⟩

theorem memWfFrom_get {k a : Nat} {m : Memory} (h : memWfFrom k m = true) (ha : a < k) : tabGet m a = none := by
  induction m generalizing k with
  | nil => rfl
  | cons e t ih =>
    obtain ⟨j, b⟩ := e
    simp only [memWfFrom, Bool.and_eq_true, decide_eq_true_eq] at h
    simp only [tabGet]
    rw [if_neg (by omega)]
    exact ih h.2 (by omega)

theorem memWfFrom_set {k a : Nat} {m : Memory} {b : Byte} (h : memWfFrom k m = true) (ha : k ≤ a) (hb : b ≠ unlistedByte) :
    memWfFrom k (tabSet m a b) = true := by
  induction m generalizing k with
  | nil => simp [tabSet, memWfFrom, ha, hb]
  | cons e t ih =>
    obtain ⟨j, c⟩ := e
    simp only [memWfFrom, Bool.and_eq_true, decide_eq_true_eq] at h
    simp only [tabSet]
    split
    · simp only [memWfFrom, Bool.and_eq_true, decide_eq_true_eq, bne_iff_ne, ne_eq]
      exact ⟨⟨ha, hb⟩, ⟨⟨by omega, by simpa using h.1.2⟩, h.2⟩⟩
    · split
      · simp only [memWfFrom, Bool.and_eq_true, decide_eq_true_eq, bne_iff_ne, ne_eq]
        subst a
        exact ⟨⟨ha, hb⟩, h.2⟩
      · simp only [memWfFrom, Bool.and_eq_true, decide_eq_true_eq]
        exact ⟨h.1, ih h.2 (by omega)⟩

theorem memWfFrom_erase {k a : Nat} {m : Memory} (h : memWfFrom k m = true) : memWfFrom k (tabErase m a) = true := by
  induction m generalizing k with
  | nil => rfl
  | cons e t ih =>
    obtain ⟨j, c⟩ := e
    simp only [memWfFrom, Bool.and_eq_true, decide_eq_true_eq] at h
    simp only [tabErase]
    split
    · exact memWfFrom_le (ih h.2) (by omega)
    · simp only [memWfFrom, Bool.and_eq_true, decide_eq_true_eq]
      exact ⟨h.1, ih h.2⟩

theorem memWf_write {m : Memory} (a : Nat) (b : Byte) (h : Memory.wf m = true) : Memory.wf (memWrite m a b) = true := by
  unfold memWrite
  split
  · exact memWfFrom_erase h
  · exact memWfFrom_set h (Nat.zero_le a) ‹_›

theorem memWf_put {m : Memory} (a : Nat) (bs : List Byte) (h : Memory.wf m = true) : Memory.wf (memPut m a bs) = true := by
  induction bs generalizing m a with
  | nil => exact h
  | cons b bs ih => exact ih (a + 1) (memWf_write a b h)

theorem memWfFrom_filter {k : Nat} {m : Memory} (p : Host.Cell → Bool) (h : memWfFrom k m = true) : memWfFrom k (m.filter p) = true := by
  induction m generalizing k with
  | nil => rfl
  | cons e t ih =>
    obtain ⟨j, c⟩ := e
    simp only [memWfFrom, Bool.and_eq_true, decide_eq_true_eq] at h
    simp only [List.filter_cons]
    split
    · simp only [memWfFrom, Bool.and_eq_true, decide_eq_true_eq]
      exact ⟨h.1, ih h.2⟩
    · exact memWfFrom_le (ih h.2) (by omega)

theorem memWf_filter {m : Memory} (p : Host.Cell → Bool) (h : Memory.wf m = true) : Memory.wf (m.filter p) = true := memWfFrom_filter p h

/-! ## Reads after writes -/

theorem memRead_write_same {m : Memory} (a : Nat) (b : Byte) : memRead (memWrite m a b) a = b := by
  unfold memRead memWrite
  split
  · subst b; simp [tabGet_tabErase_same]
  · simp

theorem memRead_write_other (m : Memory) {a x : Nat} (b : Byte) (h : x ≠ a) : memRead (memWrite m a b) x = memRead m x := by
  unfold memRead memWrite
  split
  · rw [tabGet_tabErase_other m h]
  · rw [tabGet_tabSet_other m b h]

theorem memRead_put_outside (m : Memory) (a x : Nat) (bs : List Byte) (h : x < a ∨ a + bs.length ≤ x) :
    memRead (memPut m a bs) x = memRead m x := by
  induction bs generalizing m a with
  | nil => rfl
  | cons b bs ih =>
    simp only [memPut, List.length_cons] at h ⊢
    rw [ih (memWrite m a b) (a + 1) (by omega), memRead_write_other m b (by omega)]

theorem memBytes_put_outside (m : Memory) (a : Nat) (bs : List Byte) (x n : Nat) (h : x + n ≤ a ∨ a + bs.length ≤ x) :
    memBytes (memPut m a bs) x n = memBytes m x n := by
  induction n generalizing x with
  | zero => rfl
  | succ n ih =>
    simp only [memBytes]
    rw [memRead_put_outside m a x bs (by omega), ih (x + 1) (by omega)]

theorem memBytes_put_same {m : Memory} (a : Nat) (bs : List Byte) : memBytes (memPut m a bs) a bs.length = bs := by
  induction bs generalizing m a with
  | nil => rfl
  | cons b bs ih =>
    simp only [memPut, List.length_cons, memBytes]
    rw [memRead_put_outside _ _ _ _ (by omega), memRead_write_same a b, ih (a + 1)]

@[simp] theorem memBytes_length (m : Memory) (a n : Nat) : (memBytes m a n).length = n := by
  induction n generalizing a with
  | zero => rfl
  | succ n ih => simp [memBytes, ih]

/-! ## Little-endian numbers -/

@[simp] theorem leBytes_length (n v : Nat) : (leBytes n v).length = n := by
  induction n generalizing v with
  | zero => rfl
  | succ n ih => simp [leBytes, ih]

theorem leNat_leBytes (n v : Nat) : leNat (leBytes n v) = v % 256 ^ n := by
  induction n generalizing v with
  | zero => simp [leBytes, leNat, Nat.mod_one]
  | succ n ih =>
    have h : (256 : Nat) ^ (n + 1) = 256 * 256 ^ n := by rw [Nat.pow_succ, Nat.mul_comm]
    have g : (2 : Nat) ^ 8 = 256 := rfl
    rw [leBytes, leNat, ih, BitVec.toNat_ofNat, g, h, Nat.mod_mul]

theorem leNat_memBytes_put {m : Memory} (a n v : Nat) :
    leNat (memBytes (memPut m a (leBytes n v)) a n) = v % 256 ^ n := by
  have := memBytes_put_same (m := m) a (leBytes n v)
  rw [leBytes_length] at this
  rw [this, leNat_leBytes]

end Sys2Proof.Machine
end

