-- ==== Sys2Proof/Laws/State.lean ====
section
/-!
SUPPORT. Laws of the state: one lemma per field per update, so that no proof unfolds a record update, and what the accessors read after
them.
-/
namespace Sys2Proof.Machine

/-! ## A core -/

@[simp] theorem State.setCore_clk (s : State) (c : Nat) (k : Core) : (s.setCore c k).clk = s.clk := rfl
@[simp] theorem State.setCore_turn (s : State) (c : Nat) (k : Core) : (s.setCore c k).turn = s.turn := rfl
@[simp] theorem State.setCore_curCore (s : State) (c : Nat) (k : Core) : (s.setCore c k).curCore = s.curCore := rfl
@[simp] theorem State.setCore_curSlot (s : State) (c : Nat) (k : Core) : (s.setCore c k).curSlot = s.curSlot := rfl
@[simp] theorem State.setCore_agenda (s : State) (c : Nat) (k : Core) : (s.setCore c k).agenda = s.agenda := rfl
@[simp] theorem State.setCore_fresh (s : State) (c : Nat) (k : Core) : (s.setCore c k).fresh = s.fresh := rfl
@[simp] theorem State.setCore_nextOp (s : State) (c : Nat) (k : Core) : (s.setCore c k).nextOp = s.nextOp := rfl
@[simp] theorem State.setCore_nextId (s : State) (c : Nat) (k : Core) : (s.setCore c k).nextId = s.nextId := rfl
@[simp] theorem State.setCore_spad (s : State) (c : Nat) (k : Core) : (s.setCore c k).spad = s.spad := rfl
@[simp] theorem State.setCore_ream (s : State) (c : Nat) (k : Core) : (s.setCore c k).ream = s.ream := rfl
@[simp] theorem State.setCore_dram (s : State) (c : Nat) (k : Core) : (s.setCore c k).dram = s.dram := rfl
@[simp] theorem State.setCore_poisonS (s : State) (c : Nat) (k : Core) : (s.setCore c k).poisonS = s.poisonS := rfl
@[simp] theorem State.setCore_poisonR (s : State) (c : Nat) (k : Core) : (s.setCore c k).poisonR = s.poisonR := rfl
@[simp] theorem State.setCore_poisonD (s : State) (c : Nat) (k : Core) : (s.setCore c k).poisonD = s.poisonD := rfl
@[simp] theorem State.setCore_poisonT (s : State) (c : Nat) (k : Core) : (s.setCore c k).poisonT = s.poisonT := rfl
@[simp] theorem State.setCore_poisonP (s : State) (c : Nat) (k : Core) : (s.setCore c k).poisonP = s.poisonP := rfl
@[simp] theorem State.setCore_ops (s : State) (c : Nat) (k : Core) : (s.setCore c k).ops = s.ops := rfl
@[simp] theorem State.setCore_nodes (s : State) (c : Nat) (k : Core) : (s.setCore c k).nodes = s.nodes := rfl
@[simp] theorem State.setCore_saved (s : State) (c : Nat) (k : Core) : (s.setCore c k).saved = s.saved := rfl
@[simp] theorem State.setCore_streams (s : State) (c : Nat) (k : Core) : (s.setCore c k).streams = s.streams := rfl
@[simp] theorem State.setCore_vds (s : State) (c : Nat) (k : Core) : (s.setCore c k).vds = s.vds := rfl
@[simp] theorem State.setCore_tlb (s : State) (c : Nat) (k : Core) : (s.setCore c k).tlb = s.tlb := rfl
@[simp] theorem State.setCore_cal (s : State) (c : Nat) (k : Core) : (s.setCore c k).cal = s.cal := rfl
@[simp] theorem State.setCore_calNow (s : State) (c : Nat) (k : Core) : (s.setCore c k).calNow = s.calNow := rfl
@[simp] theorem State.setCore_buckets (s : State) (c : Nat) (k : Core) : (s.setCore c k).buckets = s.buckets := rfl
@[simp] theorem State.setCore_links (s : State) (c : Nat) (k : Core) : (s.setCore c k).links = s.links := rfl
@[simp] theorem State.setCore_vat (s : State) (c : Nat) (k : Core) : (s.setCore c k).vat = s.vat := rfl
@[simp] theorem State.setCore_late (s : State) (c : Nat) (k : Core) : (s.setCore c k).late = s.late := rfl
@[simp] theorem State.setCore_failmap (s : State) (c : Nat) (k : Core) : (s.setCore c k).failmap = s.failmap := rfl
@[simp] theorem State.setCore_spmap (s : State) (c : Nat) (k : Core) : (s.setCore c k).spmap = s.spmap := rfl
@[simp] theorem State.setCore_standIn (s : State) (c : Nat) (k : Core) : (s.setCore c k).standIn = s.standIn := rfl
@[simp] theorem State.setCore_route (s : State) (c : Nat) (k : Core) : (s.setCore c k).route = s.route := rfl
@[simp] theorem State.setCore_msglim (s : State) (c : Nat) (k : Core) : (s.setCore c k).msglim = s.msglim := rfl
@[simp] theorem State.setCore_devid (s : State) (c : Nat) (k : Core) : (s.setCore c k).devid = s.devid := rfl
@[simp] theorem State.setCore_fwver (s : State) (c : Nat) (k : Core) : (s.setCore c k).fwver = s.fwver := rfl
@[simp] theorem State.setCore_devSt (s : State) (c : Nat) (k : Core) : (s.setCore c k).devSt = s.devSt := rfl
@[simp] theorem State.setCore_devReady (s : State) (c : Nat) (k : Core) : (s.setCore c k).devReady = s.devReady := rfl
@[simp] theorem State.setCore_fwgo (s : State) (c : Nat) (k : Core) : (s.setCore c k).fwgo = s.fwgo := rfl
@[simp] theorem State.setCore_fwstat (s : State) (c : Nat) (k : Core) : (s.setCore c k).fwstat = s.fwstat := rfl
@[simp] theorem State.setCore_staged (s : State) (c : Nat) (k : Core) : (s.setCore c k).staged = s.staged := rfl
@[simp] theorem State.setCore_running (s : State) (c : Nat) (k : Core) : (s.setCore c k).running = s.running := rfl
@[simp] theorem State.setCore_flash (s : State) (c : Nat) (k : Core) : (s.setCore c k).flash = s.flash := rfl
@[simp] theorem State.setCore_fused (s : State) (c : Nat) (k : Core) : (s.setCore c k).fused = s.fused := rfl
@[simp] theorem State.setCore_fw (s : State) (c : Nat) (k : Core) : (s.setCore c k).fw = s.fw := rfl
@[simp] theorem State.setCore_millWidth (s : State) (c : Nat) (k : Core) : (s.setCore c k).millWidth = s.millWidth := rfl
@[simp] theorem State.setCore_banks (s : State) (c : Nat) (k : Core) : (s.setCore c k).banks = s.banks := rfl
@[simp] theorem State.setCore_ports (s : State) (c : Nat) (k : Core) : (s.setCore c k).ports = s.ports := rfl
@[simp] theorem State.setCore_boot (s : State) (c : Nat) (k : Core) : (s.setCore c k).boot = s.boot := rfl
@[simp] theorem State.setCore_seq (s : State) (c : Nat) (k : Core) : (s.setCore c k).seq = s.seq := rfl
@[simp] theorem State.setCore_egress (s : State) (c : Nat) (k : Core) : (s.setCore c k).egress = s.egress := rfl
@[simp] theorem State.setCore_inbox (s : State) (c : Nat) (k : Core) : (s.setCore c k).inbox = s.inbox := rfl
@[simp] theorem State.setCore_outbox (s : State) (c : Nat) (k : Core) : (s.setCore c k).outbox = s.outbox := rfl
@[simp] theorem State.setCore_throttled (s : State) (c : Nat) (k : Core) : (s.setCore c k).throttled = s.throttled := rfl

/-! ## A change of a core -/

@[simp] theorem State.modCore_clk (s : State) (c : Nat) (f : Core → Core) : (s.modCore c f).clk = s.clk := rfl
@[simp] theorem State.modCore_turn (s : State) (c : Nat) (f : Core → Core) : (s.modCore c f).turn = s.turn := rfl
@[simp] theorem State.modCore_curCore (s : State) (c : Nat) (f : Core → Core) : (s.modCore c f).curCore = s.curCore := rfl
@[simp] theorem State.modCore_curSlot (s : State) (c : Nat) (f : Core → Core) : (s.modCore c f).curSlot = s.curSlot := rfl
@[simp] theorem State.modCore_agenda (s : State) (c : Nat) (f : Core → Core) : (s.modCore c f).agenda = s.agenda := rfl
@[simp] theorem State.modCore_fresh (s : State) (c : Nat) (f : Core → Core) : (s.modCore c f).fresh = s.fresh := rfl
@[simp] theorem State.modCore_nextOp (s : State) (c : Nat) (f : Core → Core) : (s.modCore c f).nextOp = s.nextOp := rfl
@[simp] theorem State.modCore_nextId (s : State) (c : Nat) (f : Core → Core) : (s.modCore c f).nextId = s.nextId := rfl
@[simp] theorem State.modCore_spad (s : State) (c : Nat) (f : Core → Core) : (s.modCore c f).spad = s.spad := rfl
@[simp] theorem State.modCore_ream (s : State) (c : Nat) (f : Core → Core) : (s.modCore c f).ream = s.ream := rfl
@[simp] theorem State.modCore_dram (s : State) (c : Nat) (f : Core → Core) : (s.modCore c f).dram = s.dram := rfl
@[simp] theorem State.modCore_poisonS (s : State) (c : Nat) (f : Core → Core) : (s.modCore c f).poisonS = s.poisonS := rfl
@[simp] theorem State.modCore_poisonR (s : State) (c : Nat) (f : Core → Core) : (s.modCore c f).poisonR = s.poisonR := rfl
@[simp] theorem State.modCore_poisonD (s : State) (c : Nat) (f : Core → Core) : (s.modCore c f).poisonD = s.poisonD := rfl
@[simp] theorem State.modCore_poisonT (s : State) (c : Nat) (f : Core → Core) : (s.modCore c f).poisonT = s.poisonT := rfl
@[simp] theorem State.modCore_poisonP (s : State) (c : Nat) (f : Core → Core) : (s.modCore c f).poisonP = s.poisonP := rfl
@[simp] theorem State.modCore_ops (s : State) (c : Nat) (f : Core → Core) : (s.modCore c f).ops = s.ops := rfl
@[simp] theorem State.modCore_nodes (s : State) (c : Nat) (f : Core → Core) : (s.modCore c f).nodes = s.nodes := rfl
@[simp] theorem State.modCore_saved (s : State) (c : Nat) (f : Core → Core) : (s.modCore c f).saved = s.saved := rfl
@[simp] theorem State.modCore_streams (s : State) (c : Nat) (f : Core → Core) : (s.modCore c f).streams = s.streams := rfl
@[simp] theorem State.modCore_vds (s : State) (c : Nat) (f : Core → Core) : (s.modCore c f).vds = s.vds := rfl
@[simp] theorem State.modCore_tlb (s : State) (c : Nat) (f : Core → Core) : (s.modCore c f).tlb = s.tlb := rfl
@[simp] theorem State.modCore_cal (s : State) (c : Nat) (f : Core → Core) : (s.modCore c f).cal = s.cal := rfl
@[simp] theorem State.modCore_calNow (s : State) (c : Nat) (f : Core → Core) : (s.modCore c f).calNow = s.calNow := rfl
@[simp] theorem State.modCore_buckets (s : State) (c : Nat) (f : Core → Core) : (s.modCore c f).buckets = s.buckets := rfl
@[simp] theorem State.modCore_links (s : State) (c : Nat) (f : Core → Core) : (s.modCore c f).links = s.links := rfl
@[simp] theorem State.modCore_vat (s : State) (c : Nat) (f : Core → Core) : (s.modCore c f).vat = s.vat := rfl
@[simp] theorem State.modCore_late (s : State) (c : Nat) (f : Core → Core) : (s.modCore c f).late = s.late := rfl
@[simp] theorem State.modCore_failmap (s : State) (c : Nat) (f : Core → Core) : (s.modCore c f).failmap = s.failmap := rfl
@[simp] theorem State.modCore_spmap (s : State) (c : Nat) (f : Core → Core) : (s.modCore c f).spmap = s.spmap := rfl
@[simp] theorem State.modCore_standIn (s : State) (c : Nat) (f : Core → Core) : (s.modCore c f).standIn = s.standIn := rfl
@[simp] theorem State.modCore_route (s : State) (c : Nat) (f : Core → Core) : (s.modCore c f).route = s.route := rfl
@[simp] theorem State.modCore_msglim (s : State) (c : Nat) (f : Core → Core) : (s.modCore c f).msglim = s.msglim := rfl
@[simp] theorem State.modCore_devid (s : State) (c : Nat) (f : Core → Core) : (s.modCore c f).devid = s.devid := rfl
@[simp] theorem State.modCore_fwver (s : State) (c : Nat) (f : Core → Core) : (s.modCore c f).fwver = s.fwver := rfl
@[simp] theorem State.modCore_devSt (s : State) (c : Nat) (f : Core → Core) : (s.modCore c f).devSt = s.devSt := rfl
@[simp] theorem State.modCore_devReady (s : State) (c : Nat) (f : Core → Core) : (s.modCore c f).devReady = s.devReady := rfl
@[simp] theorem State.modCore_fwgo (s : State) (c : Nat) (f : Core → Core) : (s.modCore c f).fwgo = s.fwgo := rfl
@[simp] theorem State.modCore_fwstat (s : State) (c : Nat) (f : Core → Core) : (s.modCore c f).fwstat = s.fwstat := rfl
@[simp] theorem State.modCore_staged (s : State) (c : Nat) (f : Core → Core) : (s.modCore c f).staged = s.staged := rfl
@[simp] theorem State.modCore_running (s : State) (c : Nat) (f : Core → Core) : (s.modCore c f).running = s.running := rfl
@[simp] theorem State.modCore_flash (s : State) (c : Nat) (f : Core → Core) : (s.modCore c f).flash = s.flash := rfl
@[simp] theorem State.modCore_fused (s : State) (c : Nat) (f : Core → Core) : (s.modCore c f).fused = s.fused := rfl
@[simp] theorem State.modCore_fw (s : State) (c : Nat) (f : Core → Core) : (s.modCore c f).fw = s.fw := rfl
@[simp] theorem State.modCore_millWidth (s : State) (c : Nat) (f : Core → Core) : (s.modCore c f).millWidth = s.millWidth := rfl
@[simp] theorem State.modCore_banks (s : State) (c : Nat) (f : Core → Core) : (s.modCore c f).banks = s.banks := rfl
@[simp] theorem State.modCore_ports (s : State) (c : Nat) (f : Core → Core) : (s.modCore c f).ports = s.ports := rfl
@[simp] theorem State.modCore_boot (s : State) (c : Nat) (f : Core → Core) : (s.modCore c f).boot = s.boot := rfl
@[simp] theorem State.modCore_seq (s : State) (c : Nat) (f : Core → Core) : (s.modCore c f).seq = s.seq := rfl
@[simp] theorem State.modCore_egress (s : State) (c : Nat) (f : Core → Core) : (s.modCore c f).egress = s.egress := rfl
@[simp] theorem State.modCore_inbox (s : State) (c : Nat) (f : Core → Core) : (s.modCore c f).inbox = s.inbox := rfl
@[simp] theorem State.modCore_outbox (s : State) (c : Nat) (f : Core → Core) : (s.modCore c f).outbox = s.outbox := rfl
@[simp] theorem State.modCore_throttled (s : State) (c : Nat) (f : Core → Core) : (s.modCore c f).throttled = s.throttled := rfl

/-! ## A thread -/

@[simp] theorem State.setThread_clk (s : State) (c t : Nat) (th : Thread) : (s.setThread c t th).clk = s.clk := rfl
@[simp] theorem State.setThread_turn (s : State) (c t : Nat) (th : Thread) : (s.setThread c t th).turn = s.turn := rfl
@[simp] theorem State.setThread_curCore (s : State) (c t : Nat) (th : Thread) : (s.setThread c t th).curCore = s.curCore := rfl
@[simp] theorem State.setThread_curSlot (s : State) (c t : Nat) (th : Thread) : (s.setThread c t th).curSlot = s.curSlot := rfl
@[simp] theorem State.setThread_agenda (s : State) (c t : Nat) (th : Thread) : (s.setThread c t th).agenda = s.agenda := rfl
@[simp] theorem State.setThread_fresh (s : State) (c t : Nat) (th : Thread) : (s.setThread c t th).fresh = s.fresh := rfl
@[simp] theorem State.setThread_nextOp (s : State) (c t : Nat) (th : Thread) : (s.setThread c t th).nextOp = s.nextOp := rfl
@[simp] theorem State.setThread_nextId (s : State) (c t : Nat) (th : Thread) : (s.setThread c t th).nextId = s.nextId := rfl
@[simp] theorem State.setThread_spad (s : State) (c t : Nat) (th : Thread) : (s.setThread c t th).spad = s.spad := rfl
@[simp] theorem State.setThread_ream (s : State) (c t : Nat) (th : Thread) : (s.setThread c t th).ream = s.ream := rfl
@[simp] theorem State.setThread_dram (s : State) (c t : Nat) (th : Thread) : (s.setThread c t th).dram = s.dram := rfl
@[simp] theorem State.setThread_poisonS (s : State) (c t : Nat) (th : Thread) : (s.setThread c t th).poisonS = s.poisonS := rfl
@[simp] theorem State.setThread_poisonR (s : State) (c t : Nat) (th : Thread) : (s.setThread c t th).poisonR = s.poisonR := rfl
@[simp] theorem State.setThread_poisonD (s : State) (c t : Nat) (th : Thread) : (s.setThread c t th).poisonD = s.poisonD := rfl
@[simp] theorem State.setThread_poisonT (s : State) (c t : Nat) (th : Thread) : (s.setThread c t th).poisonT = s.poisonT := rfl
@[simp] theorem State.setThread_poisonP (s : State) (c t : Nat) (th : Thread) : (s.setThread c t th).poisonP = s.poisonP := rfl
@[simp] theorem State.setThread_ops (s : State) (c t : Nat) (th : Thread) : (s.setThread c t th).ops = s.ops := rfl
@[simp] theorem State.setThread_nodes (s : State) (c t : Nat) (th : Thread) : (s.setThread c t th).nodes = s.nodes := rfl
@[simp] theorem State.setThread_saved (s : State) (c t : Nat) (th : Thread) : (s.setThread c t th).saved = s.saved := rfl
@[simp] theorem State.setThread_streams (s : State) (c t : Nat) (th : Thread) : (s.setThread c t th).streams = s.streams := rfl
@[simp] theorem State.setThread_vds (s : State) (c t : Nat) (th : Thread) : (s.setThread c t th).vds = s.vds := rfl
@[simp] theorem State.setThread_tlb (s : State) (c t : Nat) (th : Thread) : (s.setThread c t th).tlb = s.tlb := rfl
@[simp] theorem State.setThread_cal (s : State) (c t : Nat) (th : Thread) : (s.setThread c t th).cal = s.cal := rfl
@[simp] theorem State.setThread_calNow (s : State) (c t : Nat) (th : Thread) : (s.setThread c t th).calNow = s.calNow := rfl
@[simp] theorem State.setThread_buckets (s : State) (c t : Nat) (th : Thread) : (s.setThread c t th).buckets = s.buckets := rfl
@[simp] theorem State.setThread_links (s : State) (c t : Nat) (th : Thread) : (s.setThread c t th).links = s.links := rfl
@[simp] theorem State.setThread_vat (s : State) (c t : Nat) (th : Thread) : (s.setThread c t th).vat = s.vat := rfl
@[simp] theorem State.setThread_late (s : State) (c t : Nat) (th : Thread) : (s.setThread c t th).late = s.late := rfl
@[simp] theorem State.setThread_failmap (s : State) (c t : Nat) (th : Thread) : (s.setThread c t th).failmap = s.failmap := rfl
@[simp] theorem State.setThread_spmap (s : State) (c t : Nat) (th : Thread) : (s.setThread c t th).spmap = s.spmap := rfl
@[simp] theorem State.setThread_standIn (s : State) (c t : Nat) (th : Thread) : (s.setThread c t th).standIn = s.standIn := rfl
@[simp] theorem State.setThread_route (s : State) (c t : Nat) (th : Thread) : (s.setThread c t th).route = s.route := rfl
@[simp] theorem State.setThread_msglim (s : State) (c t : Nat) (th : Thread) : (s.setThread c t th).msglim = s.msglim := rfl
@[simp] theorem State.setThread_devid (s : State) (c t : Nat) (th : Thread) : (s.setThread c t th).devid = s.devid := rfl
@[simp] theorem State.setThread_fwver (s : State) (c t : Nat) (th : Thread) : (s.setThread c t th).fwver = s.fwver := rfl
@[simp] theorem State.setThread_devSt (s : State) (c t : Nat) (th : Thread) : (s.setThread c t th).devSt = s.devSt := rfl
@[simp] theorem State.setThread_devReady (s : State) (c t : Nat) (th : Thread) : (s.setThread c t th).devReady = s.devReady := rfl
@[simp] theorem State.setThread_fwgo (s : State) (c t : Nat) (th : Thread) : (s.setThread c t th).fwgo = s.fwgo := rfl
@[simp] theorem State.setThread_fwstat (s : State) (c t : Nat) (th : Thread) : (s.setThread c t th).fwstat = s.fwstat := rfl
@[simp] theorem State.setThread_staged (s : State) (c t : Nat) (th : Thread) : (s.setThread c t th).staged = s.staged := rfl
@[simp] theorem State.setThread_running (s : State) (c t : Nat) (th : Thread) : (s.setThread c t th).running = s.running := rfl
@[simp] theorem State.setThread_flash (s : State) (c t : Nat) (th : Thread) : (s.setThread c t th).flash = s.flash := rfl
@[simp] theorem State.setThread_fused (s : State) (c t : Nat) (th : Thread) : (s.setThread c t th).fused = s.fused := rfl
@[simp] theorem State.setThread_fw (s : State) (c t : Nat) (th : Thread) : (s.setThread c t th).fw = s.fw := rfl
@[simp] theorem State.setThread_millWidth (s : State) (c t : Nat) (th : Thread) : (s.setThread c t th).millWidth = s.millWidth := rfl
@[simp] theorem State.setThread_banks (s : State) (c t : Nat) (th : Thread) : (s.setThread c t th).banks = s.banks := rfl
@[simp] theorem State.setThread_ports (s : State) (c t : Nat) (th : Thread) : (s.setThread c t th).ports = s.ports := rfl
@[simp] theorem State.setThread_boot (s : State) (c t : Nat) (th : Thread) : (s.setThread c t th).boot = s.boot := rfl
@[simp] theorem State.setThread_seq (s : State) (c t : Nat) (th : Thread) : (s.setThread c t th).seq = s.seq := rfl
@[simp] theorem State.setThread_egress (s : State) (c t : Nat) (th : Thread) : (s.setThread c t th).egress = s.egress := rfl
@[simp] theorem State.setThread_inbox (s : State) (c t : Nat) (th : Thread) : (s.setThread c t th).inbox = s.inbox := rfl
@[simp] theorem State.setThread_outbox (s : State) (c t : Nat) (th : Thread) : (s.setThread c t th).outbox = s.outbox := rfl
@[simp] theorem State.setThread_throttled (s : State) (c t : Nat) (th : Thread) : (s.setThread c t th).throttled = s.throttled := rfl

/-! ## A change of a thread -/

@[simp] theorem State.modThread_clk (s : State) (c t : Nat) (f : Thread → Thread) : (s.modThread c t f).clk = s.clk := by unfold State.modThread; split <;> rfl
@[simp] theorem State.modThread_turn (s : State) (c t : Nat) (f : Thread → Thread) : (s.modThread c t f).turn = s.turn := by unfold State.modThread; split <;> rfl
@[simp] theorem State.modThread_curCore (s : State) (c t : Nat) (f : Thread → Thread) : (s.modThread c t f).curCore = s.curCore := by unfold State.modThread; split <;> rfl
@[simp] theorem State.modThread_curSlot (s : State) (c t : Nat) (f : Thread → Thread) : (s.modThread c t f).curSlot = s.curSlot := by unfold State.modThread; split <;> rfl
@[simp] theorem State.modThread_agenda (s : State) (c t : Nat) (f : Thread → Thread) : (s.modThread c t f).agenda = s.agenda := by unfold State.modThread; split <;> rfl
@[simp] theorem State.modThread_fresh (s : State) (c t : Nat) (f : Thread → Thread) : (s.modThread c t f).fresh = s.fresh := by unfold State.modThread; split <;> rfl
@[simp] theorem State.modThread_nextOp (s : State) (c t : Nat) (f : Thread → Thread) : (s.modThread c t f).nextOp = s.nextOp := by unfold State.modThread; split <;> rfl
@[simp] theorem State.modThread_nextId (s : State) (c t : Nat) (f : Thread → Thread) : (s.modThread c t f).nextId = s.nextId := by unfold State.modThread; split <;> rfl
@[simp] theorem State.modThread_spad (s : State) (c t : Nat) (f : Thread → Thread) : (s.modThread c t f).spad = s.spad := by unfold State.modThread; split <;> rfl
@[simp] theorem State.modThread_ream (s : State) (c t : Nat) (f : Thread → Thread) : (s.modThread c t f).ream = s.ream := by unfold State.modThread; split <;> rfl
@[simp] theorem State.modThread_dram (s : State) (c t : Nat) (f : Thread → Thread) : (s.modThread c t f).dram = s.dram := by unfold State.modThread; split <;> rfl
@[simp] theorem State.modThread_poisonS (s : State) (c t : Nat) (f : Thread → Thread) : (s.modThread c t f).poisonS = s.poisonS := by unfold State.modThread; split <;> rfl
@[simp] theorem State.modThread_poisonR (s : State) (c t : Nat) (f : Thread → Thread) : (s.modThread c t f).poisonR = s.poisonR := by unfold State.modThread; split <;> rfl
@[simp] theorem State.modThread_poisonD (s : State) (c t : Nat) (f : Thread → Thread) : (s.modThread c t f).poisonD = s.poisonD := by unfold State.modThread; split <;> rfl
@[simp] theorem State.modThread_poisonT (s : State) (c t : Nat) (f : Thread → Thread) : (s.modThread c t f).poisonT = s.poisonT := by unfold State.modThread; split <;> rfl
@[simp] theorem State.modThread_poisonP (s : State) (c t : Nat) (f : Thread → Thread) : (s.modThread c t f).poisonP = s.poisonP := by unfold State.modThread; split <;> rfl
@[simp] theorem State.modThread_ops (s : State) (c t : Nat) (f : Thread → Thread) : (s.modThread c t f).ops = s.ops := by unfold State.modThread; split <;> rfl
@[simp] theorem State.modThread_nodes (s : State) (c t : Nat) (f : Thread → Thread) : (s.modThread c t f).nodes = s.nodes := by unfold State.modThread; split <;> rfl
@[simp] theorem State.modThread_saved (s : State) (c t : Nat) (f : Thread → Thread) : (s.modThread c t f).saved = s.saved := by unfold State.modThread; split <;> rfl
@[simp] theorem State.modThread_streams (s : State) (c t : Nat) (f : Thread → Thread) : (s.modThread c t f).streams = s.streams := by unfold State.modThread; split <;> rfl
@[simp] theorem State.modThread_vds (s : State) (c t : Nat) (f : Thread → Thread) : (s.modThread c t f).vds = s.vds := by unfold State.modThread; split <;> rfl
@[simp] theorem State.modThread_tlb (s : State) (c t : Nat) (f : Thread → Thread) : (s.modThread c t f).tlb = s.tlb := by unfold State.modThread; split <;> rfl
@[simp] theorem State.modThread_cal (s : State) (c t : Nat) (f : Thread → Thread) : (s.modThread c t f).cal = s.cal := by unfold State.modThread; split <;> rfl
@[simp] theorem State.modThread_calNow (s : State) (c t : Nat) (f : Thread → Thread) : (s.modThread c t f).calNow = s.calNow := by unfold State.modThread; split <;> rfl
@[simp] theorem State.modThread_buckets (s : State) (c t : Nat) (f : Thread → Thread) : (s.modThread c t f).buckets = s.buckets := by unfold State.modThread; split <;> rfl
@[simp] theorem State.modThread_links (s : State) (c t : Nat) (f : Thread → Thread) : (s.modThread c t f).links = s.links := by unfold State.modThread; split <;> rfl
@[simp] theorem State.modThread_vat (s : State) (c t : Nat) (f : Thread → Thread) : (s.modThread c t f).vat = s.vat := by unfold State.modThread; split <;> rfl
@[simp] theorem State.modThread_late (s : State) (c t : Nat) (f : Thread → Thread) : (s.modThread c t f).late = s.late := by unfold State.modThread; split <;> rfl
@[simp] theorem State.modThread_failmap (s : State) (c t : Nat) (f : Thread → Thread) : (s.modThread c t f).failmap = s.failmap := by unfold State.modThread; split <;> rfl
@[simp] theorem State.modThread_spmap (s : State) (c t : Nat) (f : Thread → Thread) : (s.modThread c t f).spmap = s.spmap := by unfold State.modThread; split <;> rfl
@[simp] theorem State.modThread_standIn (s : State) (c t : Nat) (f : Thread → Thread) : (s.modThread c t f).standIn = s.standIn := by unfold State.modThread; split <;> rfl
@[simp] theorem State.modThread_route (s : State) (c t : Nat) (f : Thread → Thread) : (s.modThread c t f).route = s.route := by unfold State.modThread; split <;> rfl
@[simp] theorem State.modThread_msglim (s : State) (c t : Nat) (f : Thread → Thread) : (s.modThread c t f).msglim = s.msglim := by unfold State.modThread; split <;> rfl
@[simp] theorem State.modThread_devid (s : State) (c t : Nat) (f : Thread → Thread) : (s.modThread c t f).devid = s.devid := by unfold State.modThread; split <;> rfl
@[simp] theorem State.modThread_fwver (s : State) (c t : Nat) (f : Thread → Thread) : (s.modThread c t f).fwver = s.fwver := by unfold State.modThread; split <;> rfl
@[simp] theorem State.modThread_devSt (s : State) (c t : Nat) (f : Thread → Thread) : (s.modThread c t f).devSt = s.devSt := by unfold State.modThread; split <;> rfl
@[simp] theorem State.modThread_devReady (s : State) (c t : Nat) (f : Thread → Thread) : (s.modThread c t f).devReady = s.devReady := by unfold State.modThread; split <;> rfl
@[simp] theorem State.modThread_fwgo (s : State) (c t : Nat) (f : Thread → Thread) : (s.modThread c t f).fwgo = s.fwgo := by unfold State.modThread; split <;> rfl
@[simp] theorem State.modThread_fwstat (s : State) (c t : Nat) (f : Thread → Thread) : (s.modThread c t f).fwstat = s.fwstat := by unfold State.modThread; split <;> rfl
@[simp] theorem State.modThread_staged (s : State) (c t : Nat) (f : Thread → Thread) : (s.modThread c t f).staged = s.staged := by unfold State.modThread; split <;> rfl
@[simp] theorem State.modThread_running (s : State) (c t : Nat) (f : Thread → Thread) : (s.modThread c t f).running = s.running := by unfold State.modThread; split <;> rfl
@[simp] theorem State.modThread_flash (s : State) (c t : Nat) (f : Thread → Thread) : (s.modThread c t f).flash = s.flash := by unfold State.modThread; split <;> rfl
@[simp] theorem State.modThread_fused (s : State) (c t : Nat) (f : Thread → Thread) : (s.modThread c t f).fused = s.fused := by unfold State.modThread; split <;> rfl
@[simp] theorem State.modThread_fw (s : State) (c t : Nat) (f : Thread → Thread) : (s.modThread c t f).fw = s.fw := by unfold State.modThread; split <;> rfl
@[simp] theorem State.modThread_millWidth (s : State) (c t : Nat) (f : Thread → Thread) : (s.modThread c t f).millWidth = s.millWidth := by unfold State.modThread; split <;> rfl
@[simp] theorem State.modThread_banks (s : State) (c t : Nat) (f : Thread → Thread) : (s.modThread c t f).banks = s.banks := by unfold State.modThread; split <;> rfl
@[simp] theorem State.modThread_ports (s : State) (c t : Nat) (f : Thread → Thread) : (s.modThread c t f).ports = s.ports := by unfold State.modThread; split <;> rfl
@[simp] theorem State.modThread_boot (s : State) (c t : Nat) (f : Thread → Thread) : (s.modThread c t f).boot = s.boot := by unfold State.modThread; split <;> rfl
@[simp] theorem State.modThread_seq (s : State) (c t : Nat) (f : Thread → Thread) : (s.modThread c t f).seq = s.seq := by unfold State.modThread; split <;> rfl
@[simp] theorem State.modThread_egress (s : State) (c t : Nat) (f : Thread → Thread) : (s.modThread c t f).egress = s.egress := by unfold State.modThread; split <;> rfl
@[simp] theorem State.modThread_inbox (s : State) (c t : Nat) (f : Thread → Thread) : (s.modThread c t f).inbox = s.inbox := by unfold State.modThread; split <;> rfl
@[simp] theorem State.modThread_outbox (s : State) (c t : Nat) (f : Thread → Thread) : (s.modThread c t f).outbox = s.outbox := by unfold State.modThread; split <;> rfl
@[simp] theorem State.modThread_throttled (s : State) (c t : Nat) (f : Thread → Thread) : (s.modThread c t f).throttled = s.throttled := by unfold State.modThread; split <;> rfl

/-! ## A change of the current thread -/

@[simp] theorem State.modCur_clk (s : State) (f : Thread → Thread) : (s.modCur f).clk = s.clk := by simp [State.modCur]
@[simp] theorem State.modCur_turn (s : State) (f : Thread → Thread) : (s.modCur f).turn = s.turn := by simp [State.modCur]
@[simp] theorem State.modCur_curCore (s : State) (f : Thread → Thread) : (s.modCur f).curCore = s.curCore := by simp [State.modCur]
@[simp] theorem State.modCur_curSlot (s : State) (f : Thread → Thread) : (s.modCur f).curSlot = s.curSlot := by simp [State.modCur]
@[simp] theorem State.modCur_agenda (s : State) (f : Thread → Thread) : (s.modCur f).agenda = s.agenda := by simp [State.modCur]
@[simp] theorem State.modCur_fresh (s : State) (f : Thread → Thread) : (s.modCur f).fresh = s.fresh := by simp [State.modCur]
@[simp] theorem State.modCur_nextOp (s : State) (f : Thread → Thread) : (s.modCur f).nextOp = s.nextOp := by simp [State.modCur]
@[simp] theorem State.modCur_nextId (s : State) (f : Thread → Thread) : (s.modCur f).nextId = s.nextId := by simp [State.modCur]
@[simp] theorem State.modCur_spad (s : State) (f : Thread → Thread) : (s.modCur f).spad = s.spad := by simp [State.modCur]
@[simp] theorem State.modCur_ream (s : State) (f : Thread → Thread) : (s.modCur f).ream = s.ream := by simp [State.modCur]
@[simp] theorem State.modCur_dram (s : State) (f : Thread → Thread) : (s.modCur f).dram = s.dram := by simp [State.modCur]
@[simp] theorem State.modCur_poisonS (s : State) (f : Thread → Thread) : (s.modCur f).poisonS = s.poisonS := by simp [State.modCur]
@[simp] theorem State.modCur_poisonR (s : State) (f : Thread → Thread) : (s.modCur f).poisonR = s.poisonR := by simp [State.modCur]
@[simp] theorem State.modCur_poisonD (s : State) (f : Thread → Thread) : (s.modCur f).poisonD = s.poisonD := by simp [State.modCur]
@[simp] theorem State.modCur_poisonT (s : State) (f : Thread → Thread) : (s.modCur f).poisonT = s.poisonT := by simp [State.modCur]
@[simp] theorem State.modCur_poisonP (s : State) (f : Thread → Thread) : (s.modCur f).poisonP = s.poisonP := by simp [State.modCur]
@[simp] theorem State.modCur_ops (s : State) (f : Thread → Thread) : (s.modCur f).ops = s.ops := by simp [State.modCur]
@[simp] theorem State.modCur_nodes (s : State) (f : Thread → Thread) : (s.modCur f).nodes = s.nodes := by simp [State.modCur]
@[simp] theorem State.modCur_saved (s : State) (f : Thread → Thread) : (s.modCur f).saved = s.saved := by simp [State.modCur]
@[simp] theorem State.modCur_streams (s : State) (f : Thread → Thread) : (s.modCur f).streams = s.streams := by simp [State.modCur]
@[simp] theorem State.modCur_vds (s : State) (f : Thread → Thread) : (s.modCur f).vds = s.vds := by simp [State.modCur]
@[simp] theorem State.modCur_tlb (s : State) (f : Thread → Thread) : (s.modCur f).tlb = s.tlb := by simp [State.modCur]
@[simp] theorem State.modCur_cal (s : State) (f : Thread → Thread) : (s.modCur f).cal = s.cal := by simp [State.modCur]
@[simp] theorem State.modCur_calNow (s : State) (f : Thread → Thread) : (s.modCur f).calNow = s.calNow := by simp [State.modCur]
@[simp] theorem State.modCur_buckets (s : State) (f : Thread → Thread) : (s.modCur f).buckets = s.buckets := by simp [State.modCur]
@[simp] theorem State.modCur_links (s : State) (f : Thread → Thread) : (s.modCur f).links = s.links := by simp [State.modCur]
@[simp] theorem State.modCur_vat (s : State) (f : Thread → Thread) : (s.modCur f).vat = s.vat := by simp [State.modCur]
@[simp] theorem State.modCur_late (s : State) (f : Thread → Thread) : (s.modCur f).late = s.late := by simp [State.modCur]
@[simp] theorem State.modCur_failmap (s : State) (f : Thread → Thread) : (s.modCur f).failmap = s.failmap := by simp [State.modCur]
@[simp] theorem State.modCur_spmap (s : State) (f : Thread → Thread) : (s.modCur f).spmap = s.spmap := by simp [State.modCur]
@[simp] theorem State.modCur_standIn (s : State) (f : Thread → Thread) : (s.modCur f).standIn = s.standIn := by simp [State.modCur]
@[simp] theorem State.modCur_route (s : State) (f : Thread → Thread) : (s.modCur f).route = s.route := by simp [State.modCur]
@[simp] theorem State.modCur_msglim (s : State) (f : Thread → Thread) : (s.modCur f).msglim = s.msglim := by simp [State.modCur]
@[simp] theorem State.modCur_devid (s : State) (f : Thread → Thread) : (s.modCur f).devid = s.devid := by simp [State.modCur]
@[simp] theorem State.modCur_fwver (s : State) (f : Thread → Thread) : (s.modCur f).fwver = s.fwver := by simp [State.modCur]
@[simp] theorem State.modCur_devSt (s : State) (f : Thread → Thread) : (s.modCur f).devSt = s.devSt := by simp [State.modCur]
@[simp] theorem State.modCur_devReady (s : State) (f : Thread → Thread) : (s.modCur f).devReady = s.devReady := by simp [State.modCur]
@[simp] theorem State.modCur_fwgo (s : State) (f : Thread → Thread) : (s.modCur f).fwgo = s.fwgo := by simp [State.modCur]
@[simp] theorem State.modCur_fwstat (s : State) (f : Thread → Thread) : (s.modCur f).fwstat = s.fwstat := by simp [State.modCur]
@[simp] theorem State.modCur_staged (s : State) (f : Thread → Thread) : (s.modCur f).staged = s.staged := by simp [State.modCur]
@[simp] theorem State.modCur_running (s : State) (f : Thread → Thread) : (s.modCur f).running = s.running := by simp [State.modCur]
@[simp] theorem State.modCur_flash (s : State) (f : Thread → Thread) : (s.modCur f).flash = s.flash := by simp [State.modCur]
@[simp] theorem State.modCur_fused (s : State) (f : Thread → Thread) : (s.modCur f).fused = s.fused := by simp [State.modCur]
@[simp] theorem State.modCur_fw (s : State) (f : Thread → Thread) : (s.modCur f).fw = s.fw := by simp [State.modCur]
@[simp] theorem State.modCur_millWidth (s : State) (f : Thread → Thread) : (s.modCur f).millWidth = s.millWidth := by simp [State.modCur]
@[simp] theorem State.modCur_banks (s : State) (f : Thread → Thread) : (s.modCur f).banks = s.banks := by simp [State.modCur]
@[simp] theorem State.modCur_ports (s : State) (f : Thread → Thread) : (s.modCur f).ports = s.ports := by simp [State.modCur]
@[simp] theorem State.modCur_boot (s : State) (f : Thread → Thread) : (s.modCur f).boot = s.boot := by simp [State.modCur]
@[simp] theorem State.modCur_seq (s : State) (f : Thread → Thread) : (s.modCur f).seq = s.seq := by simp [State.modCur]
@[simp] theorem State.modCur_egress (s : State) (f : Thread → Thread) : (s.modCur f).egress = s.egress := by simp [State.modCur]
@[simp] theorem State.modCur_inbox (s : State) (f : Thread → Thread) : (s.modCur f).inbox = s.inbox := by simp [State.modCur]
@[simp] theorem State.modCur_outbox (s : State) (f : Thread → Thread) : (s.modCur f).outbox = s.outbox := by simp [State.modCur]
@[simp] theorem State.modCur_throttled (s : State) (f : Thread → Thread) : (s.modCur f).throttled = s.throttled := by simp [State.modCur]

/-! ## Retirement -/

@[simp] theorem State.retire_clk (s : State) (p : Pend) (n : Nat) : (s.retire p n).clk = s.clk := by simp [State.retire]
@[simp] theorem State.retire_turn (s : State) (p : Pend) (n : Nat) : (s.retire p n).turn = s.turn := by simp [State.retire]
@[simp] theorem State.retire_curCore (s : State) (p : Pend) (n : Nat) : (s.retire p n).curCore = s.curCore := by simp [State.retire]
@[simp] theorem State.retire_curSlot (s : State) (p : Pend) (n : Nat) : (s.retire p n).curSlot = s.curSlot := by simp [State.retire]
@[simp] theorem State.retire_agenda (s : State) (p : Pend) (n : Nat) : (s.retire p n).agenda = s.agenda := by simp [State.retire]
@[simp] theorem State.retire_fresh (s : State) (p : Pend) (n : Nat) : (s.retire p n).fresh = s.fresh := by simp [State.retire]
@[simp] theorem State.retire_nextOp (s : State) (p : Pend) (n : Nat) : (s.retire p n).nextOp = s.nextOp := by simp [State.retire]
@[simp] theorem State.retire_nextId (s : State) (p : Pend) (n : Nat) : (s.retire p n).nextId = s.nextId := by simp [State.retire]
@[simp] theorem State.retire_spad (s : State) (p : Pend) (n : Nat) : (s.retire p n).spad = s.spad := by simp [State.retire]
@[simp] theorem State.retire_ream (s : State) (p : Pend) (n : Nat) : (s.retire p n).ream = s.ream := by simp [State.retire]
@[simp] theorem State.retire_dram (s : State) (p : Pend) (n : Nat) : (s.retire p n).dram = s.dram := by simp [State.retire]
@[simp] theorem State.retire_poisonS (s : State) (p : Pend) (n : Nat) : (s.retire p n).poisonS = s.poisonS := by simp [State.retire]
@[simp] theorem State.retire_poisonR (s : State) (p : Pend) (n : Nat) : (s.retire p n).poisonR = s.poisonR := by simp [State.retire]
@[simp] theorem State.retire_poisonD (s : State) (p : Pend) (n : Nat) : (s.retire p n).poisonD = s.poisonD := by simp [State.retire]
@[simp] theorem State.retire_poisonT (s : State) (p : Pend) (n : Nat) : (s.retire p n).poisonT = s.poisonT := by simp [State.retire]
@[simp] theorem State.retire_poisonP (s : State) (p : Pend) (n : Nat) : (s.retire p n).poisonP = s.poisonP := by simp [State.retire]
@[simp] theorem State.retire_ops (s : State) (p : Pend) (n : Nat) : (s.retire p n).ops = s.ops := by simp [State.retire]
@[simp] theorem State.retire_nodes (s : State) (p : Pend) (n : Nat) : (s.retire p n).nodes = s.nodes := by simp [State.retire]
@[simp] theorem State.retire_saved (s : State) (p : Pend) (n : Nat) : (s.retire p n).saved = s.saved := by simp [State.retire]
@[simp] theorem State.retire_streams (s : State) (p : Pend) (n : Nat) : (s.retire p n).streams = s.streams := by simp [State.retire]
@[simp] theorem State.retire_vds (s : State) (p : Pend) (n : Nat) : (s.retire p n).vds = s.vds := by simp [State.retire]
@[simp] theorem State.retire_tlb (s : State) (p : Pend) (n : Nat) : (s.retire p n).tlb = s.tlb := by simp [State.retire]
@[simp] theorem State.retire_cal (s : State) (p : Pend) (n : Nat) : (s.retire p n).cal = s.cal := by simp [State.retire]
@[simp] theorem State.retire_calNow (s : State) (p : Pend) (n : Nat) : (s.retire p n).calNow = s.calNow := by simp [State.retire]
@[simp] theorem State.retire_buckets (s : State) (p : Pend) (n : Nat) : (s.retire p n).buckets = s.buckets := by simp [State.retire]
@[simp] theorem State.retire_links (s : State) (p : Pend) (n : Nat) : (s.retire p n).links = s.links := by simp [State.retire]
@[simp] theorem State.retire_vat (s : State) (p : Pend) (n : Nat) : (s.retire p n).vat = s.vat := by simp [State.retire]
@[simp] theorem State.retire_late (s : State) (p : Pend) (n : Nat) : (s.retire p n).late = s.late := by simp [State.retire]
@[simp] theorem State.retire_failmap (s : State) (p : Pend) (n : Nat) : (s.retire p n).failmap = s.failmap := by simp [State.retire]
@[simp] theorem State.retire_spmap (s : State) (p : Pend) (n : Nat) : (s.retire p n).spmap = s.spmap := by simp [State.retire]
@[simp] theorem State.retire_standIn (s : State) (p : Pend) (n : Nat) : (s.retire p n).standIn = s.standIn := by simp [State.retire]
@[simp] theorem State.retire_route (s : State) (p : Pend) (n : Nat) : (s.retire p n).route = s.route := by simp [State.retire]
@[simp] theorem State.retire_msglim (s : State) (p : Pend) (n : Nat) : (s.retire p n).msglim = s.msglim := by simp [State.retire]
@[simp] theorem State.retire_devid (s : State) (p : Pend) (n : Nat) : (s.retire p n).devid = s.devid := by simp [State.retire]
@[simp] theorem State.retire_fwver (s : State) (p : Pend) (n : Nat) : (s.retire p n).fwver = s.fwver := by simp [State.retire]
@[simp] theorem State.retire_devSt (s : State) (p : Pend) (n : Nat) : (s.retire p n).devSt = s.devSt := by simp [State.retire]
@[simp] theorem State.retire_devReady (s : State) (p : Pend) (n : Nat) : (s.retire p n).devReady = s.devReady := by simp [State.retire]
@[simp] theorem State.retire_fwgo (s : State) (p : Pend) (n : Nat) : (s.retire p n).fwgo = s.fwgo := by simp [State.retire]
@[simp] theorem State.retire_fwstat (s : State) (p : Pend) (n : Nat) : (s.retire p n).fwstat = s.fwstat := by simp [State.retire]
@[simp] theorem State.retire_staged (s : State) (p : Pend) (n : Nat) : (s.retire p n).staged = s.staged := by simp [State.retire]
@[simp] theorem State.retire_running (s : State) (p : Pend) (n : Nat) : (s.retire p n).running = s.running := by simp [State.retire]
@[simp] theorem State.retire_flash (s : State) (p : Pend) (n : Nat) : (s.retire p n).flash = s.flash := by simp [State.retire]
@[simp] theorem State.retire_fused (s : State) (p : Pend) (n : Nat) : (s.retire p n).fused = s.fused := by simp [State.retire]
@[simp] theorem State.retire_fw (s : State) (p : Pend) (n : Nat) : (s.retire p n).fw = s.fw := by simp [State.retire]
@[simp] theorem State.retire_millWidth (s : State) (p : Pend) (n : Nat) : (s.retire p n).millWidth = s.millWidth := by simp [State.retire]
@[simp] theorem State.retire_banks (s : State) (p : Pend) (n : Nat) : (s.retire p n).banks = s.banks := by simp [State.retire]
@[simp] theorem State.retire_ports (s : State) (p : Pend) (n : Nat) : (s.retire p n).ports = s.ports := by simp [State.retire]
@[simp] theorem State.retire_boot (s : State) (p : Pend) (n : Nat) : (s.retire p n).boot = s.boot := by simp [State.retire]
@[simp] theorem State.retire_seq (s : State) (p : Pend) (n : Nat) : (s.retire p n).seq = s.seq := by simp [State.retire]
@[simp] theorem State.retire_egress (s : State) (p : Pend) (n : Nat) : (s.retire p n).egress = s.egress := by simp [State.retire]
@[simp] theorem State.retire_inbox (s : State) (p : Pend) (n : Nat) : (s.retire p n).inbox = s.inbox := by simp [State.retire]
@[simp] theorem State.retire_outbox (s : State) (p : Pend) (n : Nat) : (s.retire p n).outbox = s.outbox := by simp [State.retire]
@[simp] theorem State.retire_throttled (s : State) (p : Pend) (n : Nat) : (s.retire p n).throttled = s.throttled := by simp [State.retire]

/-! ## A node -/

@[simp] theorem State.setNode_clk (s : State) (n : Nat) (x : Node) : (s.setNode n x).clk = s.clk := rfl
@[simp] theorem State.setNode_turn (s : State) (n : Nat) (x : Node) : (s.setNode n x).turn = s.turn := rfl
@[simp] theorem State.setNode_curCore (s : State) (n : Nat) (x : Node) : (s.setNode n x).curCore = s.curCore := rfl
@[simp] theorem State.setNode_curSlot (s : State) (n : Nat) (x : Node) : (s.setNode n x).curSlot = s.curSlot := rfl
@[simp] theorem State.setNode_agenda (s : State) (n : Nat) (x : Node) : (s.setNode n x).agenda = s.agenda := rfl
@[simp] theorem State.setNode_fresh (s : State) (n : Nat) (x : Node) : (s.setNode n x).fresh = s.fresh := rfl
@[simp] theorem State.setNode_nextOp (s : State) (n : Nat) (x : Node) : (s.setNode n x).nextOp = s.nextOp := rfl
@[simp] theorem State.setNode_nextId (s : State) (n : Nat) (x : Node) : (s.setNode n x).nextId = s.nextId := rfl
@[simp] theorem State.setNode_spad (s : State) (n : Nat) (x : Node) : (s.setNode n x).spad = s.spad := rfl
@[simp] theorem State.setNode_ream (s : State) (n : Nat) (x : Node) : (s.setNode n x).ream = s.ream := rfl
@[simp] theorem State.setNode_dram (s : State) (n : Nat) (x : Node) : (s.setNode n x).dram = s.dram := rfl
@[simp] theorem State.setNode_poisonS (s : State) (n : Nat) (x : Node) : (s.setNode n x).poisonS = s.poisonS := rfl
@[simp] theorem State.setNode_poisonR (s : State) (n : Nat) (x : Node) : (s.setNode n x).poisonR = s.poisonR := rfl
@[simp] theorem State.setNode_poisonD (s : State) (n : Nat) (x : Node) : (s.setNode n x).poisonD = s.poisonD := rfl
@[simp] theorem State.setNode_poisonT (s : State) (n : Nat) (x : Node) : (s.setNode n x).poisonT = s.poisonT := rfl
@[simp] theorem State.setNode_poisonP (s : State) (n : Nat) (x : Node) : (s.setNode n x).poisonP = s.poisonP := rfl
@[simp] theorem State.setNode_cores (s : State) (n : Nat) (x : Node) : (s.setNode n x).cores = s.cores := rfl
@[simp] theorem State.setNode_ops (s : State) (n : Nat) (x : Node) : (s.setNode n x).ops = s.ops := rfl
@[simp] theorem State.setNode_saved (s : State) (n : Nat) (x : Node) : (s.setNode n x).saved = s.saved := rfl
@[simp] theorem State.setNode_streams (s : State) (n : Nat) (x : Node) : (s.setNode n x).streams = s.streams := rfl
@[simp] theorem State.setNode_vds (s : State) (n : Nat) (x : Node) : (s.setNode n x).vds = s.vds := rfl
@[simp] theorem State.setNode_tlb (s : State) (n : Nat) (x : Node) : (s.setNode n x).tlb = s.tlb := rfl
@[simp] theorem State.setNode_cal (s : State) (n : Nat) (x : Node) : (s.setNode n x).cal = s.cal := rfl
@[simp] theorem State.setNode_calNow (s : State) (n : Nat) (x : Node) : (s.setNode n x).calNow = s.calNow := rfl
@[simp] theorem State.setNode_buckets (s : State) (n : Nat) (x : Node) : (s.setNode n x).buckets = s.buckets := rfl
@[simp] theorem State.setNode_links (s : State) (n : Nat) (x : Node) : (s.setNode n x).links = s.links := rfl
@[simp] theorem State.setNode_vat (s : State) (n : Nat) (x : Node) : (s.setNode n x).vat = s.vat := rfl
@[simp] theorem State.setNode_late (s : State) (n : Nat) (x : Node) : (s.setNode n x).late = s.late := rfl
@[simp] theorem State.setNode_failmap (s : State) (n : Nat) (x : Node) : (s.setNode n x).failmap = s.failmap := rfl
@[simp] theorem State.setNode_spmap (s : State) (n : Nat) (x : Node) : (s.setNode n x).spmap = s.spmap := rfl
@[simp] theorem State.setNode_standIn (s : State) (n : Nat) (x : Node) : (s.setNode n x).standIn = s.standIn := rfl
@[simp] theorem State.setNode_route (s : State) (n : Nat) (x : Node) : (s.setNode n x).route = s.route := rfl
@[simp] theorem State.setNode_msglim (s : State) (n : Nat) (x : Node) : (s.setNode n x).msglim = s.msglim := rfl
@[simp] theorem State.setNode_devid (s : State) (n : Nat) (x : Node) : (s.setNode n x).devid = s.devid := rfl
@[simp] theorem State.setNode_fwver (s : State) (n : Nat) (x : Node) : (s.setNode n x).fwver = s.fwver := rfl
@[simp] theorem State.setNode_devSt (s : State) (n : Nat) (x : Node) : (s.setNode n x).devSt = s.devSt := rfl
@[simp] theorem State.setNode_devReady (s : State) (n : Nat) (x : Node) : (s.setNode n x).devReady = s.devReady := rfl
@[simp] theorem State.setNode_fwgo (s : State) (n : Nat) (x : Node) : (s.setNode n x).fwgo = s.fwgo := rfl
@[simp] theorem State.setNode_fwstat (s : State) (n : Nat) (x : Node) : (s.setNode n x).fwstat = s.fwstat := rfl
@[simp] theorem State.setNode_staged (s : State) (n : Nat) (x : Node) : (s.setNode n x).staged = s.staged := rfl
@[simp] theorem State.setNode_running (s : State) (n : Nat) (x : Node) : (s.setNode n x).running = s.running := rfl
@[simp] theorem State.setNode_flash (s : State) (n : Nat) (x : Node) : (s.setNode n x).flash = s.flash := rfl
@[simp] theorem State.setNode_fused (s : State) (n : Nat) (x : Node) : (s.setNode n x).fused = s.fused := rfl
@[simp] theorem State.setNode_fw (s : State) (n : Nat) (x : Node) : (s.setNode n x).fw = s.fw := rfl
@[simp] theorem State.setNode_millWidth (s : State) (n : Nat) (x : Node) : (s.setNode n x).millWidth = s.millWidth := rfl
@[simp] theorem State.setNode_banks (s : State) (n : Nat) (x : Node) : (s.setNode n x).banks = s.banks := rfl
@[simp] theorem State.setNode_ports (s : State) (n : Nat) (x : Node) : (s.setNode n x).ports = s.ports := rfl
@[simp] theorem State.setNode_boot (s : State) (n : Nat) (x : Node) : (s.setNode n x).boot = s.boot := rfl
@[simp] theorem State.setNode_seq (s : State) (n : Nat) (x : Node) : (s.setNode n x).seq = s.seq := rfl
@[simp] theorem State.setNode_egress (s : State) (n : Nat) (x : Node) : (s.setNode n x).egress = s.egress := rfl
@[simp] theorem State.setNode_inbox (s : State) (n : Nat) (x : Node) : (s.setNode n x).inbox = s.inbox := rfl
@[simp] theorem State.setNode_outbox (s : State) (n : Nat) (x : Node) : (s.setNode n x).outbox = s.outbox := rfl
@[simp] theorem State.setNode_throttled (s : State) (n : Nat) (x : Node) : (s.setNode n x).throttled = s.throttled := rfl

/-! ## A virtual device -/

@[simp] theorem State.modVd_clk (s : State) (n : Fin 8) (f : Vd → Vd) : (s.modVd n f).clk = s.clk := rfl
@[simp] theorem State.modVd_turn (s : State) (n : Fin 8) (f : Vd → Vd) : (s.modVd n f).turn = s.turn := rfl
@[simp] theorem State.modVd_curCore (s : State) (n : Fin 8) (f : Vd → Vd) : (s.modVd n f).curCore = s.curCore := rfl
@[simp] theorem State.modVd_curSlot (s : State) (n : Fin 8) (f : Vd → Vd) : (s.modVd n f).curSlot = s.curSlot := rfl
@[simp] theorem State.modVd_agenda (s : State) (n : Fin 8) (f : Vd → Vd) : (s.modVd n f).agenda = s.agenda := rfl
@[simp] theorem State.modVd_fresh (s : State) (n : Fin 8) (f : Vd → Vd) : (s.modVd n f).fresh = s.fresh := rfl
@[simp] theorem State.modVd_nextOp (s : State) (n : Fin 8) (f : Vd → Vd) : (s.modVd n f).nextOp = s.nextOp := rfl
@[simp] theorem State.modVd_nextId (s : State) (n : Fin 8) (f : Vd → Vd) : (s.modVd n f).nextId = s.nextId := rfl
@[simp] theorem State.modVd_spad (s : State) (n : Fin 8) (f : Vd → Vd) : (s.modVd n f).spad = s.spad := rfl
@[simp] theorem State.modVd_ream (s : State) (n : Fin 8) (f : Vd → Vd) : (s.modVd n f).ream = s.ream := rfl
@[simp] theorem State.modVd_dram (s : State) (n : Fin 8) (f : Vd → Vd) : (s.modVd n f).dram = s.dram := rfl
@[simp] theorem State.modVd_poisonS (s : State) (n : Fin 8) (f : Vd → Vd) : (s.modVd n f).poisonS = s.poisonS := rfl
@[simp] theorem State.modVd_poisonR (s : State) (n : Fin 8) (f : Vd → Vd) : (s.modVd n f).poisonR = s.poisonR := rfl
@[simp] theorem State.modVd_poisonD (s : State) (n : Fin 8) (f : Vd → Vd) : (s.modVd n f).poisonD = s.poisonD := rfl
@[simp] theorem State.modVd_poisonT (s : State) (n : Fin 8) (f : Vd → Vd) : (s.modVd n f).poisonT = s.poisonT := rfl
@[simp] theorem State.modVd_poisonP (s : State) (n : Fin 8) (f : Vd → Vd) : (s.modVd n f).poisonP = s.poisonP := rfl
@[simp] theorem State.modVd_cores (s : State) (n : Fin 8) (f : Vd → Vd) : (s.modVd n f).cores = s.cores := rfl
@[simp] theorem State.modVd_ops (s : State) (n : Fin 8) (f : Vd → Vd) : (s.modVd n f).ops = s.ops := rfl
@[simp] theorem State.modVd_nodes (s : State) (n : Fin 8) (f : Vd → Vd) : (s.modVd n f).nodes = s.nodes := rfl
@[simp] theorem State.modVd_saved (s : State) (n : Fin 8) (f : Vd → Vd) : (s.modVd n f).saved = s.saved := rfl
@[simp] theorem State.modVd_streams (s : State) (n : Fin 8) (f : Vd → Vd) : (s.modVd n f).streams = s.streams := rfl
@[simp] theorem State.modVd_tlb (s : State) (n : Fin 8) (f : Vd → Vd) : (s.modVd n f).tlb = s.tlb := rfl
@[simp] theorem State.modVd_cal (s : State) (n : Fin 8) (f : Vd → Vd) : (s.modVd n f).cal = s.cal := rfl
@[simp] theorem State.modVd_calNow (s : State) (n : Fin 8) (f : Vd → Vd) : (s.modVd n f).calNow = s.calNow := rfl
@[simp] theorem State.modVd_buckets (s : State) (n : Fin 8) (f : Vd → Vd) : (s.modVd n f).buckets = s.buckets := rfl
@[simp] theorem State.modVd_links (s : State) (n : Fin 8) (f : Vd → Vd) : (s.modVd n f).links = s.links := rfl
@[simp] theorem State.modVd_vat (s : State) (n : Fin 8) (f : Vd → Vd) : (s.modVd n f).vat = s.vat := rfl
@[simp] theorem State.modVd_late (s : State) (n : Fin 8) (f : Vd → Vd) : (s.modVd n f).late = s.late := rfl
@[simp] theorem State.modVd_failmap (s : State) (n : Fin 8) (f : Vd → Vd) : (s.modVd n f).failmap = s.failmap := rfl
@[simp] theorem State.modVd_spmap (s : State) (n : Fin 8) (f : Vd → Vd) : (s.modVd n f).spmap = s.spmap := rfl
@[simp] theorem State.modVd_standIn (s : State) (n : Fin 8) (f : Vd → Vd) : (s.modVd n f).standIn = s.standIn := rfl
@[simp] theorem State.modVd_route (s : State) (n : Fin 8) (f : Vd → Vd) : (s.modVd n f).route = s.route := rfl
@[simp] theorem State.modVd_msglim (s : State) (n : Fin 8) (f : Vd → Vd) : (s.modVd n f).msglim = s.msglim := rfl
@[simp] theorem State.modVd_devid (s : State) (n : Fin 8) (f : Vd → Vd) : (s.modVd n f).devid = s.devid := rfl
@[simp] theorem State.modVd_fwver (s : State) (n : Fin 8) (f : Vd → Vd) : (s.modVd n f).fwver = s.fwver := rfl
@[simp] theorem State.modVd_devSt (s : State) (n : Fin 8) (f : Vd → Vd) : (s.modVd n f).devSt = s.devSt := rfl
@[simp] theorem State.modVd_devReady (s : State) (n : Fin 8) (f : Vd → Vd) : (s.modVd n f).devReady = s.devReady := rfl
@[simp] theorem State.modVd_fwgo (s : State) (n : Fin 8) (f : Vd → Vd) : (s.modVd n f).fwgo = s.fwgo := rfl
@[simp] theorem State.modVd_fwstat (s : State) (n : Fin 8) (f : Vd → Vd) : (s.modVd n f).fwstat = s.fwstat := rfl
@[simp] theorem State.modVd_staged (s : State) (n : Fin 8) (f : Vd → Vd) : (s.modVd n f).staged = s.staged := rfl
@[simp] theorem State.modVd_running (s : State) (n : Fin 8) (f : Vd → Vd) : (s.modVd n f).running = s.running := rfl
@[simp] theorem State.modVd_flash (s : State) (n : Fin 8) (f : Vd → Vd) : (s.modVd n f).flash = s.flash := rfl
@[simp] theorem State.modVd_fused (s : State) (n : Fin 8) (f : Vd → Vd) : (s.modVd n f).fused = s.fused := rfl
@[simp] theorem State.modVd_fw (s : State) (n : Fin 8) (f : Vd → Vd) : (s.modVd n f).fw = s.fw := rfl
@[simp] theorem State.modVd_millWidth (s : State) (n : Fin 8) (f : Vd → Vd) : (s.modVd n f).millWidth = s.millWidth := rfl
@[simp] theorem State.modVd_banks (s : State) (n : Fin 8) (f : Vd → Vd) : (s.modVd n f).banks = s.banks := rfl
@[simp] theorem State.modVd_ports (s : State) (n : Fin 8) (f : Vd → Vd) : (s.modVd n f).ports = s.ports := rfl
@[simp] theorem State.modVd_boot (s : State) (n : Fin 8) (f : Vd → Vd) : (s.modVd n f).boot = s.boot := rfl
@[simp] theorem State.modVd_seq (s : State) (n : Fin 8) (f : Vd → Vd) : (s.modVd n f).seq = s.seq := rfl
@[simp] theorem State.modVd_egress (s : State) (n : Fin 8) (f : Vd → Vd) : (s.modVd n f).egress = s.egress := rfl
@[simp] theorem State.modVd_inbox (s : State) (n : Fin 8) (f : Vd → Vd) : (s.modVd n f).inbox = s.inbox := rfl
@[simp] theorem State.modVd_outbox (s : State) (n : Fin 8) (f : Vd → Vd) : (s.modVd n f).outbox = s.outbox := rfl
@[simp] theorem State.modVd_throttled (s : State) (n : Fin 8) (f : Vd → Vd) : (s.modVd n f).throttled = s.throttled := rfl

/-! ## The agenda -/

@[simp] theorem State.due_clk (s : State) (ck : Nat) (i : Instr) : (s.due ck i).clk = s.clk := rfl
@[simp] theorem State.due_turn (s : State) (ck : Nat) (i : Instr) : (s.due ck i).turn = s.turn := rfl
@[simp] theorem State.due_curCore (s : State) (ck : Nat) (i : Instr) : (s.due ck i).curCore = s.curCore := rfl
@[simp] theorem State.due_curSlot (s : State) (ck : Nat) (i : Instr) : (s.due ck i).curSlot = s.curSlot := rfl
@[simp] theorem State.due_fresh (s : State) (ck : Nat) (i : Instr) : (s.due ck i).fresh = s.fresh := rfl
@[simp] theorem State.due_nextOp (s : State) (ck : Nat) (i : Instr) : (s.due ck i).nextOp = s.nextOp := rfl
@[simp] theorem State.due_nextId (s : State) (ck : Nat) (i : Instr) : (s.due ck i).nextId = s.nextId := rfl
@[simp] theorem State.due_spad (s : State) (ck : Nat) (i : Instr) : (s.due ck i).spad = s.spad := rfl
@[simp] theorem State.due_ream (s : State) (ck : Nat) (i : Instr) : (s.due ck i).ream = s.ream := rfl
@[simp] theorem State.due_dram (s : State) (ck : Nat) (i : Instr) : (s.due ck i).dram = s.dram := rfl
@[simp] theorem State.due_poisonS (s : State) (ck : Nat) (i : Instr) : (s.due ck i).poisonS = s.poisonS := rfl
@[simp] theorem State.due_poisonR (s : State) (ck : Nat) (i : Instr) : (s.due ck i).poisonR = s.poisonR := rfl
@[simp] theorem State.due_poisonD (s : State) (ck : Nat) (i : Instr) : (s.due ck i).poisonD = s.poisonD := rfl
@[simp] theorem State.due_poisonT (s : State) (ck : Nat) (i : Instr) : (s.due ck i).poisonT = s.poisonT := rfl
@[simp] theorem State.due_poisonP (s : State) (ck : Nat) (i : Instr) : (s.due ck i).poisonP = s.poisonP := rfl
@[simp] theorem State.due_cores (s : State) (ck : Nat) (i : Instr) : (s.due ck i).cores = s.cores := rfl
@[simp] theorem State.due_ops (s : State) (ck : Nat) (i : Instr) : (s.due ck i).ops = s.ops := rfl
@[simp] theorem State.due_nodes (s : State) (ck : Nat) (i : Instr) : (s.due ck i).nodes = s.nodes := rfl
@[simp] theorem State.due_saved (s : State) (ck : Nat) (i : Instr) : (s.due ck i).saved = s.saved := rfl
@[simp] theorem State.due_streams (s : State) (ck : Nat) (i : Instr) : (s.due ck i).streams = s.streams := rfl
@[simp] theorem State.due_vds (s : State) (ck : Nat) (i : Instr) : (s.due ck i).vds = s.vds := rfl
@[simp] theorem State.due_tlb (s : State) (ck : Nat) (i : Instr) : (s.due ck i).tlb = s.tlb := rfl
@[simp] theorem State.due_cal (s : State) (ck : Nat) (i : Instr) : (s.due ck i).cal = s.cal := rfl
@[simp] theorem State.due_calNow (s : State) (ck : Nat) (i : Instr) : (s.due ck i).calNow = s.calNow := rfl
@[simp] theorem State.due_buckets (s : State) (ck : Nat) (i : Instr) : (s.due ck i).buckets = s.buckets := rfl
@[simp] theorem State.due_links (s : State) (ck : Nat) (i : Instr) : (s.due ck i).links = s.links := rfl
@[simp] theorem State.due_vat (s : State) (ck : Nat) (i : Instr) : (s.due ck i).vat = s.vat := rfl
@[simp] theorem State.due_late (s : State) (ck : Nat) (i : Instr) : (s.due ck i).late = s.late := rfl
@[simp] theorem State.due_failmap (s : State) (ck : Nat) (i : Instr) : (s.due ck i).failmap = s.failmap := rfl
@[simp] theorem State.due_spmap (s : State) (ck : Nat) (i : Instr) : (s.due ck i).spmap = s.spmap := rfl
@[simp] theorem State.due_standIn (s : State) (ck : Nat) (i : Instr) : (s.due ck i).standIn = s.standIn := rfl
@[simp] theorem State.due_route (s : State) (ck : Nat) (i : Instr) : (s.due ck i).route = s.route := rfl
@[simp] theorem State.due_msglim (s : State) (ck : Nat) (i : Instr) : (s.due ck i).msglim = s.msglim := rfl
@[simp] theorem State.due_devid (s : State) (ck : Nat) (i : Instr) : (s.due ck i).devid = s.devid := rfl
@[simp] theorem State.due_fwver (s : State) (ck : Nat) (i : Instr) : (s.due ck i).fwver = s.fwver := rfl
@[simp] theorem State.due_devSt (s : State) (ck : Nat) (i : Instr) : (s.due ck i).devSt = s.devSt := rfl
@[simp] theorem State.due_devReady (s : State) (ck : Nat) (i : Instr) : (s.due ck i).devReady = s.devReady := rfl
@[simp] theorem State.due_fwgo (s : State) (ck : Nat) (i : Instr) : (s.due ck i).fwgo = s.fwgo := rfl
@[simp] theorem State.due_fwstat (s : State) (ck : Nat) (i : Instr) : (s.due ck i).fwstat = s.fwstat := rfl
@[simp] theorem State.due_staged (s : State) (ck : Nat) (i : Instr) : (s.due ck i).staged = s.staged := rfl
@[simp] theorem State.due_running (s : State) (ck : Nat) (i : Instr) : (s.due ck i).running = s.running := rfl
@[simp] theorem State.due_flash (s : State) (ck : Nat) (i : Instr) : (s.due ck i).flash = s.flash := rfl
@[simp] theorem State.due_fused (s : State) (ck : Nat) (i : Instr) : (s.due ck i).fused = s.fused := rfl
@[simp] theorem State.due_fw (s : State) (ck : Nat) (i : Instr) : (s.due ck i).fw = s.fw := rfl
@[simp] theorem State.due_millWidth (s : State) (ck : Nat) (i : Instr) : (s.due ck i).millWidth = s.millWidth := rfl
@[simp] theorem State.due_banks (s : State) (ck : Nat) (i : Instr) : (s.due ck i).banks = s.banks := rfl
@[simp] theorem State.due_ports (s : State) (ck : Nat) (i : Instr) : (s.due ck i).ports = s.ports := rfl
@[simp] theorem State.due_boot (s : State) (ck : Nat) (i : Instr) : (s.due ck i).boot = s.boot := rfl
@[simp] theorem State.due_seq (s : State) (ck : Nat) (i : Instr) : (s.due ck i).seq = s.seq := rfl
@[simp] theorem State.due_egress (s : State) (ck : Nat) (i : Instr) : (s.due ck i).egress = s.egress := rfl
@[simp] theorem State.due_inbox (s : State) (ck : Nat) (i : Instr) : (s.due ck i).inbox = s.inbox := rfl
@[simp] theorem State.due_outbox (s : State) (ck : Nat) (i : Instr) : (s.due ck i).outbox = s.outbox := rfl
@[simp] theorem State.due_throttled (s : State) (ck : Nat) (i : Instr) : (s.due ck i).throttled = s.throttled := rfl

/-! ## A free value drawn -/

@[simp] theorem State.drawn_clk (s : State)  : (s.drawn).clk = s.clk := rfl
@[simp] theorem State.drawn_turn (s : State)  : (s.drawn).turn = s.turn := rfl
@[simp] theorem State.drawn_curCore (s : State)  : (s.drawn).curCore = s.curCore := rfl
@[simp] theorem State.drawn_curSlot (s : State)  : (s.drawn).curSlot = s.curSlot := rfl
@[simp] theorem State.drawn_agenda (s : State)  : (s.drawn).agenda = s.agenda := rfl
@[simp] theorem State.drawn_nextOp (s : State)  : (s.drawn).nextOp = s.nextOp := rfl
@[simp] theorem State.drawn_nextId (s : State)  : (s.drawn).nextId = s.nextId := rfl
@[simp] theorem State.drawn_spad (s : State)  : (s.drawn).spad = s.spad := rfl
@[simp] theorem State.drawn_ream (s : State)  : (s.drawn).ream = s.ream := rfl
@[simp] theorem State.drawn_dram (s : State)  : (s.drawn).dram = s.dram := rfl
@[simp] theorem State.drawn_poisonS (s : State)  : (s.drawn).poisonS = s.poisonS := rfl
@[simp] theorem State.drawn_poisonR (s : State)  : (s.drawn).poisonR = s.poisonR := rfl
@[simp] theorem State.drawn_poisonD (s : State)  : (s.drawn).poisonD = s.poisonD := rfl
@[simp] theorem State.drawn_poisonT (s : State)  : (s.drawn).poisonT = s.poisonT := rfl
@[simp] theorem State.drawn_poisonP (s : State)  : (s.drawn).poisonP = s.poisonP := rfl
@[simp] theorem State.drawn_cores (s : State)  : (s.drawn).cores = s.cores := rfl
@[simp] theorem State.drawn_ops (s : State)  : (s.drawn).ops = s.ops := rfl
@[simp] theorem State.drawn_nodes (s : State)  : (s.drawn).nodes = s.nodes := rfl
@[simp] theorem State.drawn_saved (s : State)  : (s.drawn).saved = s.saved := rfl
@[simp] theorem State.drawn_streams (s : State)  : (s.drawn).streams = s.streams := rfl
@[simp] theorem State.drawn_vds (s : State)  : (s.drawn).vds = s.vds := rfl
@[simp] theorem State.drawn_tlb (s : State)  : (s.drawn).tlb = s.tlb := rfl
@[simp] theorem State.drawn_cal (s : State)  : (s.drawn).cal = s.cal := rfl
@[simp] theorem State.drawn_calNow (s : State)  : (s.drawn).calNow = s.calNow := rfl
@[simp] theorem State.drawn_buckets (s : State)  : (s.drawn).buckets = s.buckets := rfl
@[simp] theorem State.drawn_links (s : State)  : (s.drawn).links = s.links := rfl
@[simp] theorem State.drawn_vat (s : State)  : (s.drawn).vat = s.vat := rfl
@[simp] theorem State.drawn_late (s : State)  : (s.drawn).late = s.late := rfl
@[simp] theorem State.drawn_failmap (s : State)  : (s.drawn).failmap = s.failmap := rfl
@[simp] theorem State.drawn_spmap (s : State)  : (s.drawn).spmap = s.spmap := rfl
@[simp] theorem State.drawn_standIn (s : State)  : (s.drawn).standIn = s.standIn := rfl
@[simp] theorem State.drawn_route (s : State)  : (s.drawn).route = s.route := rfl
@[simp] theorem State.drawn_msglim (s : State)  : (s.drawn).msglim = s.msglim := rfl
@[simp] theorem State.drawn_devid (s : State)  : (s.drawn).devid = s.devid := rfl
@[simp] theorem State.drawn_fwver (s : State)  : (s.drawn).fwver = s.fwver := rfl
@[simp] theorem State.drawn_devSt (s : State)  : (s.drawn).devSt = s.devSt := rfl
@[simp] theorem State.drawn_devReady (s : State)  : (s.drawn).devReady = s.devReady := rfl
@[simp] theorem State.drawn_fwgo (s : State)  : (s.drawn).fwgo = s.fwgo := rfl
@[simp] theorem State.drawn_fwstat (s : State)  : (s.drawn).fwstat = s.fwstat := rfl
@[simp] theorem State.drawn_staged (s : State)  : (s.drawn).staged = s.staged := rfl
@[simp] theorem State.drawn_running (s : State)  : (s.drawn).running = s.running := rfl
@[simp] theorem State.drawn_flash (s : State)  : (s.drawn).flash = s.flash := rfl
@[simp] theorem State.drawn_fused (s : State)  : (s.drawn).fused = s.fused := rfl
@[simp] theorem State.drawn_fw (s : State)  : (s.drawn).fw = s.fw := rfl
@[simp] theorem State.drawn_millWidth (s : State)  : (s.drawn).millWidth = s.millWidth := rfl
@[simp] theorem State.drawn_banks (s : State)  : (s.drawn).banks = s.banks := rfl
@[simp] theorem State.drawn_ports (s : State)  : (s.drawn).ports = s.ports := rfl
@[simp] theorem State.drawn_boot (s : State)  : (s.drawn).boot = s.boot := rfl
@[simp] theorem State.drawn_seq (s : State)  : (s.drawn).seq = s.seq := rfl
@[simp] theorem State.drawn_egress (s : State)  : (s.drawn).egress = s.egress := rfl
@[simp] theorem State.drawn_inbox (s : State)  : (s.drawn).inbox = s.inbox := rfl
@[simp] theorem State.drawn_outbox (s : State)  : (s.drawn).outbox = s.outbox := rfl
@[simp] theorem State.drawn_throttled (s : State)  : (s.drawn).throttled = s.throttled := rfl

/-! ## A workspace write -/

@[simp] theorem State.wsWrite_clk (s : State) (off n v : Nat) : (s.wsWrite off n v).clk = s.clk := rfl
@[simp] theorem State.wsWrite_turn (s : State) (off n v : Nat) : (s.wsWrite off n v).turn = s.turn := rfl
@[simp] theorem State.wsWrite_curCore (s : State) (off n v : Nat) : (s.wsWrite off n v).curCore = s.curCore := rfl
@[simp] theorem State.wsWrite_curSlot (s : State) (off n v : Nat) : (s.wsWrite off n v).curSlot = s.curSlot := rfl
@[simp] theorem State.wsWrite_agenda (s : State) (off n v : Nat) : (s.wsWrite off n v).agenda = s.agenda := rfl
@[simp] theorem State.wsWrite_fresh (s : State) (off n v : Nat) : (s.wsWrite off n v).fresh = s.fresh := rfl
@[simp] theorem State.wsWrite_nextOp (s : State) (off n v : Nat) : (s.wsWrite off n v).nextOp = s.nextOp := rfl
@[simp] theorem State.wsWrite_nextId (s : State) (off n v : Nat) : (s.wsWrite off n v).nextId = s.nextId := rfl
@[simp] theorem State.wsWrite_ream (s : State) (off n v : Nat) : (s.wsWrite off n v).ream = s.ream := rfl
@[simp] theorem State.wsWrite_dram (s : State) (off n v : Nat) : (s.wsWrite off n v).dram = s.dram := rfl
@[simp] theorem State.wsWrite_poisonR (s : State) (off n v : Nat) : (s.wsWrite off n v).poisonR = s.poisonR := rfl
@[simp] theorem State.wsWrite_poisonD (s : State) (off n v : Nat) : (s.wsWrite off n v).poisonD = s.poisonD := rfl
@[simp] theorem State.wsWrite_poisonT (s : State) (off n v : Nat) : (s.wsWrite off n v).poisonT = s.poisonT := rfl
@[simp] theorem State.wsWrite_poisonP (s : State) (off n v : Nat) : (s.wsWrite off n v).poisonP = s.poisonP := rfl
@[simp] theorem State.wsWrite_cores (s : State) (off n v : Nat) : (s.wsWrite off n v).cores = s.cores := rfl
@[simp] theorem State.wsWrite_ops (s : State) (off n v : Nat) : (s.wsWrite off n v).ops = s.ops := rfl
@[simp] theorem State.wsWrite_nodes (s : State) (off n v : Nat) : (s.wsWrite off n v).nodes = s.nodes := rfl
@[simp] theorem State.wsWrite_saved (s : State) (off n v : Nat) : (s.wsWrite off n v).saved = s.saved := rfl
@[simp] theorem State.wsWrite_streams (s : State) (off n v : Nat) : (s.wsWrite off n v).streams = s.streams := rfl
@[simp] theorem State.wsWrite_vds (s : State) (off n v : Nat) : (s.wsWrite off n v).vds = s.vds := rfl
@[simp] theorem State.wsWrite_tlb (s : State) (off n v : Nat) : (s.wsWrite off n v).tlb = s.tlb := rfl
@[simp] theorem State.wsWrite_cal (s : State) (off n v : Nat) : (s.wsWrite off n v).cal = s.cal := rfl
@[simp] theorem State.wsWrite_calNow (s : State) (off n v : Nat) : (s.wsWrite off n v).calNow = s.calNow := rfl
@[simp] theorem State.wsWrite_buckets (s : State) (off n v : Nat) : (s.wsWrite off n v).buckets = s.buckets := rfl
@[simp] theorem State.wsWrite_links (s : State) (off n v : Nat) : (s.wsWrite off n v).links = s.links := rfl
@[simp] theorem State.wsWrite_vat (s : State) (off n v : Nat) : (s.wsWrite off n v).vat = s.vat := rfl
@[simp] theorem State.wsWrite_late (s : State) (off n v : Nat) : (s.wsWrite off n v).late = s.late := rfl
@[simp] theorem State.wsWrite_failmap (s : State) (off n v : Nat) : (s.wsWrite off n v).failmap = s.failmap := rfl
@[simp] theorem State.wsWrite_spmap (s : State) (off n v : Nat) : (s.wsWrite off n v).spmap = s.spmap := rfl
@[simp] theorem State.wsWrite_standIn (s : State) (off n v : Nat) : (s.wsWrite off n v).standIn = s.standIn := rfl
@[simp] theorem State.wsWrite_route (s : State) (off n v : Nat) : (s.wsWrite off n v).route = s.route := rfl
@[simp] theorem State.wsWrite_msglim (s : State) (off n v : Nat) : (s.wsWrite off n v).msglim = s.msglim := rfl
@[simp] theorem State.wsWrite_devid (s : State) (off n v : Nat) : (s.wsWrite off n v).devid = s.devid := rfl
@[simp] theorem State.wsWrite_fwver (s : State) (off n v : Nat) : (s.wsWrite off n v).fwver = s.fwver := rfl
@[simp] theorem State.wsWrite_devSt (s : State) (off n v : Nat) : (s.wsWrite off n v).devSt = s.devSt := rfl
@[simp] theorem State.wsWrite_devReady (s : State) (off n v : Nat) : (s.wsWrite off n v).devReady = s.devReady := rfl
@[simp] theorem State.wsWrite_fwgo (s : State) (off n v : Nat) : (s.wsWrite off n v).fwgo = s.fwgo := rfl
@[simp] theorem State.wsWrite_fwstat (s : State) (off n v : Nat) : (s.wsWrite off n v).fwstat = s.fwstat := rfl
@[simp] theorem State.wsWrite_staged (s : State) (off n v : Nat) : (s.wsWrite off n v).staged = s.staged := rfl
@[simp] theorem State.wsWrite_running (s : State) (off n v : Nat) : (s.wsWrite off n v).running = s.running := rfl
@[simp] theorem State.wsWrite_flash (s : State) (off n v : Nat) : (s.wsWrite off n v).flash = s.flash := rfl
@[simp] theorem State.wsWrite_fused (s : State) (off n v : Nat) : (s.wsWrite off n v).fused = s.fused := rfl
@[simp] theorem State.wsWrite_fw (s : State) (off n v : Nat) : (s.wsWrite off n v).fw = s.fw := rfl
@[simp] theorem State.wsWrite_millWidth (s : State) (off n v : Nat) : (s.wsWrite off n v).millWidth = s.millWidth := rfl
@[simp] theorem State.wsWrite_banks (s : State) (off n v : Nat) : (s.wsWrite off n v).banks = s.banks := rfl
@[simp] theorem State.wsWrite_ports (s : State) (off n v : Nat) : (s.wsWrite off n v).ports = s.ports := rfl
@[simp] theorem State.wsWrite_boot (s : State) (off n v : Nat) : (s.wsWrite off n v).boot = s.boot := rfl
@[simp] theorem State.wsWrite_seq (s : State) (off n v : Nat) : (s.wsWrite off n v).seq = s.seq := rfl
@[simp] theorem State.wsWrite_egress (s : State) (off n v : Nat) : (s.wsWrite off n v).egress = s.egress := rfl
@[simp] theorem State.wsWrite_inbox (s : State) (off n v : Nat) : (s.wsWrite off n v).inbox = s.inbox := rfl
@[simp] theorem State.wsWrite_outbox (s : State) (off n v : Nat) : (s.wsWrite off n v).outbox = s.outbox := rfl
@[simp] theorem State.wsWrite_throttled (s : State) (off n v : Nat) : (s.wsWrite off n v).throttled = s.throttled := rfl

/-! ## Accessors -/

@[simp] theorem State.core_setCore_same (s : State) (c : Nat) (k : Core) : (s.setCore c k).core c = k := by simp [State.core, State.setCore]

theorem State.core_setCore_other (s : State) {c d : Nat} (k : Core) (h : d ≠ c) : (s.setCore c k).core d = s.core d := by
  simp [State.core, State.setCore, tabGet_tabSet, h]

@[simp] theorem State.core_modCore_same (s : State) (c : Nat) (f : Core → Core) : (s.modCore c f).core c = f (s.core c) := by
  simp [State.modCore]

theorem State.core_modCore_other (s : State) {c d : Nat} (f : Core → Core) (h : d ≠ c) : (s.modCore c f).core d = s.core d :=
  s.core_setCore_other _ h

theorem Core.thread_lt {k : Core} {t : Nat} {th : Thread} (h : k.thread t = some th) : t < 4 := by
  unfold Core.thread at h
  by_cases ht : t < 4
  · exact ht
  · rw [Vector.getElem?_eq_none (by omega)] at h; simp at h

@[simp] theorem Core.thread_setThread_same {k : Core} {t : Nat} {th : Thread} (h : k.thread t = some th) (x : Option Thread) :
    (k.setThread t x).thread t = x := by
  have := Core.thread_lt h
  simp [Core.thread, Core.setThread, this]

theorem Core.thread_setThread_other (k : Core) {t u : Nat} (x : Option Thread) (h : u ≠ t) : (k.setThread t x).thread u = k.thread u := by
  simp only [Core.thread, Core.setThread]
  rw [Vector.getElem?_setIfInBounds_ne (Ne.symm h)]

@[simp] theorem State.thread_setThread_same {s : State} {c t : Nat} {th : Thread} (h : s.thread c t = some th) (x : Thread) :
    (s.setThread c t x).thread c t = some x := by
  unfold State.thread at h ⊢
  simp only [State.setThread, State.core_modCore_same]
  exact Core.thread_setThread_same h (some x)

theorem State.thread_setThread_other (s : State) {c t d u : Nat} (x : Thread) (h : d ≠ c ∨ u ≠ t) :
    (s.setThread c t x).thread d u = s.thread d u := by
  unfold State.thread State.setThread
  by_cases hd : d = c
  · subst d
    rw [State.core_modCore_same, Core.thread_setThread_other _ _ (by simpa using h)]
  · rw [State.core_modCore_other _ _ hd]

@[simp] theorem State.thread_modThread_same {s : State} {c t : Nat} {th : Thread} (h : s.thread c t = some th) (f : Thread → Thread) :
    (s.modThread c t f).thread c t = some (f th) := by
  simp only [State.modThread, h]
  exact State.thread_setThread_same h (f th)

theorem State.thread_modThread_other (s : State) {c t d u : Nat} (f : Thread → Thread) (h : d ≠ c ∨ u ≠ t) :
    (s.modThread c t f).thread d u = s.thread d u := by
  unfold State.modThread
  split
  · rfl
  · exact State.thread_setThread_other s _ h

@[simp] theorem State.cur_setCur {s : State} {th : Thread} (h : s.cur = some th) (x : Thread) : (s.setCur x).cur = some x :=
  State.thread_setThread_same h x

@[simp] theorem State.cur_modCur {s : State} {th : Thread} (h : s.cur = some th) (f : Thread → Thread) : (s.modCur f).cur = some (f th) := by
  have : (s.modCur f).cur = (s.modThread s.curCore s.curSlot f).thread s.curCore s.curSlot := by simp [State.cur, State.modCur]
  rw [this]
  exact State.thread_modThread_same h f

@[simp] theorem State.cur_retire {s : State} {th : Thread} (h : s.cur = some th) (p : Pend) (n : Nat) :
    (s.retire p n).cur = some (th.retire p n) := State.cur_modCur h _

@[simp] theorem State.cur_wsWrite (s : State) (off n v : Nat) : (s.wsWrite off n v).cur = s.cur := rfl

@[simp] theorem State.node_setNode_same (s : State) (n : Nat) (x : Node) : (s.setNode n x).node n = x := by simp [State.node, State.setNode]

theorem State.node_setNode_other (s : State) {n m : Nat} (x : Node) (h : m ≠ n) : (s.setNode n x).node m = s.node m := by
  simp [State.node, State.setNode, tabGet_tabSet, h]

@[simp] theorem State.vd_modVd_same (s : State) (n : Fin 8) (f : Vd → Vd) : (s.modVd n f).vd n = f (s.vd n) := by
  simp [State.vd, State.modVd]

theorem State.vd_modVd_other (s : State) {n m : Fin 8} (f : Vd → Vd) (h : m ≠ n) : (s.modVd n f).vd m = s.vd m := by
  simp only [State.vd, State.modVd, Fin.getElem_fin]
  exact Vector.getElem_set_ne (by omega) (by omega) (fun e => h (Fin.ext e.symm))

end Sys2Proof.Machine
end

