-- ==== Sys2Proof/Laws/Ops.lean ====
section
/-!
SUPPORT. Laws of the shared operations: for each shape of an instruction everything that it can answer, and for each operation on memory
the places that it leaves alone and the canonical form that it keeps.
-/
namespace Sys2Proof.Machine

/-! ## Shapes of instructions -/

theorem withThread_cur {s : State} {th : Thread} (h : s.cur = some th) (f : Thread → Out) : withThread s f = f th := by
  simp [withThread, h]

theorem withThread_next {s t : State} {f : Thread → Out} : withThread s f = .next t ↔ ∃ th, s.cur = some th ∧ f th = .next t := by
  cases h : s.cur <;> simp [withThread, h]

theorem trap_next {k : Trap} {code : Nat} {addr : Word} {s t : State} : trap k code addr s = .next t ↔ t = s.trapCur k code addr := by
  simp [trap, eq_comm]

theorem block_next {w : Why} {s t : State} : block w s = .next t ↔ t = s.modCur (fun th => { th with run := .blocked w }) := by
  simp [block, eq_comm]

/-- A checked instruction goes on with its thread, or its thread takes the illegal-operand trap (01 R14). -/
theorem checked_next {ok : Bool} {s t : State} {k : Thread → Out} : checked ok s k = .next t ↔
    ∃ th, s.cur = some th ∧ ((ok = true ∧ k th = .next t) ∨ (ok = false ∧ t = s.trapCur .illegalOperand 0 0)) := by
  rw [checked, withThread_next]
  cases ok <;> simp [trap_next]

theorem checked_true {s : State} {th : Thread} (h : s.cur = some th) (k : Thread → Out) : checked true s k = k th := by
  simp [checked, withThread, h]

/-- A read gives its value, or the thread waits and nothing else changes. -/
theorem reading_next {α : Type} {r : Except Why (α × Pend)} {s t : State} {k : α → Pend → Out} : reading r s k = .next t ↔
    (∃ x p, r = .ok (x, p) ∧ k x p = .next t) ∨ ∃ w, r = .error w ∧ t = s.modCur (fun th => { th with run := .blocked w }) := by
  cases r with
  | error w => simp [reading, block_next]
  | ok v =>
    obtain ⟨x, p⟩ := v
    constructor
    · exact fun h => .inl ⟨x, p, rfl, h⟩
    · rintro (⟨x', p', e, h⟩ | ⟨w, e, -⟩)
      · cases e; exact h
      · cases e

/-- A write takes place and the instruction retires, or the thread waits and nothing else changes. -/
theorem writing_next {u : Option State} {p : Pend} {n : Nat} {s t : State} : writing u p n s = .next t ↔
    (∃ v, u = some v ∧ t = v.retire p n) ∨ (u = none ∧ t = s.modCur (fun th => { th with run := .blocked .retry })) := by
  cases u <;> simp [writing, block, eq_comm]

/-- d := f(a, b) completes (05 R131). -/
theorem scalar2_completes {s u : State} {th : Thread} {d a b : Code} {x y : Word} {p q : Pend} (f : Word → Word → Word) (hc : s.cur = some th)
    (hd : legalDst d = true) (ha : legalSrc a = true) (hb : legalSrc b = true) (ra : s.read a noPend = .ok (x, p)) (rb : s.read b p = .ok (y, q))
    (hw : s.write d (f x y) = some u) : scalar2 d a b f s = .next (u.retire q 1) := by
  simp [scalar2, checked, withThread, reading, writing, hc, hd, ha, hb, ra, rb, hw]

theorem scalar1_completes {s u : State} {th : Thread} {d a : Code} {x : Word} {p : Pend} (n : Nat) (f : Word → Word) (hc : s.cur = some th)
    (hd : legalDst d = true) (ha : legalSrc a = true) (ra : s.read a noPend = .ok (x, p)) (hw : s.write d (f x) = some u) :
    scalar1 n d a f s = .next (u.retire p n) := by
  simp [scalar1, checked, withThread, reading, writing, hc, hd, ha, ra, hw]

theorem scalar3_completes {s u : State} {th : Thread} {d a b : Code} {x y z : Word} {p q r : Pend} (f : Word → Word → Word → Word)
    (hc : s.cur = some th) (hd : legalBoth d = true) (ha : legalSrc a = true) (hb : legalSrc b = true) (ra : s.read a noPend = .ok (x, p))
    (rb : s.read b p = .ok (y, q)) (rd : s.read d q = .ok (z, r)) (hw : s.write d (f x y z) = some u) : scalar3 d a b f s = .next (u.retire r 1) := by
  simp [scalar3, checked, withThread, reading, writing, hc, hd, ha, hb, ra, rb, rd, hw]

theorem scalar0_completes {s u : State} {th : Thread} {d : Code} (n : Nat) (x : Word) (hc : s.cur = some th) (hd : legalDst d = true)
    (hw : s.write d x = some u) : scalar0 n d x s = .next (u.retire noPend n) := by
  simp [scalar0, checked, withThread, writing, hc, hd, hw]

/-! ## Traps -/

/-- A trap outside handler mode saves and enters (17 R363). -/
theorem State.trapCur_of_thread {s : State} {th : Thread} (h : s.cur = some th) (hh : th.handler = false) (k : Trap) (code : Nat) (addr : Word) :
    s.trapCur k code addr = s.setCur { th with
      tstat := tstatOf th.pc k.kind code
      taddr := addr
      tinfo := tinfoOf 0 7 0 (s.baseWord th th.pc)
      handler := true
      codeFault := false
      pc := Config.handlerEntry
      run := .ready } := by
  have h' : s.thread s.curCore s.curSlot = some th := h
  simp [State.trapCur, h, State.enterTrap, h', hh, State.setCur]

/-- In handler mode it halts the core. -/
theorem State.trapCur_in_handler {s : State} {th : Thread} (h : s.cur = some th) (hh : th.handler = true) (k : Trap) (code : Nat) (addr : Word) :
    s.trapCur k code addr = s.haltCore s.curCore s.curSlot := by
  have h' : s.thread s.curCore s.curSlot = some th := h
  simp [State.trapCur, h, State.enterTrap, h', hh]

/-! ## Reading and writing registers (01 R14) -/

theorem State.read_w {s : State} {th : Thread} {r : Code} (h : s.cur = some th) (hr : r.toNat < 32) (p : Pend) :
    s.read r p = if th.owes (th.wReg r.toNat) then .error .retry else .ok (s.getW r.toNat, p) := by simp [State.read, h, hr]

theorem State.read_zero {s : State} {th : Thread} {r : Code} (h : s.cur = some th) (hr : 40 ≤ r.toNat) (p : Pend) : s.read r p = .ok (0, p) := by
  simp [State.read, h, show ¬ r.toNat < 32 by omega, show ¬ r.toNat < 40 by omega]

/-- Everything that a write to a scalar code can do: a w register, an entry of a store-data queue, or nothing at all. -/
theorem State.write_some {s t : State} {d : Code} {x : Word} (h : s.write d x = some t) : ∃ th, s.cur = some th ∧
    ((d.toNat < 32 ∧ th.owes (th.wReg d.toNat) = false ∧ t = s.setW d.toNat x) ∨
      (32 ≤ d.toNat ∧ d.toNat < 42 ∧ th.owes (.sq (d.toNat - 40)) = false ∧ th.sqRoom (d.toNat - 40) 1 = true ∧
        t = s.setCur (th.sqAppend (d.toNat - 40) [x])) ∨
      (42 ≤ d.toNat ∧ t = s)) := by
  unfold State.write at h
  cases hc : s.cur with
  | none => simp [hc] at h
  | some th =>
    refine ⟨th, rfl, ?_⟩
    simp only [hc] at h
    split at h
    · rename_i h1
      cases ho : th.owes (th.wReg d.toNat) <;> simp [ho] at h
      exact .inl ⟨h1, rfl, h.symm⟩
    · rename_i h1
      split at h
      · rename_i h2
        split at h
        · rename_i h3
          simp only [Bool.and_eq_true, Bool.not_eq_true'] at h3
          exact .inr (.inl ⟨by omega, h2, h3.1, h3.2, by simpa using h.symm⟩)
        · simp at h
      · rename_i h2
        exact .inr (.inr ⟨by omega, by simpa using h.symm⟩)

/-! ## Writes of bytes -/

/-- A wake changes the agenda alone. -/
theorem State.wake_agenda (s : State) (ls : List Loc) : ∃ a, s.wake ls = { s with agenda := a } := by
  simp only [State.wake]
  generalize unitsOf ls = us
  induction us generalizing s with
  | nil => exact ⟨_, rfl⟩
  | cons u t ih =>
    obtain ⟨a, e⟩ := ih (s.wakeUnit u)
    exact ⟨a, by rw [List.foldl_cons, e]; rfl⟩

@[simp] theorem State.wake_spad (s : State) (ls : List Loc) : (s.wake ls).spad = s.spad := by obtain ⟨a, h⟩ := s.wake_agenda ls; rw [h]
@[simp] theorem State.wake_ream (s : State) (ls : List Loc) : (s.wake ls).ream = s.ream := by obtain ⟨a, h⟩ := s.wake_agenda ls; rw [h]
@[simp] theorem State.wake_dram (s : State) (ls : List Loc) : (s.wake ls).dram = s.dram := by obtain ⟨a, h⟩ := s.wake_agenda ls; rw [h]
@[simp] theorem State.wake_cores (s : State) (ls : List Loc) : (s.wake ls).cores = s.cores := by obtain ⟨a, h⟩ := s.wake_agenda ls; rw [h]
@[simp] theorem State.wake_vds (s : State) (ls : List Loc) : (s.wake ls).vds = s.vds := by obtain ⟨a, h⟩ := s.wake_agenda ls; rw [h]
@[simp] theorem State.wake_nodes (s : State) (ls : List Loc) : (s.wake ls).nodes = s.nodes := by obtain ⟨a, h⟩ := s.wake_agenda ls; rw [h]
@[simp] theorem State.wake_tlb (s : State) (ls : List Loc) : (s.wake ls).tlb = s.tlb := by obtain ⟨a, h⟩ := s.wake_agenda ls; rw [h]
@[simp] theorem State.wake_ops (s : State) (ls : List Loc) : (s.wake ls).ops = s.ops := by obtain ⟨a, h⟩ := s.wake_agenda ls; rw [h]

/-- Bytes written at places change scratchpads and DRAM alone. -/
theorem State.putLocs_memories (s : State) (ws : List (Loc × Byte)) : ∃ m d, s.putLocs ws = { s with spad := m, dram := d } := by
  induction ws generalizing s with
  | nil => exact ⟨_, _, rfl⟩
  | cons w t ih =>
    obtain ⟨l, b⟩ := w
    obtain ⟨m, d, e⟩ := ih (s.putLoc l b)
    refine ⟨m, d, ?_⟩
    rw [State.putLocs, e]
    cases hg : l.glob <;> simp [State.putLoc, hg]

@[simp] theorem State.putLocs_ream (s : State) (ws : List (Loc × Byte)) : (s.putLocs ws).ream = s.ream := by obtain ⟨m, d, h⟩ := s.putLocs_memories ws; rw [h]
@[simp] theorem State.putLocs_cores (s : State) (ws : List (Loc × Byte)) : (s.putLocs ws).cores = s.cores := by obtain ⟨m, d, h⟩ := s.putLocs_memories ws; rw [h]
@[simp] theorem State.putLocs_vds (s : State) (ws : List (Loc × Byte)) : (s.putLocs ws).vds = s.vds := by obtain ⟨m, d, h⟩ := s.putLocs_memories ws; rw [h]
@[simp] theorem State.putLocs_nodes (s : State) (ws : List (Loc × Byte)) : (s.putLocs ws).nodes = s.nodes := by obtain ⟨m, d, h⟩ := s.putLocs_memories ws; rw [h]
@[simp] theorem State.putLocs_tlb (s : State) (ws : List (Loc × Byte)) : (s.putLocs ws).tlb = s.tlb := by obtain ⟨m, d, h⟩ := s.putLocs_memories ws; rw [h]
@[simp] theorem State.putLocs_ops (s : State) (ws : List (Loc × Byte)) : (s.putLocs ws).ops = s.ops := by obtain ⟨m, d, h⟩ := s.putLocs_memories ws; rw [h]

@[simp] theorem State.storeLocs_ream (s : State) (ws : List (Loc × Byte)) : (s.storeLocs ws).ream = s.ream := by simp [State.storeLocs, State.noteLate]
@[simp] theorem State.storeLocs_cores (s : State) (ws : List (Loc × Byte)) : (s.storeLocs ws).cores = s.cores := by simp [State.storeLocs, State.noteLate]
@[simp] theorem State.storeLocs_vds (s : State) (ws : List (Loc × Byte)) : (s.storeLocs ws).vds = s.vds := by simp [State.storeLocs, State.noteLate]
@[simp] theorem State.storeLocs_nodes (s : State) (ws : List (Loc × Byte)) : (s.storeLocs ws).nodes = s.nodes := by simp [State.storeLocs, State.noteLate]
@[simp] theorem State.storeLocs_tlb (s : State) (ws : List (Loc × Byte)) : (s.storeLocs ws).tlb = s.tlb := by simp [State.storeLocs, State.noteLate]
@[simp] theorem State.storeLocs_ops (s : State) (ws : List (Loc × Byte)) : (s.storeLocs ws).ops = s.ops := by simp [State.storeLocs, State.noteLate]
@[simp] theorem State.storeLocs_spad (s : State) (ws : List (Loc × Byte)) : (s.storeLocs ws).spad = (s.putLocs ws).spad := by simp [State.storeLocs, State.noteLate]
@[simp] theorem State.storeLocs_dram (s : State) (ws : List (Loc × Byte)) : (s.storeLocs ws).dram = (s.putLocs ws).dram := by simp [State.storeLocs, State.noteLate]

/-- A place that is not written reads as before. -/
theorem State.readLoc_putLoc_other (s : State) {l m : Loc} (b : Byte) (h : m ≠ l) : (s.putLoc l b).readLoc m = s.readLoc m := by
  obtain ⟨g, k⟩ := l
  obtain ⟨g', k'⟩ := m
  have hk : g' = g → k' ≠ k := fun e e' => h (by rw [e, e'])
  cases g <;> cases g' <;> simp [State.putLoc, State.readLoc]
  · exact memRead_write_other _ b (hk rfl)
  · exact memRead_write_other _ b (hk rfl)

theorem State.readLoc_putLocs_outside (s : State) (ws : List (Loc × Byte)) {m : Loc} (h : ∀ w ∈ ws, w.1 ≠ m) :
    (s.putLocs ws).readLoc m = s.readLoc m := by
  induction ws generalizing s with
  | nil => rfl
  | cons w t ih =>
    obtain ⟨l, b⟩ := w
    rw [State.putLocs, ih (s.putLoc l b) (fun w hw => h w (by simp [hw])), State.readLoc_putLoc_other s b (Ne.symm (h (l, b) (by simp)))]

/-- A byte written at a place reads there. -/
theorem State.readLoc_putLoc_same (s : State) (l : Loc) (b : Byte) : (s.putLoc l b).readLoc l = b := by
  obtain ⟨g, k⟩ := l
  cases g <;> simp [State.putLoc, State.readLoc]
  · exact memRead_write_same k b
  · exact memRead_write_same k b

/-! ## The canonical form -/

theorem State.canonical_of_memories {s t : State} (h : s.Canonical) (h1 : t.spad = s.spad) (h2 : t.ream = s.ream) (h3 : t.dram = s.dram) :
    t.Canonical := by
  unfold State.Canonical at *; rw [h1, h2, h3]; exact h

theorem State.canonical_putLoc {s : State} (h : s.Canonical) (l : Loc) (b : Byte) : (s.putLoc l b).Canonical := by
  unfold State.putLoc
  split
  · exact ⟨h.1, h.2.1, memWf_write _ _ h.2.2⟩
  · exact ⟨memWf_write _ _ h.1, h.2.1, h.2.2⟩

theorem State.canonical_putLocs {s : State} (h : s.Canonical) (ws : List (Loc × Byte)) : (s.putLocs ws).Canonical := by
  induction ws generalizing s with
  | nil => exact h
  | cons w t ih => exact ih (State.canonical_putLoc h w.1 w.2)

theorem State.canonical_storeLocs {s : State} (h : s.Canonical) (ws : List (Loc × Byte)) : (s.storeLocs ws).Canonical :=
  State.canonical_of_memories (State.canonical_putLocs h ws) (State.wake_spad _ _) (State.wake_ream _ _) (State.wake_dram _ _)

theorem State.canonical_wsWrite {s : State} (h : s.Canonical) (off n v : Nat) : (s.wsWrite off n v).Canonical :=
  ⟨memWf_put _ _ h.1, h.2.1, h.2.2⟩

theorem State.canonical_modCore {s : State} (h : s.Canonical) (c : Nat) (f : Core → Core) : (s.modCore c f).Canonical := h

theorem State.canonical_modThread {s : State} (h : s.Canonical) (c t : Nat) (f : Thread → Thread) : (s.modThread c t f).Canonical := by
  unfold State.modThread
  split
  · exact h
  · exact h

theorem State.canonical_modCur {s : State} (h : s.Canonical) (f : Thread → Thread) : (s.modCur f).Canonical := State.canonical_modThread h _ _ f

theorem State.canonical_retire {s : State} (h : s.Canonical) (p : Pend) (n : Nat) : (s.retire p n).Canonical := State.canonical_modCur h _

theorem State.canonical_setW {s : State} (h : s.Canonical) (i : Nat) (x : Word) : (s.setW i x).Canonical := by
  unfold State.setW
  split
  · exact h
  · split
    · exact h
    · exact State.canonical_wsWrite h _ _ _

theorem State.canonical_write {s t : State} (h : s.Canonical) {d : Code} {x : Word} (hw : s.write d x = some t) : t.Canonical := by
  obtain ⟨th, -, ⟨-, -, rfl⟩ | ⟨-, -, -, -, rfl⟩ | ⟨-, rfl⟩⟩ := State.write_some hw
  · exact State.canonical_setW h _ _
  · exact h
  · exact h

theorem State.canonical_haltCore {s : State} (h : s.Canonical) (c t : Nat) : (s.haltCore c t).Canonical := by
  unfold State.haltCore
  split
  · exact h
  · exact State.canonical_modThread (State.canonical_modCore h _ _) _ _ _

theorem State.canonical_enterTrap {s : State} (h : s.Canonical) (c t : Nat) (k : Trap) (code : Nat) (addr resume : Word) (tag cls sub : Nat) :
    (s.enterTrap c t k code addr resume tag cls sub).Canonical := by
  unfold State.enterTrap
  split
  · exact h
  · split
    · exact State.canonical_haltCore h _ _
    · exact h

theorem State.canonical_trapCur {s : State} (h : s.Canonical) (k : Trap) (code : Nat) (addr : Word) : (s.trapCur k code addr).Canonical := by
  unfold State.trapCur
  split
  · exact h
  · exact State.canonical_enterTrap h _ _ _ _ _ _ _ _ _

/-- A two-operand integer instruction keeps the canonical form. -/
theorem canonical_scalar2 {s t : State} (h : s.Canonical) {d a b : Code} {f : Word → Word → Word} (e : scalar2 d a b f s = .next t) : t.Canonical := by
  obtain ⟨th, -, ⟨-, e⟩ | ⟨-, rfl⟩⟩ := checked_next.mp e
  · obtain ⟨x, p, -, e⟩ | ⟨w, -, rfl⟩ := reading_next.mp e
    · obtain ⟨y, q, -, e⟩ | ⟨w, -, rfl⟩ := reading_next.mp e
      · obtain ⟨v, hv, rfl⟩ | ⟨-, rfl⟩ := writing_next.mp e
        · exact State.canonical_retire (State.canonical_write h hv) _ _
        · exact State.canonical_modCur h _
      · exact State.canonical_modCur h _
    · exact State.canonical_modCur h _
  · exact State.canonical_trapCur h _ _ _

theorem canonical_scalar1 {s t : State} (h : s.Canonical) {n : Nat} {d a : Code} {f : Word → Word} (e : scalar1 n d a f s = .next t) : t.Canonical := by
  obtain ⟨th, -, ⟨-, e⟩ | ⟨-, rfl⟩⟩ := checked_next.mp e
  · obtain ⟨x, p, -, e⟩ | ⟨w, -, rfl⟩ := reading_next.mp e
    · obtain ⟨v, hv, rfl⟩ | ⟨-, rfl⟩ := writing_next.mp e
      · exact State.canonical_retire (State.canonical_write h hv) _ _
      · exact State.canonical_modCur h _
    · exact State.canonical_modCur h _
  · exact State.canonical_trapCur h _ _ _

/-! ## Ranges of virtual addresses -/

/-- A mapped check that every element passes gives its results. -/
theorem mapM_ok {α β ε : Type} {P : β → Prop} (f : α → Except ε β) (l : List α) (h : ∀ a ∈ l, ∃ b, f a = .ok b ∧ P b) :
    ∃ bs, l.mapM f = .ok bs ∧ bs.length = l.length ∧ ∀ b ∈ bs, P b := by
  induction l with
  | nil => exact ⟨[], rfl, rfl, by simp⟩
  | cons a t ih =>
    obtain ⟨b, hb, pb⟩ := h a (by simp)
    obtain ⟨bs, hbs, hl, hp⟩ := ih (fun x hx => h x (by simp [hx]))
    refine ⟨b :: bs, ?_, by simp [hl], ?_⟩
    · rw [List.mapM_cons, hb, hbs]; rfl
    · intro x hx
      rcases List.mem_cons.mp hx with rfl | hx
      · exact pb
      · exact hp x hx

theorem memBytes_congr {m m' : Memory} (n a : Nat) (h : ∀ x, a ≤ x → x < a + n → memRead m x = memRead m' x) : memBytes m a n = memBytes m' a n := by
  induction n generalizing a with
  | zero => rfl
  | succ n ih => rw [memBytes, memBytes, h a (by omega) (by omega), ih (a + 1) (fun x h1 h2 => h x (by omega) (by omega))]

end Sys2Proof.Machine
end

