-- ==== Sys2Proof/Laws/Caches.lean ====
section
/-!
SUPPORT. Laws of the caches (Vat, L1s, TLBs): whatever an access does to them, no thread, no memory and no other unit changes.
-/
namespace Sys2Proof.Machine

theorem tabGet_map {α : Type} (f : Nat → α → α) (t : Tab α) (i : Nat) :
    tabGet (t.map (fun (c, k) => (c, f c k))) i = (tabGet t i).map (f i) := by
  induction t with
  | nil => rfl
  | cons h t ih =>
    obtain ⟨c, k⟩ := h
    by_cases e : c = i
    · subst e; simp [tabGet]
    · simpa [tabGet, e] using ih

theorem CachesOnly.refl (s : State) : CachesOnly s s := ⟨rfl, fun _ => rfl⟩

theorem CachesOnly.trans {s t u : State} (a : CachesOnly s t) (b : CachesOnly t u) : CachesOnly s u := by
  obtain ⟨ar, ac⟩ := a
  obtain ⟨br, bc⟩ := b
  refine ⟨?_, fun c => ?_⟩
  · cases s; cases t; cases u; simp_all
  · have h1 := ac c; have h2 := bc c
    rw [← h2] at h1
    simpa using h1

theorem CachesOnly.thread {s t : State} (h : CachesOnly s t) (c j : Nat) : t.thread c j = s.thread c j := by
  have e := congrArg Core.slots (h.cores c)
  simp only at e
  simp [State.thread, Core.thread, e]

theorem CachesOnly.memories {s t : State} (h : CachesOnly s t) : t.spad = s.spad ∧ t.ream = s.ream ∧ t.dram = s.dram := by
  obtain ⟨r, -⟩ := h
  cases s; cases t; simp_all

theorem CachesOnly.canonical {s t : State} (h : CachesOnly s t) (hs : s.Canonical) : t.Canonical :=
  State.canonical_of_memories hs h.memories.1 h.memories.2.1 h.memories.2.2

/-- A change of the L1s of some cores. -/
theorem CachesOnly.l1 (s : State) (f : Nat → Core → Core)
    (hf : ∀ c k, { f c k with l1d := k.l1d, l1i := k.l1i } = k) : CachesOnly s { s with cores := s.cores.map (fun (c, k) => (c, f c k)) } := by
  refine ⟨rfl, fun c => ?_⟩
  simp only [State.core, tabGet_map]
  cases tabGet s.cores c with
  | none => rfl
  | some k => exact hf c k

theorem CachesOnly.vat (s : State) (v : Vat) : CachesOnly s { s with vat := v } := ⟨rfl, fun _ => rfl⟩
theorem CachesOnly.fresh (s : State) (n : Nat) : CachesOnly s { s with fresh := n } := ⟨rfl, fun _ => rfl⟩

theorem State.writeBack_caches (s : State) (x : L1Line) : CachesOnly s (s.writeBack x) := by
  unfold State.writeBack
  split
  · exact .refl s
  · exact .refl s
  · exact .vat s _

theorem CachesOnly.foldl {α : Type} (f : State → α → State) (hf : ∀ s a, CachesOnly s (f s a)) (l : List α) (s : State) :
    CachesOnly s (l.foldl f s) := by
  induction l generalizing s with
  | nil => exact .refl s
  | cons a t ih => exact (hf s a).trans (ih (f s a))

theorem State.recall_caches (s : State) (but : Option Nat) (line : Nat) : CachesOnly s (s.recall but line) := by
  have h := CachesOnly.foldl State.writeBack State.writeBack_caches (s.cores.filterMap (fun (c, k) => if some c = but then none else k.l1Line line)) s
  unfold State.recall
  dsimp only
  generalize List.foldl State.writeBack s _ = u at h ⊢
  refine (h.trans (.vat u (u.vat.soleSharer line but))).trans
    (CachesOnly.l1 { u with vat := u.vat.soleSharer line but }
      (fun c k => if some c = but then k else { k with l1d := k.l1d.filter (fun x => x.line != line) }) ?_)
  intro c k; dsimp only; split <;> rfl

theorem State.sharedRead_caches (s : State) (but line : Nat) : CachesOnly s (s.sharedRead but line) := by
  refine CachesOnly.l1 s (fun c k => if c = but then k else { k with l1d := k.l1d.map (fun x => if x.line = line then x.toShared else x) }) ?_
  intro c k; dsimp only; split <;> rfl

theorem State.l1Put_caches (s : State) (c : Nat) (x : L1Line) : CachesOnly s (s.l1Put c x) := by
  have key : ∀ (t : State) (l : List L1Line), CachesOnly s t →
      CachesOnly s { t with cores := tabSet t.cores c { (tabGet s.cores c).getD Core.reset with l1d := l } } := by
    intro t l h
    refine ⟨?_, fun d => ?_⟩
    · have := h.rest; cases s; cases t; simp_all
    · by_cases e : d = c
      · subst e; simp [State.core, tabGet_tabSet]
      · simpa [State.core, tabGet_tabSet, e] using h.cores d
  unfold State.l1Put
  dsimp only
  split
  · exact key _ _ (.refl s)
  · exact key _ _ (s.writeBack_caches _)

theorem State.l1Read_caches (s : State) (c : Nat) (vd : Fin 8) (cls line : Nat) : CachesOnly s (s.l1Read c vd cls line) := by
  unfold State.l1Read
  dsimp only
  split
  · exact .refl s
  · exact ((s.sharedRead_caches c line).trans (.vat _ _)).trans (State.l1Put_caches _ _ _)

theorem State.l1Write_caches (s : State) (c : Nat) (vd : Fin 8) (cls line : Nat) : CachesOnly s (s.l1Write c vd cls line) := by
  refine ((s.l1Read_caches c vd cls line).trans (State.recall_caches _ _ _)).trans
    (CachesOnly.l1 _ (fun i k => if i = c then { k with l1d := k.l1d.map (fun x => if x.line = line then { x with st := .modified } else x) } else k) ?_)
  intro i k; dsimp only; split <;> rfl

theorem State.l1Flush_caches (s : State) (c line : Nat) : CachesOnly s (s.l1Flush c line) := by
  unfold State.l1Flush
  split
  · exact .refl s
  · refine (s.writeBack_caches _).trans
      (CachesOnly.l1 _ (fun i k => if i = c then { k with l1d := k.l1d.filter (fun y => y.line != line) } else k) ?_)
    intro i k; dsimp only; split <;> rfl

/-- A core's performed accesses move caches alone. -/
theorem State.coreTouch_caches (s : State) (c : Nat) (vd : Fin 8) (cls : Nat) (wr : Bool) (ls : List Loc) : CachesOnly s (s.coreTouch c vd cls wr ls) := by
  refine CachesOnly.foldl _ (fun st l => ?_) _ s
  refine CachesOnly.trans (t := if wr then st.l1Write c vd cls l else st.l1Read c vd cls l) ?_ (.fresh _ _)
  split
  · exact st.l1Write_caches c vd cls l
  · exact st.l1Read_caches c vd cls l

/-- So do those of every other agent. -/
theorem State.vatTouch_caches (s : State) (vd : Fin 8) (cls : Nat) (wr : Bool) (ls : List Loc) : CachesOnly s (s.vatTouch vd cls wr ls) :=
  CachesOnly.foldl _ (fun st l => ((State.recall_caches st none l).trans (.vat _ _)).trans (.fresh _ _)) _ s

theorem State.drainVat_caches (s : State) : CachesOnly s s.drainVat := by
  unfold State.drainVat
  split
  · exact .refl s
  · exact ⟨rfl, fun _ => rfl⟩

theorem State.tlbLoad_caches (s : State) (core : Option Nat) (vd : Fin 8) (ctx : Nat) (va : Word) : CachesOnly s (s.tlbLoad core vd ctx va) := by
  unfold State.tlbLoad
  dsimp only
  split
  · exact .refl s
  · exact ⟨rfl, fun _ => rfl⟩

theorem State.walkTouch_caches (s : State) (vd : Fin 8) (ctx va : Nat) : CachesOnly s (s.walkTouch vd ctx va) := by
  unfold State.walkTouch
  split
  · exact .refl s
  · exact s.vatTouch_caches _ _ _ _

/-- A translation that enters the TLBs, and its walk, move caches alone. -/
theorem State.tlbFill_caches (s : State) (core : Option Nat) (vd : Fin 8) (ctx : Nat) (va : Word) : CachesOnly s (s.tlbFill core vd ctx va) := by
  unfold State.tlbFill
  dsimp only
  split
  · exact s.tlbLoad_caches core vd ctx va
  · exact (s.tlbLoad_caches core vd ctx va).trans (State.walkTouch_caches _ _ _ _)

theorem State.fillFor_caches (s : State) (th : Thread) (va : Word) (n : Nat) : CachesOnly s (s.fillFor th va n) :=
  (s.tlbFill_caches (some s.curCore) (s.node th.node).vd (s.node th.node).ctx va).trans
    (State.tlbFill_caches (s.tlbFill (some s.curCore) (s.node th.node).vd (s.node th.node).ctx va) (some s.curCore) (s.node th.node).vd
      (s.node th.node).ctx (va + BitVec.ofNat 64 (n - 1)))

/-- The fetch of an instruction moves caches alone. -/
theorem State.fetchTouch_caches (s : State) (c : Nat) (th : Thread) : CachesOnly s (s.fetchTouch c th) := by
  unfold State.fetchTouch
  simp only
  split
  · exact .refl s
  · split
    · refine (s.tlbFill_caches (some c) (s.node th.node).vd (s.node th.node).ctx ((s.node th.node).codeVa + th.pc)).trans ⟨rfl, fun d => ?_⟩
      by_cases e : d = c
      · subst e; rw [State.core_modCore_same]
      · rw [State.core_modCore_other _ _ e]
    · exact .refl s

end Sys2Proof.Machine
end

