-- ==== Sys2Proof/Laws/Encode.lean ====
section
/-!
SUPPORT. What the decoder reads from the words that the encoder writes: one lemma per field of each layout (03 R73),
and one per family of extended words (03 R81 to R87).
-/
namespace Sys2Proof

theorem extract_skip {w v : Nat} (x : BitVec w) (y : BitVec v) (k n : Nat) :
    (x ++ y).extractLsb' (v + k) n = x.extractLsb' k n := by
  ext i hi
  simp [BitVec.getLsbD_append, Nat.add_assoc]

theorem extract_low {w v : Nat} (x : BitVec w) (y : BitVec v) : (x ++ y).extractLsb' 0 v = y := by
  ext i hi
  simp [BitVec.getLsbD_append, hi, BitVec.getLsbD_eq_getElem]

theorem extract_all {v : Nat} (y : BitVec v) : y.extractLsb' 0 v = y := by
  ext i hi
  simp

theorem extract_halves {w v : Nat} (n : BitVec (w + v)) : n.extractLsb' v w ++ n.extractLsb' 0 v = n := by
  ext i hi
  rw [BitVec.getElem_append]
  split
  · simp [BitVec.getLsbD_eq_getElem, hi]
  · rw [BitVec.getElem_extractLsb', Nat.add_sub_cancel' (by omega), BitVec.getLsbD_eq_getElem]

theorem getElem_eq_extract {w : Nat} (x : BitVec w) (i : Nat) (h : i < w) (b : Bool) (e : x.extractLsb' i 1 = BitVec.ofBool b) :
    x[i] = b := by
  have := congrArg (fun z => z.getLsbD 0) e
  simpa [BitVec.getLsbD_eq_getElem, h] using this

section rr
variable (fn b a d maj : BitVec 6) (len : BitVec 2)

@[simp] theorem fnOf_rr : fnOf (rr fn b a d maj len) = fn :=
  ((extract_skip (fn ++ b ++ a ++ d ++ maj) (len) 24 6).trans ((extract_skip (fn ++ b ++ a ++ d) (maj) 18 6).trans ((extract_skip (fn ++ b ++ a) (d) 12 6).trans ((extract_skip (fn ++ b) (a) 6 6).trans ((extract_skip (fn) (b) 0 6).trans (extract_all (fn)))))))

@[simp] theorem bOf_rr : bOf (rr fn b a d maj len) = b :=
  ((extract_skip (fn ++ b ++ a ++ d ++ maj) (len) 18 6).trans ((extract_skip (fn ++ b ++ a ++ d) (maj) 12 6).trans ((extract_skip (fn ++ b ++ a) (d) 6 6).trans ((extract_skip (fn ++ b) (a) 0 6).trans (extract_low (fn) (b))))))

@[simp] theorem aOf_rr : aOf (rr fn b a d maj len) = a :=
  ((extract_skip (fn ++ b ++ a ++ d ++ maj) (len) 12 6).trans ((extract_skip (fn ++ b ++ a ++ d) (maj) 6 6).trans ((extract_skip (fn ++ b ++ a) (d) 0 6).trans (extract_low (fn ++ b) (a)))))

@[simp] theorem dOf_rr : dOf (rr fn b a d maj len) = d :=
  ((extract_skip (fn ++ b ++ a ++ d ++ maj) (len) 6 6).trans ((extract_skip (fn ++ b ++ a ++ d) (maj) 0 6).trans (extract_low (fn ++ b ++ a) (d))))

@[simp] theorem majOf_rr : majOf (rr fn b a d maj len) = maj :=
  ((extract_skip (fn ++ b ++ a ++ d ++ maj) (len) 0 6).trans (extract_low (fn ++ b ++ a ++ d) (maj)))

@[simp] theorem lenOf_rr : lenOf (rr fn b a d maj len) = len :=
  (extract_low (fn ++ b ++ a ++ d ++ maj) (len))

end rr

section ri
variable (imm : BitVec 12) (a d maj : BitVec 6) (len : BitVec 2)

@[simp] theorem immOf_ri : immOf (ri imm a d maj len) = imm :=
  ((extract_skip (imm ++ a ++ d ++ maj) (len) 18 12).trans ((extract_skip (imm ++ a ++ d) (maj) 12 12).trans ((extract_skip (imm ++ a) (d) 6 12).trans ((extract_skip (imm) (a) 0 12).trans (extract_all (imm))))))

@[simp] theorem aOf_ri : aOf (ri imm a d maj len) = a :=
  ((extract_skip (imm ++ a ++ d ++ maj) (len) 12 6).trans ((extract_skip (imm ++ a ++ d) (maj) 6 6).trans ((extract_skip (imm ++ a) (d) 0 6).trans (extract_low (imm) (a)))))

@[simp] theorem dOf_ri : dOf (ri imm a d maj len) = d :=
  ((extract_skip (imm ++ a ++ d ++ maj) (len) 6 6).trans ((extract_skip (imm ++ a ++ d) (maj) 0 6).trans (extract_low (imm ++ a) (d))))

@[simp] theorem majOf_ri : majOf (ri imm a d maj len) = maj :=
  ((extract_skip (imm ++ a ++ d ++ maj) (len) 0 6).trans (extract_low (imm ++ a ++ d) (maj)))

@[simp] theorem lenOf_ri : lenOf (ri imm a d maj len) = len :=
  (extract_low (imm ++ a ++ d ++ maj) (len))

end ri

section bcw
variable (disp : BitVec 8) (cond : BitVec 4) (b a : BitVec 6) (len : BitVec 2)

@[simp] theorem dispOf_bcw : dispOf (bcw disp cond b a len) = disp :=
  ((extract_skip (disp ++ cond ++ b ++ a ++ (0x0A : BitVec 6)) (len) 22 8).trans ((extract_skip (disp ++ cond ++ b ++ a) ((0x0A : BitVec 6)) 16 8).trans ((extract_skip (disp ++ cond ++ b) (a) 10 8).trans ((extract_skip (disp ++ cond) (b) 4 8).trans ((extract_skip (disp) (cond) 0 8).trans (extract_all (disp)))))))

@[simp] theorem condOf_bcw : condOf (bcw disp cond b a len) = cond :=
  ((extract_skip (disp ++ cond ++ b ++ a ++ (0x0A : BitVec 6)) (len) 18 4).trans ((extract_skip (disp ++ cond ++ b ++ a) ((0x0A : BitVec 6)) 12 4).trans ((extract_skip (disp ++ cond ++ b) (a) 6 4).trans ((extract_skip (disp ++ cond) (b) 0 4).trans (extract_low (disp) (cond))))))

@[simp] theorem aOf_bcw : aOf (bcw disp cond b a len) = b :=
  ((extract_skip (disp ++ cond ++ b ++ a ++ (0x0A : BitVec 6)) (len) 12 6).trans ((extract_skip (disp ++ cond ++ b ++ a) ((0x0A : BitVec 6)) 6 6).trans ((extract_skip (disp ++ cond ++ b) (a) 0 6).trans (extract_low (disp ++ cond) (b)))))

@[simp] theorem dOf_bcw : dOf (bcw disp cond b a len) = a :=
  ((extract_skip (disp ++ cond ++ b ++ a ++ (0x0A : BitVec 6)) (len) 6 6).trans ((extract_skip (disp ++ cond ++ b ++ a) ((0x0A : BitVec 6)) 0 6).trans (extract_low (disp ++ cond ++ b) (a))))

@[simp] theorem majOf_bcw : majOf (bcw disp cond b a len) = 0x0A :=
  ((extract_skip (disp ++ cond ++ b ++ a ++ (0x0A : BitVec 6)) (len) 0 6).trans (extract_low (disp ++ cond ++ b ++ a) ((0x0A : BitVec 6))))

@[simp] theorem lenOf_bcw : lenOf (bcw disp cond b a len) = len :=
  (extract_low (disp ++ cond ++ b ++ a ++ (0x0A : BitVec 6)) (len))

end bcw

section jw
variable (body : BitVec 24) (maj : BitVec 6)

@[simp] theorem bodyOf_jw : bodyOf (jw body maj) = body :=
  ((extract_skip (body ++ maj) ((0 : BitVec 2)) 6 24).trans ((extract_skip (body) (maj) 0 24).trans (extract_all (body))))

@[simp] theorem majOf_jw : majOf (jw body maj) = maj :=
  ((extract_skip (body ++ maj) ((0 : BitVec 2)) 0 6).trans (extract_low (body) (maj)))

@[simp] theorem lenOf_jw : lenOf (jw body maj) = 0 :=
  (extract_low (body ++ maj) ((0 : BitVec 2)))

end jw

section hint
variable (body : BitVec 24) (len : BitVec 2)

theorem bodyOf_hint : bodyOf (body ++ (0x3D : BitVec 6) ++ len) = body :=
  ((extract_skip (body ++ (0x3D : BitVec 6)) (len) 6 24).trans ((extract_skip (body) ((0x3D : BitVec 6)) 0 24).trans (extract_all (body))))

theorem majOf_hint : majOf (body ++ (0x3D : BitVec 6) ++ len) = 0x3D :=
  ((extract_skip (body ++ (0x3D : BitVec 6)) (len) 0 6).trans (extract_low (body) ((0x3D : BitVec 6))))

theorem lenOf_hint : lenOf (body ++ (0x3D : BitVec 6) ++ len) = len :=
  (extract_low (body ++ (0x3D : BitVec 6)) (len))

end hint

/-- The decoder sees the fields of an RR word. -/
theorem decode_rr (fn b a d maj : BitVec 6) (len : BitVec 2) (y1 y2 y3 y4 : Word32) :
    decode (rr fn b a d maj len) y1 y2 y3 y4
      = decodeFields maj fn b a d len (rr fn b a d maj len) y1 y2 y3 y4 := by
  simp only [decode, fnOf_rr, bOf_rr, aOf_rr, dOf_rr, majOf_rr, lenOf_rr]

/-- The decoder sees the fields of an RI word. -/
theorem decode_ri (imm : BitVec 12) (a d maj : BitVec 6) (len : BitVec 2) (y1 y2 y3 y4 : Word32) :
    decode (ri imm a d maj len) y1 y2 y3 y4
      = decodeFields maj (fnOf (ri imm a d maj len)) (bOf (ri imm a d maj len)) a d len (ri imm a d maj len) y1 y2 y3 y4 := by
  simp only [decode, aOf_ri, dOf_ri, majOf_ri, lenOf_ri]

/-- The decoder sees the fields of a BC word. -/
theorem decode_bcw (disp : BitVec 8) (cond : BitVec 4) (b a : BitVec 6) (len : BitVec 2) (y1 y2 y3 y4 : Word32) :
    decode (bcw disp cond b a len) y1 y2 y3 y4 = decodeBc len disp cond b a y1 y2 := by
  simp only [decode, aOf_bcw, dOf_bcw, majOf_bcw, lenOf_bcw]
  change decodeBc len (dispOf _) (condOf _) b a y1 y2 = _
  rw [dispOf_bcw, condOf_bcw]

/-- The decoder sees the fields of a J or IM word. -/
theorem decode_jw (body : BitVec 24) (maj : BitVec 6) (y1 y2 y3 y4 : Word32) :
    decode (jw body maj) y1 y2 y3 y4
      = decodeFields maj (fnOf (jw body maj)) (bOf (jw body maj)) (aOf (jw body maj)) (dOf (jw body maj)) 0 (jw body maj)
          y1 y2 y3 y4 := by
  simp only [decode, majOf_jw, lenOf_jw]

@[simp] theorem litOf_lit (l : Word) : litOf (litLo l) (litHi l) = l := extract_halves (w := 32) (v := 32) l

theorem setWidth_extract_low {w v : Nat} (x : BitVec w) (h : w ≤ v) : (x.setWidth v).extractLsb' 0 w = x := by
  ext i hi
  simp [BitVec.getLsbD_eq_getElem, hi, Nat.lt_of_lt_of_le hi h]

theorem setWidth_extract_high {w v n : Nat} (x : BitVec w) : (x.setWidth v).extractLsb' w n = 0 := by
  ext i hi
  simp

theorem bit_ofBool (b : Bool) : bit b = BitVec.ofBool b := by cases b <;> rfl

theorem Scope.ofCode_code (s : Scope) : Scope.ofCode s.code3.toNat = some s := by cases s <;> rfl
theorem Ord.ofCode_code (o : Ord) : Ord.ofCode o.code = o := by cases o <;> rfl
theorem CollMode.ofCode_code (m : CollMode) : CollMode.ofCode m.code.toNat = some m := by cases m <;> rfl
theorem Cond.ofCode_code (c : Cond) : Cond.ofCode c.code.toNat = some c := by cases c <;> rfl

section memX2
variable (ox : OX) (me : Bool) (msk : BitVec 3)

theorem memX2_9 : (memX2 ox me msk).extractLsb' 9 23 = (0 : BitVec 23) :=
  ((extract_skip ((0 : BitVec 23) ++ ox.scope.code3 ++ ox.ord.code ++ bit me) (msk) 6 23).trans ((extract_skip ((0 : BitVec 23) ++ ox.scope.code3 ++ ox.ord.code) (bit me) 5 23).trans ((extract_skip ((0 : BitVec 23) ++ ox.scope.code3) (ox.ord.code) 3 23).trans ((extract_skip ((0 : BitVec 23)) (ox.scope.code3) 0 23).trans (extract_all ((0 : BitVec 23)))))))

theorem memX2_6 : (memX2 ox me msk).extractLsb' 6 3 = ox.scope.code3 :=
  ((extract_skip ((0 : BitVec 23) ++ ox.scope.code3 ++ ox.ord.code ++ bit me) (msk) 3 3).trans ((extract_skip ((0 : BitVec 23) ++ ox.scope.code3 ++ ox.ord.code) (bit me) 2 3).trans ((extract_skip ((0 : BitVec 23) ++ ox.scope.code3) (ox.ord.code) 0 3).trans (extract_low ((0 : BitVec 23)) (ox.scope.code3)))))

theorem memX2_4 : (memX2 ox me msk).extractLsb' 4 2 = ox.ord.code :=
  ((extract_skip ((0 : BitVec 23) ++ ox.scope.code3 ++ ox.ord.code ++ bit me) (msk) 1 2).trans ((extract_skip ((0 : BitVec 23) ++ ox.scope.code3 ++ ox.ord.code) (bit me) 0 2).trans (extract_low ((0 : BitVec 23) ++ ox.scope.code3) (ox.ord.code))))

theorem memX2_3 : (memX2 ox me msk)[3] = me :=
  getElem_eq_extract _ _ _ _ ((((extract_skip ((0 : BitVec 23) ++ ox.scope.code3 ++ ox.ord.code ++ bit me) (msk) 0 1).trans (extract_low ((0 : BitVec 23) ++ ox.scope.code3 ++ ox.ord.code) (bit me))) : BitVec.extractLsb' 3 1 (memX2 ox me msk) = _).trans (bit_ofBool _))

theorem memX2_0 : (memX2 ox me msk).extractLsb' 0 3 = msk :=
  (extract_low ((0 : BitVec 23) ++ ox.scope.code3 ++ ox.ord.code ++ bit me) (msk))

end memX2

section vecX1
variable (v : VX) (c : Code)

theorem vecX1_15 : (vecX1 v c).extractLsb' 15 17 = (0 : BitVec 17) :=
  ((extract_skip ((0 : BitVec 17) ++ v.fmto ++ bit v.me ++ v.msk) (c) 9 17).trans ((extract_skip ((0 : BitVec 17) ++ v.fmto ++ bit v.me) (v.msk) 6 17).trans ((extract_skip ((0 : BitVec 17) ++ v.fmto) (bit v.me) 5 17).trans ((extract_skip ((0 : BitVec 17)) (v.fmto) 0 17).trans (extract_all ((0 : BitVec 17)))))))

theorem vecX1_10 : (vecX1 v c).extractLsb' 10 5 = v.fmto :=
  ((extract_skip ((0 : BitVec 17) ++ v.fmto ++ bit v.me ++ v.msk) (c) 4 5).trans ((extract_skip ((0 : BitVec 17) ++ v.fmto ++ bit v.me) (v.msk) 1 5).trans ((extract_skip ((0 : BitVec 17) ++ v.fmto) (bit v.me) 0 5).trans (extract_low ((0 : BitVec 17)) (v.fmto)))))

theorem vecX1_9 : (vecX1 v c)[9] = v.me :=
  getElem_eq_extract _ _ _ _ ((((extract_skip ((0 : BitVec 17) ++ v.fmto ++ bit v.me ++ v.msk) (c) 3 1).trans ((extract_skip ((0 : BitVec 17) ++ v.fmto ++ bit v.me) (v.msk) 0 1).trans (extract_low ((0 : BitVec 17) ++ v.fmto) (bit v.me)))) : BitVec.extractLsb' 9 1 (vecX1 v c) = _).trans (bit_ofBool _))

theorem vecX1_6 : (vecX1 v c).extractLsb' 6 3 = v.msk :=
  ((extract_skip ((0 : BitVec 17) ++ v.fmto ++ bit v.me ++ v.msk) (c) 0 3).trans (extract_low ((0 : BitVec 17) ++ v.fmto ++ bit v.me) (v.msk)))

theorem vecX1_0 : (vecX1 v c).extractLsb' 0 6 = c :=
  (extract_low ((0 : BitVec 17) ++ v.fmto ++ bit v.me ++ v.msk) (c))

end vecX1

section prsX1
variable (fmto : BitVec 5) (idx : BitVec 4) (xi ad nb na : Bool) (sb sa acc : BitVec 3)

theorem prsX1_22 : (prsX1 fmto idx xi ad nb na sb sa acc).extractLsb' 22 10 = (0 : BitVec 10) :=
  ((extract_skip ((0 : BitVec 10) ++ fmto ++ idx ++ bit xi ++ bit ad ++ bit nb ++ bit na ++ sb ++ sa) (acc) 19 10).trans ((extract_skip ((0 : BitVec 10) ++ fmto ++ idx ++ bit xi ++ bit ad ++ bit nb ++ bit na ++ sb) (sa) 16 10).trans ((extract_skip ((0 : BitVec 10) ++ fmto ++ idx ++ bit xi ++ bit ad ++ bit nb ++ bit na) (sb) 13 10).trans ((extract_skip ((0 : BitVec 10) ++ fmto ++ idx ++ bit xi ++ bit ad ++ bit nb) (bit na) 12 10).trans ((extract_skip ((0 : BitVec 10) ++ fmto ++ idx ++ bit xi ++ bit ad) (bit nb) 11 10).trans ((extract_skip ((0 : BitVec 10) ++ fmto ++ idx ++ bit xi) (bit ad) 10 10).trans ((extract_skip ((0 : BitVec 10) ++ fmto ++ idx) (bit xi) 9 10).trans ((extract_skip ((0 : BitVec 10) ++ fmto) (idx) 5 10).trans ((extract_skip ((0 : BitVec 10)) (fmto) 0 10).trans (extract_all ((0 : BitVec 10))))))))))))

theorem prsX1_17 : (prsX1 fmto idx xi ad nb na sb sa acc).extractLsb' 17 5 = fmto :=
  ((extract_skip ((0 : BitVec 10) ++ fmto ++ idx ++ bit xi ++ bit ad ++ bit nb ++ bit na ++ sb ++ sa) (acc) 14 5).trans ((extract_skip ((0 : BitVec 10) ++ fmto ++ idx ++ bit xi ++ bit ad ++ bit nb ++ bit na ++ sb) (sa) 11 5).trans ((extract_skip ((0 : BitVec 10) ++ fmto ++ idx ++ bit xi ++ bit ad ++ bit nb ++ bit na) (sb) 8 5).trans ((extract_skip ((0 : BitVec 10) ++ fmto ++ idx ++ bit xi ++ bit ad ++ bit nb) (bit na) 7 5).trans ((extract_skip ((0 : BitVec 10) ++ fmto ++ idx ++ bit xi ++ bit ad) (bit nb) 6 5).trans ((extract_skip ((0 : BitVec 10) ++ fmto ++ idx ++ bit xi) (bit ad) 5 5).trans ((extract_skip ((0 : BitVec 10) ++ fmto ++ idx) (bit xi) 4 5).trans ((extract_skip ((0 : BitVec 10) ++ fmto) (idx) 0 5).trans (extract_low ((0 : BitVec 10)) (fmto))))))))))

theorem prsX1_13 : (prsX1 fmto idx xi ad nb na sb sa acc).extractLsb' 13 4 = idx :=
  ((extract_skip ((0 : BitVec 10) ++ fmto ++ idx ++ bit xi ++ bit ad ++ bit nb ++ bit na ++ sb ++ sa) (acc) 10 4).trans ((extract_skip ((0 : BitVec 10) ++ fmto ++ idx ++ bit xi ++ bit ad ++ bit nb ++ bit na ++ sb) (sa) 7 4).trans ((extract_skip ((0 : BitVec 10) ++ fmto ++ idx ++ bit xi ++ bit ad ++ bit nb ++ bit na) (sb) 4 4).trans ((extract_skip ((0 : BitVec 10) ++ fmto ++ idx ++ bit xi ++ bit ad ++ bit nb) (bit na) 3 4).trans ((extract_skip ((0 : BitVec 10) ++ fmto ++ idx ++ bit xi ++ bit ad) (bit nb) 2 4).trans ((extract_skip ((0 : BitVec 10) ++ fmto ++ idx ++ bit xi) (bit ad) 1 4).trans ((extract_skip ((0 : BitVec 10) ++ fmto ++ idx) (bit xi) 0 4).trans (extract_low ((0 : BitVec 10) ++ fmto) (idx)))))))))

theorem prsX1_12 : (prsX1 fmto idx xi ad nb na sb sa acc)[12] = xi :=
  getElem_eq_extract _ _ _ _ ((((extract_skip ((0 : BitVec 10) ++ fmto ++ idx ++ bit xi ++ bit ad ++ bit nb ++ bit na ++ sb ++ sa) (acc) 9 1).trans ((extract_skip ((0 : BitVec 10) ++ fmto ++ idx ++ bit xi ++ bit ad ++ bit nb ++ bit na ++ sb) (sa) 6 1).trans ((extract_skip ((0 : BitVec 10) ++ fmto ++ idx ++ bit xi ++ bit ad ++ bit nb ++ bit na) (sb) 3 1).trans ((extract_skip ((0 : BitVec 10) ++ fmto ++ idx ++ bit xi ++ bit ad ++ bit nb) (bit na) 2 1).trans ((extract_skip ((0 : BitVec 10) ++ fmto ++ idx ++ bit xi ++ bit ad) (bit nb) 1 1).trans ((extract_skip ((0 : BitVec 10) ++ fmto ++ idx ++ bit xi) (bit ad) 0 1).trans (extract_low ((0 : BitVec 10) ++ fmto ++ idx) (bit xi)))))))) : BitVec.extractLsb' 12 1 (prsX1 fmto idx xi ad nb na sb sa acc) = _).trans (bit_ofBool _))

theorem prsX1_11 : (prsX1 fmto idx xi ad nb na sb sa acc)[11] = ad :=
  getElem_eq_extract _ _ _ _ ((((extract_skip ((0 : BitVec 10) ++ fmto ++ idx ++ bit xi ++ bit ad ++ bit nb ++ bit na ++ sb ++ sa) (acc) 8 1).trans ((extract_skip ((0 : BitVec 10) ++ fmto ++ idx ++ bit xi ++ bit ad ++ bit nb ++ bit na ++ sb) (sa) 5 1).trans ((extract_skip ((0 : BitVec 10) ++ fmto ++ idx ++ bit xi ++ bit ad ++ bit nb ++ bit na) (sb) 2 1).trans ((extract_skip ((0 : BitVec 10) ++ fmto ++ idx ++ bit xi ++ bit ad ++ bit nb) (bit na) 1 1).trans ((extract_skip ((0 : BitVec 10) ++ fmto ++ idx ++ bit xi ++ bit ad) (bit nb) 0 1).trans (extract_low ((0 : BitVec 10) ++ fmto ++ idx ++ bit xi) (bit ad))))))) : BitVec.extractLsb' 11 1 (prsX1 fmto idx xi ad nb na sb sa acc) = _).trans (bit_ofBool _))

theorem prsX1_10 : (prsX1 fmto idx xi ad nb na sb sa acc)[10] = nb :=
  getElem_eq_extract _ _ _ _ ((((extract_skip ((0 : BitVec 10) ++ fmto ++ idx ++ bit xi ++ bit ad ++ bit nb ++ bit na ++ sb ++ sa) (acc) 7 1).trans ((extract_skip ((0 : BitVec 10) ++ fmto ++ idx ++ bit xi ++ bit ad ++ bit nb ++ bit na ++ sb) (sa) 4 1).trans ((extract_skip ((0 : BitVec 10) ++ fmto ++ idx ++ bit xi ++ bit ad ++ bit nb ++ bit na) (sb) 1 1).trans ((extract_skip ((0 : BitVec 10) ++ fmto ++ idx ++ bit xi ++ bit ad ++ bit nb) (bit na) 0 1).trans (extract_low ((0 : BitVec 10) ++ fmto ++ idx ++ bit xi ++ bit ad) (bit nb)))))) : BitVec.extractLsb' 10 1 (prsX1 fmto idx xi ad nb na sb sa acc) = _).trans (bit_ofBool _))

theorem prsX1_9 : (prsX1 fmto idx xi ad nb na sb sa acc)[9] = na :=
  getElem_eq_extract _ _ _ _ ((((extract_skip ((0 : BitVec 10) ++ fmto ++ idx ++ bit xi ++ bit ad ++ bit nb ++ bit na ++ sb ++ sa) (acc) 6 1).trans ((extract_skip ((0 : BitVec 10) ++ fmto ++ idx ++ bit xi ++ bit ad ++ bit nb ++ bit na ++ sb) (sa) 3 1).trans ((extract_skip ((0 : BitVec 10) ++ fmto ++ idx ++ bit xi ++ bit ad ++ bit nb ++ bit na) (sb) 0 1).trans (extract_low ((0 : BitVec 10) ++ fmto ++ idx ++ bit xi ++ bit ad ++ bit nb) (bit na))))) : BitVec.extractLsb' 9 1 (prsX1 fmto idx xi ad nb na sb sa acc) = _).trans (bit_ofBool _))

theorem prsX1_6 : (prsX1 fmto idx xi ad nb na sb sa acc).extractLsb' 6 3 = sb :=
  ((extract_skip ((0 : BitVec 10) ++ fmto ++ idx ++ bit xi ++ bit ad ++ bit nb ++ bit na ++ sb ++ sa) (acc) 3 3).trans ((extract_skip ((0 : BitVec 10) ++ fmto ++ idx ++ bit xi ++ bit ad ++ bit nb ++ bit na ++ sb) (sa) 0 3).trans (extract_low ((0 : BitVec 10) ++ fmto ++ idx ++ bit xi ++ bit ad ++ bit nb ++ bit na) (sb))))

theorem prsX1_3 : (prsX1 fmto idx xi ad nb na sb sa acc).extractLsb' 3 3 = sa :=
  ((extract_skip ((0 : BitVec 10) ++ fmto ++ idx ++ bit xi ++ bit ad ++ bit nb ++ bit na ++ sb ++ sa) (acc) 0 3).trans (extract_low ((0 : BitVec 10) ++ fmto ++ idx ++ bit xi ++ bit ad ++ bit nb ++ bit na ++ sb) (sa)))

theorem prsX1_0 : (prsX1 fmto idx xi ad nb na sb sa acc).extractLsb' 0 3 = acc :=
  (extract_low ((0 : BitVec 10) ++ fmto ++ idx ++ bit xi ++ bit ad ++ bit nb ++ bit na ++ sb ++ sa) (acc))

end prsX1

section collX1
variable (fmto : BitVec 5) (mode : BitVec 4) (gid : BitVec 8)

theorem collX1_17 : (collX1 fmto mode gid).extractLsb' 17 15 = (0 : BitVec 15) :=
  ((extract_skip ((0 : BitVec 15) ++ fmto ++ mode) (gid) 9 15).trans ((extract_skip ((0 : BitVec 15) ++ fmto) (mode) 5 15).trans ((extract_skip ((0 : BitVec 15)) (fmto) 0 15).trans (extract_all ((0 : BitVec 15))))))

theorem collX1_12 : (collX1 fmto mode gid).extractLsb' 12 5 = fmto :=
  ((extract_skip ((0 : BitVec 15) ++ fmto ++ mode) (gid) 4 5).trans ((extract_skip ((0 : BitVec 15) ++ fmto) (mode) 0 5).trans (extract_low ((0 : BitVec 15)) (fmto))))

theorem collX1_8 : (collX1 fmto mode gid).extractLsb' 8 4 = mode :=
  ((extract_skip ((0 : BitVec 15) ++ fmto ++ mode) (gid) 0 4).trans (extract_low ((0 : BitVec 15) ++ fmto) (mode)))

theorem collX1_0 : (collX1 fmto mode gid).extractLsb' 0 8 = gid :=
  (extract_low ((0 : BitVec 15) ++ fmto ++ mode) (gid))

end collX1

section waitcBody
variable (ld st : BitVec 5) (cp : BitVec 7) (pr : BitVec 4) (cr : BitVec 3)

theorem waitcBody_21 : ((cr ++ pr ++ cp ++ st ++ ld : BitVec 24)).extractLsb' 21 3 = cr :=
  ((extract_skip (cr ++ pr ++ cp ++ st) (ld) 16 3).trans ((extract_skip (cr ++ pr ++ cp) (st) 11 3).trans ((extract_skip (cr ++ pr) (cp) 4 3).trans ((extract_skip (cr) (pr) 0 3).trans (extract_all (cr))))))

theorem waitcBody_17 : ((cr ++ pr ++ cp ++ st ++ ld : BitVec 24)).extractLsb' 17 4 = pr :=
  ((extract_skip (cr ++ pr ++ cp ++ st) (ld) 12 4).trans ((extract_skip (cr ++ pr ++ cp) (st) 7 4).trans ((extract_skip (cr ++ pr) (cp) 0 4).trans (extract_low (cr) (pr)))))

theorem waitcBody_10 : ((cr ++ pr ++ cp ++ st ++ ld : BitVec 24)).extractLsb' 10 7 = cp :=
  ((extract_skip (cr ++ pr ++ cp ++ st) (ld) 5 7).trans ((extract_skip (cr ++ pr ++ cp) (st) 0 7).trans (extract_low (cr ++ pr) (cp))))

theorem waitcBody_5 : ((cr ++ pr ++ cp ++ st ++ ld : BitVec 24)).extractLsb' 5 5 = st :=
  ((extract_skip (cr ++ pr ++ cp ++ st) (ld) 0 5).trans (extract_low (cr ++ pr ++ cp) (st)))

theorem waitcBody_0 : ((cr ++ pr ++ cp ++ st ++ ld : BitVec 24)).extractLsb' 0 5 = ld :=
  (extract_low (cr ++ pr ++ cp ++ st) (ld))

end waitcBody

section shiftImm
variable (op : BitVec 4) (n : BitVec 7)

theorem shiftImm_8 : (shiftImm op n).extractLsb' 8 4 = op :=
  ((extract_skip (op ++ (0 : BitVec 1)) (n) 1 4).trans ((extract_skip (op) ((0 : BitVec 1)) 0 4).trans (extract_all (op))))

theorem shiftImm_7 : (shiftImm op n).extractLsb' 7 1 = (0 : BitVec 1) :=
  ((extract_skip (op ++ (0 : BitVec 1)) (n) 0 1).trans (extract_low (op) ((0 : BitVec 1))))

theorem shiftImm_0 : (shiftImm op n).extractLsb' 0 7 = n :=
  (extract_low (op ++ (0 : BitVec 1)) (n))

end shiftImm

section bfImm
variable (pos l : BitVec 6)

theorem bfImm_6 : ((pos ++ l : BitVec 12)).extractLsb' 6 6 = pos :=
  ((extract_skip (pos) (l) 0 6).trans (extract_all (pos)))

theorem bfImm_0 : ((pos ++ l : BitVec 12)).extractLsb' 0 6 = l :=
  (extract_low (pos) (l))

end bfImm

section hintBody
variable (v : BitVec 16) (kind : BitVec 8)

theorem hintBody_8 : ((v ++ kind : BitVec 24)).extractLsb' 8 16 = v :=
  ((extract_skip (v) (kind) 0 16).trans (extract_all (v)))

theorem hintBody_0 : ((v ++ kind : BitVec 24)).extractLsb' 0 8 = kind :=
  (extract_low (v) (kind))

end hintBody

theorem memX1_off (off : BitVec 12) : (memX1 off).extractLsb' 0 12 = off := by
  unfold memX1
  ext i hi
  simp [BitVec.getLsbD_signExtend, BitVec.getLsbD_eq_getElem, hi]
  omega

/-- The memory family's extended words are read as written (03 R82). -/
theorem mForm_mem {ok : OX → Bool} {mask : Bool} {off : BitVec 12} {ox : OX} {me : Bool} {msk : BitVec 3}
    {k : BitVec 12 → OX → Bool → BitVec 3 → Instr} (h : ok ox = true) (hm : (me || msk == 0) = true)
    (hk : (mask || !me) = true) : mForm ok mask (memX1 off) (memX2 ox me msk) k = .ok (k off ox me msk) := by
  unfold mForm
  simp only [memX1_off, memX2_0, memX2_3, memX2_4, memX2_6, memX2_9, Scope.ofCode_code, Ord.ofCode_code]
  exact if_pos (by simp only [memX1, h, hm, hk, beq_self_eq_true, Bool.and_self])

/-- The floating-point and vector family's extended words are read as written (03 R83). -/
theorem xForm_vec {r : MaskRule} {okF : Nat → Bool} {useC : Bool} {okD : Nat → Nat → Bool} {v : VX} {c : Code}
    {fd : BitVec 5} {k : VX → Code → BitVec 5 → Instr} (hr : r.holds v = true)
    (hf : (v.fmto == 0 || okF v.fmto.toNat) = true) (hc : (useC || c == 0) = true)
    (hd : okD v.fmto.toNat fd.toNat = true) :
    xForm r okF useC okD (vecX1 v c) (fd.setWidth 32) k = .ok (k v c fd) := by
  unfold xForm
  simp only [vecX1_0, vecX1_6, vecX1_9, vecX1_10, vecX1_15, setWidth_extract_low fd (by decide : 5 ≤ 32),
    setWidth_extract_high fd]
  exact if_pos (by simp only [hr, hf, hc, hd, beq_self_eq_true, Bool.and_self])

/-- The collective family's extended words are read as written (03 R86). -/
theorem cForm_coll {ok : Nat → Nat → Bool} {root : Bool} {f : BitVec 5} {md : BitVec 4} {g : BitVec 8} {rt : BitVec 12}
    {k : BitVec 5 → Nat → BitVec 8 → BitVec 12 → Except Reject Instr} (h : ok f.toNat md.toNat = true)
    (hr : (root || rt == 0) = true) :
    cForm ok root (collX1 f md g) (rt.setWidth 32) k = k f md.toNat g rt := by
  unfold cForm
  simp only [collX1_0, collX1_8, collX1_12, collX1_17, setWidth_extract_low rt (by decide : 12 ≤ 32),
    setWidth_extract_high rt]
  exact if_pos (by simp only [h, hr, beq_self_eq_true, Bool.and_self])

/-- The Press family's extended words are read as written (03 R85). -/
theorem pForm_prs {okF : Nat → Bool} {f : BitVec 5} {i : BitVec 4} {xi ad nb na : Bool} {sb sa acc : BitVec 3}
    {k : PX → Except Reject Instr} (h : (f == 0 || okF f.toNat) = true) :
    pForm okF (prsX1 f i xi ad nb na sb sa acc) 0 k = k ⟨f, i, xi, ad, nb, na, sb, sa, acc⟩ := by
  unfold pForm
  simp only [prsX1_0, prsX1_3, prsX1_6, prsX1_9, prsX1_10, prsX1_11, prsX1_12, prsX1_13, prsX1_17, prsX1_22]
  exact if_pos (by simp only [h, beq_self_eq_true, Bool.and_self])

/-- The fabric family's extended words are read as written (03 R87). -/
theorem fab_c (c : Code) (e : Except Reject Instr) (k : Code → Except Reject Instr) (h : k c = e) :
    req (((c.setWidth 32 : Word32).extractLsb' 6 26 == 0) && ((0 : Word32) == 0)) .badExtended
      (k ((c.setWidth 32 : Word32).extractLsb' 0 6)) = e := by
  rw [setWidth_extract_low c (by decide : 6 ≤ 32), setWidth_extract_high c]
  exact h

/-- Majors 0x07 and 0x08 are read as written (03 R91). -/
theorem decodeBf_imm (pos l : BitVec 6) (k : BitVec 6 → BitVec 6 → Instr)
    (h : decide (pos.toNat + l.toNat + 1 ≤ 64) = true) : decodeBf (pos ++ l) k = .ok (k pos l) := by
  unfold decodeBf
  simp only [bfImm_0, bfImm_6]
  exact if_pos h

/-- The fields of a shift immediate with a 6-bit amount (03 R91). -/
theorem shiftImm_fields6 : ∀ op : Fin 4, ∀ n : BitVec 6,
    (shiftImm (BitVec.ofFin (op.castLE (by decide))) (n.setWidth 7))[7] = false
      ∧ (shiftImm (BitVec.ofFin (op.castLE (by decide))) (n.setWidth 7)).extractLsb' 8 4 = BitVec.ofNat 4 op
      ∧ ((shiftImm (BitVec.ofFin (op.castLE (by decide))) (n.setWidth 7)).extractLsb' 0 7 : BitVec 7).toNat < 64
      ∧ (shiftImm (BitVec.ofFin (op.castLE (by decide))) (n.setWidth 7)).extractLsb' 0 6 = n := by decide +kernel

/-- A shift by an immediate is read as written (03 R91). -/
theorem decodeShi_shift (op : Fin 4) (n : BitVec 6) (a d : Code) (i : Instr)
    (h : (match op with
      | 0 => Instr.shlImm d a n | 1 => .shrImm d a n | 2 => .sarImm d a n | 3 => .rolImm d a n) = i) :
    decodeShi (shiftImm (BitVec.ofFin (op.castLE (by decide))) (n.setWidth 7)) a d = .ok i := by
  obtain ⟨h7, h8, hn, h6⟩ := shiftImm_fields6 op n
  unfold decodeShi
  simp only [h7, h8, hn, h6]
  subst h
  match op with
  | 0 => rfl
  | 1 => rfl
  | 2 => rfl
  | 3 => rfl

/-- The fields of an extension's immediate (03 R91). -/
theorem shiftImm_fields7 (op : BitVec 4) (n : BitVec 7) : (shiftImm op n)[7] = false :=
  getElem_eq_extract _ _ _ _ ((shiftImm_7 op n).trans rfl)

/-- SEXT is read as written (03 R91). -/
theorem decodeShi_sext (n : BitVec 7) (a d : Code) (h : decide (1 ≤ n.toNat ∧ n.toNat ≤ 64) = true) :
    decodeShi (shiftImm 4 n) a d = .ok (.sext d a n) := by
  unfold decodeShi
  simp only [shiftImm_fields7, shiftImm_0, shiftImm_8]
  exact if_pos h

/-- ZEXT is read as written (03 R91). -/
theorem decodeShi_zext (n : BitVec 7) (a d : Code) (h : decide (1 ≤ n.toNat ∧ n.toNat ≤ 64) = true) :
    decodeShi (shiftImm 5 n) a d = .ok (.zext d a n) := by
  unfold decodeShi
  simp only [shiftImm_fields7, shiftImm_0, shiftImm_8]
  exact if_pos h

theorem req_true {c : Bool} {r : Reject} {k : Except Reject Instr} (h : c = true) : req c r k = k := by
  simp [req, h]

end Sys2Proof
end

