-- ==== Sys2Proof/Laws/PerInstr.lean ====
section
/-!
SUPPORT. Statements made per instruction. `Encoding`: the words that the encoder writes for a well-formed instruction,
followed by any words, decode to that instruction.
-/
namespace Sys2Proof.Laws

/-- What the encoder writes, the decoder reads. -/
def Encoding.Statement (i : Instr) : Prop := i.wf = true → ∀ rest, decodeWords (encode i ++ rest) = .ok i

section
set_option linter.unusedVariables false

theorem Encoding.add (d a b : Code) : Encoding.Statement (.add d a b) := by
  intro h rest
  exact (decode_rr _ _ _ _ _ _ _ _ _ _).trans (rfl)

theorem Encoding.sub (d a b : Code) : Encoding.Statement (.sub d a b) := by
  intro h rest
  exact (decode_rr _ _ _ _ _ _ _ _ _ _).trans (rfl)

theorem Encoding.mul (d a b : Code) : Encoding.Statement (.mul d a b) := by
  intro h rest
  exact (decode_rr _ _ _ _ _ _ _ _ _ _).trans (rfl)

theorem Encoding.mulh (d a b : Code) : Encoding.Statement (.mulh d a b) := by
  intro h rest
  exact (decode_rr _ _ _ _ _ _ _ _ _ _).trans (rfl)

theorem Encoding.mulhu (d a b : Code) : Encoding.Statement (.mulhu d a b) := by
  intro h rest
  exact (decode_rr _ _ _ _ _ _ _ _ _ _).trans (rfl)

theorem Encoding.div (d a b : Code) : Encoding.Statement (.div d a b) := by
  intro h rest
  exact (decode_rr _ _ _ _ _ _ _ _ _ _).trans (rfl)

theorem Encoding.divu (d a b : Code) : Encoding.Statement (.divu d a b) := by
  intro h rest
  exact (decode_rr _ _ _ _ _ _ _ _ _ _).trans (rfl)

theorem Encoding.rem (d a b : Code) : Encoding.Statement (.rem d a b) := by
  intro h rest
  exact (decode_rr _ _ _ _ _ _ _ _ _ _).trans (rfl)

theorem Encoding.remu (d a b : Code) : Encoding.Statement (.remu d a b) := by
  intro h rest
  exact (decode_rr _ _ _ _ _ _ _ _ _ _).trans (rfl)

theorem Encoding.and (d a b : Code) : Encoding.Statement (.and d a b) := by
  intro h rest
  exact (decode_rr _ _ _ _ _ _ _ _ _ _).trans (rfl)

theorem Encoding.or (d a b : Code) : Encoding.Statement (.or d a b) := by
  intro h rest
  exact (decode_rr _ _ _ _ _ _ _ _ _ _).trans (rfl)

theorem Encoding.xor (d a b : Code) : Encoding.Statement (.xor d a b) := by
  intro h rest
  exact (decode_rr _ _ _ _ _ _ _ _ _ _).trans (rfl)

theorem Encoding.andn (d a b : Code) : Encoding.Statement (.andn d a b) := by
  intro h rest
  exact (decode_rr _ _ _ _ _ _ _ _ _ _).trans (rfl)

theorem Encoding.shl (d a b : Code) : Encoding.Statement (.shl d a b) := by
  intro h rest
  exact (decode_rr _ _ _ _ _ _ _ _ _ _).trans (rfl)

theorem Encoding.shr (d a b : Code) : Encoding.Statement (.shr d a b) := by
  intro h rest
  exact (decode_rr _ _ _ _ _ _ _ _ _ _).trans (rfl)

theorem Encoding.sar (d a b : Code) : Encoding.Statement (.sar d a b) := by
  intro h rest
  exact (decode_rr _ _ _ _ _ _ _ _ _ _).trans (rfl)

theorem Encoding.rol (d a b : Code) : Encoding.Statement (.rol d a b) := by
  intro h rest
  exact (decode_rr _ _ _ _ _ _ _ _ _ _).trans (rfl)

theorem Encoding.min (d a b : Code) : Encoding.Statement (.min d a b) := by
  intro h rest
  exact (decode_rr _ _ _ _ _ _ _ _ _ _).trans (rfl)

theorem Encoding.max (d a b : Code) : Encoding.Statement (.max d a b) := by
  intro h rest
  exact (decode_rr _ _ _ _ _ _ _ _ _ _).trans (rfl)

theorem Encoding.minu (d a b : Code) : Encoding.Statement (.minu d a b) := by
  intro h rest
  exact (decode_rr _ _ _ _ _ _ _ _ _ _).trans (rfl)

theorem Encoding.maxu (d a b : Code) : Encoding.Statement (.maxu d a b) := by
  intro h rest
  exact (decode_rr _ _ _ _ _ _ _ _ _ _).trans (rfl)

theorem Encoding.clz (d a : Code) : Encoding.Statement (.clz d a) := by
  intro h rest
  exact (decode_rr _ _ _ _ _ _ _ _ _ _).trans (rfl)

theorem Encoding.ctz (d a : Code) : Encoding.Statement (.ctz d a) := by
  intro h rest
  exact (decode_rr _ _ _ _ _ _ _ _ _ _).trans (rfl)

theorem Encoding.cpop (d a : Code) : Encoding.Statement (.cpop d a) := by
  intro h rest
  exact (decode_rr _ _ _ _ _ _ _ _ _ _).trans (rfl)

theorem Encoding.mov (d a : Code) : Encoding.Statement (.mov d a) := by
  intro h rest
  exact (decode_rr _ _ _ _ _ _ _ _ _ _).trans (rfl)

theorem Encoding.sel (d a b : Code) : Encoding.Statement (.sel d a b) := by
  intro h rest
  exact (decode_rr _ _ _ _ _ _ _ _ _ _).trans (rfl)

theorem Encoding.lea1 (d a b : Code) : Encoding.Statement (.lea1 d a b) := by
  intro h rest
  exact (decode_rr _ _ _ _ _ _ _ _ _ _).trans (rfl)

theorem Encoding.lea2 (d a b : Code) : Encoding.Statement (.lea2 d a b) := by
  intro h rest
  exact (decode_rr _ _ _ _ _ _ _ _ _ _).trans (rfl)

theorem Encoding.lea4 (d a b : Code) : Encoding.Statement (.lea4 d a b) := by
  intro h rest
  exact (decode_rr _ _ _ _ _ _ _ _ _ _).trans (rfl)

theorem Encoding.lea8 (d a b : Code) : Encoding.Statement (.lea8 d a b) := by
  intro h rest
  exact (decode_rr _ _ _ _ _ _ _ _ _ _).trans (rfl)

theorem Encoding.setc (c : Cond) (d a b : Code) : Encoding.Statement (.setc c d a b) := by
  intro h rest
  cases c <;> exact (decode_rr _ _ _ _ _ _ _ _ _ _).trans (rfl)

theorem Encoding.addImm (d a : Code) (imm : BitVec 12) : Encoding.Statement (.addImm d a imm) := by
  intro h rest
  refine (decode_ri _ _ _ _ _ _ _ _ _).trans ?_
  exact congrArg (fun x => Except.ok (Instr.addImm d a x)) (immOf_ri _ _ _ _ _)

theorem Encoding.addLit (d a : Code) (lit : Word) : Encoding.Statement (.addLit d a lit) := by
  intro h rest
  refine (decode_ri _ _ _ _ _ _ _ _ _).trans ?_
  simp only [decodeFields, immOf_ri]
  exact congrArg (fun l => Except.ok (Instr.addLit d a l)) (litOf_lit lit)

theorem Encoding.subImm (d a : Code) (imm : BitVec 12) : Encoding.Statement (.subImm d a imm) := by
  intro h rest
  refine (decode_ri _ _ _ _ _ _ _ _ _).trans ?_
  exact congrArg (fun x => Except.ok (Instr.subImm d a x)) (immOf_ri _ _ _ _ _)

theorem Encoding.subLit (d a : Code) (lit : Word) : Encoding.Statement (.subLit d a lit) := by
  intro h rest
  refine (decode_ri _ _ _ _ _ _ _ _ _).trans ?_
  simp only [decodeFields, immOf_ri]
  exact congrArg (fun l => Except.ok (Instr.subLit d a l)) (litOf_lit lit)

theorem Encoding.andImm (d a : Code) (imm : BitVec 12) : Encoding.Statement (.andImm d a imm) := by
  intro h rest
  refine (decode_ri _ _ _ _ _ _ _ _ _).trans ?_
  exact congrArg (fun x => Except.ok (Instr.andImm d a x)) (immOf_ri _ _ _ _ _)

theorem Encoding.andLit (d a : Code) (lit : Word) : Encoding.Statement (.andLit d a lit) := by
  intro h rest
  refine (decode_ri _ _ _ _ _ _ _ _ _).trans ?_
  simp only [decodeFields, immOf_ri]
  exact congrArg (fun l => Except.ok (Instr.andLit d a l)) (litOf_lit lit)

theorem Encoding.orImm (d a : Code) (imm : BitVec 12) : Encoding.Statement (.orImm d a imm) := by
  intro h rest
  refine (decode_ri _ _ _ _ _ _ _ _ _).trans ?_
  exact congrArg (fun x => Except.ok (Instr.orImm d a x)) (immOf_ri _ _ _ _ _)

theorem Encoding.orLit (d a : Code) (lit : Word) : Encoding.Statement (.orLit d a lit) := by
  intro h rest
  refine (decode_ri _ _ _ _ _ _ _ _ _).trans ?_
  simp only [decodeFields, immOf_ri]
  exact congrArg (fun l => Except.ok (Instr.orLit d a l)) (litOf_lit lit)

theorem Encoding.xorImm (d a : Code) (imm : BitVec 12) : Encoding.Statement (.xorImm d a imm) := by
  intro h rest
  refine (decode_ri _ _ _ _ _ _ _ _ _).trans ?_
  exact congrArg (fun x => Except.ok (Instr.xorImm d a x)) (immOf_ri _ _ _ _ _)

theorem Encoding.xorLit (d a : Code) (lit : Word) : Encoding.Statement (.xorLit d a lit) := by
  intro h rest
  refine (decode_ri _ _ _ _ _ _ _ _ _).trans ?_
  simp only [decodeFields, immOf_ri]
  exact congrArg (fun l => Except.ok (Instr.xorLit d a l)) (litOf_lit lit)

theorem Encoding.movi (d : Code) (imm : BitVec 12) : Encoding.Statement (.movi d imm) := by
  intro h rest
  refine (decode_ri _ _ _ _ _ _ _ _ _).trans ?_
  exact congrArg (fun x => Except.ok (Instr.movi d x)) (immOf_ri _ _ _ _ _)

theorem Encoding.moviLit (d : Code) (lit : Word) : Encoding.Statement (.moviLit d lit) := by
  intro h rest
  refine (decode_ri _ _ _ _ _ _ _ _ _).trans ?_
  simp only [decodeFields, immOf_ri]
  exact congrArg (fun l => Except.ok (Instr.moviLit d l)) (litOf_lit lit)

theorem Encoding.shlImm (d a : Code) (n : BitVec 6) : Encoding.Statement (.shlImm d a n) := by
  intro h rest
  refine (decode_ri _ _ _ _ _ _ _ _ _).trans ?_
  change decodeShi (immOf _) a d = _
  rw [immOf_ri]
  exact decodeShi_shift 0 n a d _ rfl

theorem Encoding.shrImm (d a : Code) (n : BitVec 6) : Encoding.Statement (.shrImm d a n) := by
  intro h rest
  refine (decode_ri _ _ _ _ _ _ _ _ _).trans ?_
  change decodeShi (immOf _) a d = _
  rw [immOf_ri]
  exact decodeShi_shift 1 n a d _ rfl

theorem Encoding.sarImm (d a : Code) (n : BitVec 6) : Encoding.Statement (.sarImm d a n) := by
  intro h rest
  refine (decode_ri _ _ _ _ _ _ _ _ _).trans ?_
  change decodeShi (immOf _) a d = _
  rw [immOf_ri]
  exact decodeShi_shift 2 n a d _ rfl

theorem Encoding.rolImm (d a : Code) (n : BitVec 6) : Encoding.Statement (.rolImm d a n) := by
  intro h rest
  refine (decode_ri _ _ _ _ _ _ _ _ _).trans ?_
  change decodeShi (immOf _) a d = _
  rw [immOf_ri]
  exact decodeShi_shift 3 n a d _ rfl

theorem Encoding.sext (d a : Code) (n : BitVec 7) : Encoding.Statement (.sext d a n) := by
  intro h rest
  refine (decode_ri _ _ _ _ _ _ _ _ _).trans ?_
  change decodeShi (immOf _) a d = _
  rw [immOf_ri]
  exact decodeShi_sext n a d h

theorem Encoding.zext (d a : Code) (n : BitVec 7) : Encoding.Statement (.zext d a n) := by
  intro h rest
  refine (decode_ri _ _ _ _ _ _ _ _ _).trans ?_
  change decodeShi (immOf _) a d = _
  rw [immOf_ri]
  exact decodeShi_zext n a d h

theorem Encoding.bfx (d a : Code) (pos lenm1 : BitVec 6) : Encoding.Statement (.bfx d a pos lenm1) := by
  intro h rest
  refine (decode_ri _ _ _ _ _ _ _ _ _).trans ?_
  change decodeBf (immOf _) _ = _
  rw [immOf_ri]
  exact decodeBf_imm pos lenm1 _ h

theorem Encoding.bfi (d a : Code) (pos lenm1 : BitVec 6) : Encoding.Statement (.bfi d a pos lenm1) := by
  intro h rest
  refine (decode_ri _ _ _ _ _ _ _ _ _).trans ?_
  change decodeBf (immOf _) _ = _
  rw [immOf_ri]
  exact decodeBf_imm pos lenm1 _ h

theorem Encoding.bc (c : Cond) (a b : Code) (disp : BitVec 8) : Encoding.Statement (.bc c a b disp) := by
  intro h rest
  exact (decode_bcw _ _ _ _ _ _ _ _ _).trans (by cases c <;> rfl)

theorem Encoding.loop (a : Code) (disp : BitVec 8) : Encoding.Statement (.loop a disp) := by
  intro h rest
  exact (decode_bcw _ _ _ _ _ _ _ _ _).trans rfl

theorem Encoding.b (c : Cond) (a b : Code) (disp : Word32) : Encoding.Statement (.b c a b disp) := by
  intro h rest
  exact (decode_bcw _ _ _ _ _ _ _ _ _).trans (by cases c <;> rfl)

theorem Encoding.j (disp : BitVec 24) : Encoding.Statement (.j disp) := by
  intro h rest
  exact (decode_jw _ _ _ _ _ _).trans (congrArg (fun x => Except.ok (Instr.j x)) (bodyOf_jw _ _))

theorem Encoding.call (disp : BitVec 24) : Encoding.Statement (.call disp) := by
  intro h rest
  exact (decode_jw _ _ _ _ _ _).trans (congrArg (fun x => Except.ok (Instr.call x)) (bodyOf_jw _ _))

theorem Encoding.ret (a : Code) : Encoding.Statement (.ret a) := by
  intro h rest
  exact (decode_rr _ _ _ _ _ _ _ _ _ _).trans (rfl)

theorem Encoding.jmpt (a b : Code) : Encoding.Statement (.jmpt a b) := by
  intro h rest
  exact (decode_rr _ _ _ _ _ _ _ _ _ _).trans (rfl)

theorem Encoding.yield : Encoding.Statement (.yield) := by
  intro h rest
  exact (decode_rr _ _ _ _ _ _ _ _ _ _).trans (rfl)

theorem Encoding.trap (n : BitVec 12) : Encoding.Statement (.trap n) := by
  intro h rest
  exact (decode_rr _ _ _ _ _ _ _ _ _ _).trans (congrArg (fun x => Except.ok (Instr.trap x)) (extract_halves (w := 6) (v := 6) n))

theorem Encoding.spawn (d a b : Code) : Encoding.Statement (.spawn d a b) := by
  intro h rest
  exact (decode_rr _ _ _ _ _ _ _ _ _ _).trans (rfl)

theorem Encoding.exit : Encoding.Statement (.exit) := by
  intro h rest
  exact (decode_rr _ _ _ _ _ _ _ _ _ _).trans (rfl)

theorem Encoding.gang (a : Code) : Encoding.Statement (.gang a) := by
  intro h rest
  exact (decode_rr _ _ _ _ _ _ _ _ _ _).trans (rfl)

theorem Encoding.ungang : Encoding.Statement (.ungang) := by
  intro h rest
  exact (decode_rr _ _ _ _ _ _ _ _ _ _).trans (rfl)

theorem Encoding.rdsr (d : Code) (num : BitVec 12) : Encoding.Statement (.rdsr d num) := by
  intro h rest
  refine (decode_ri _ _ _ _ _ _ _ _ _).trans ?_
  exact congrArg (fun x => Except.ok (Instr.rdsr d x)) (immOf_ri _ _ _ _ _)

theorem Encoding.wrsr (a : Code) (num : BitVec 12) : Encoding.Statement (.wrsr a num) := by
  intro h rest
  refine (decode_ri _ _ _ _ _ _ _ _ _).trans ?_
  exact congrArg (fun x => Except.ok (Instr.wrsr a x)) (immOf_ri _ _ _ _ _)

theorem Encoding.ld (w : LoadWidth) (d a b : Code) : Encoding.Statement (.ld w d a b) := by
  intro h rest
  cases w <;> exact (decode_rr _ _ _ _ _ _ _ _ _ _).trans (rfl)

theorem Encoding.ldX (w : LoadWidth) (d a b : Code) (off : BitVec 12) : Encoding.Statement (.ldX w d a b off) := by
  intro h rest
  cases w with
  | w64 => exact (decode_rr _ _ _ _ _ _ _ _ _ _).trans (mForm_mem (ok := OX.isPlain) (mask := false) (off := off) (ox := OX.plain) (me := false) (msk := 0) (k := fun off _ _ _ => .ldX .w64 d a b off) (rfl) (rfl) rfl)
  | s32 => exact (decode_rr _ _ _ _ _ _ _ _ _ _).trans (mForm_mem (ok := OX.isPlain) (mask := false) (off := off) (ox := OX.plain) (me := false) (msk := 0) (k := fun off _ _ _ => .ldX .s32 d a b off) (rfl) (rfl) rfl)
  | s16 => exact (decode_rr _ _ _ _ _ _ _ _ _ _).trans (mForm_mem (ok := OX.isPlain) (mask := false) (off := off) (ox := OX.plain) (me := false) (msk := 0) (k := fun off _ _ _ => .ldX .s16 d a b off) (rfl) (rfl) rfl)
  | s8 => exact (decode_rr _ _ _ _ _ _ _ _ _ _).trans (mForm_mem (ok := OX.isPlain) (mask := false) (off := off) (ox := OX.plain) (me := false) (msk := 0) (k := fun off _ _ _ => .ldX .s8 d a b off) (rfl) (rfl) rfl)
  | z32 => exact (decode_rr _ _ _ _ _ _ _ _ _ _).trans (mForm_mem (ok := OX.isPlain) (mask := false) (off := off) (ox := OX.plain) (me := false) (msk := 0) (k := fun off _ _ _ => .ldX .z32 d a b off) (rfl) (rfl) rfl)
  | z16 => exact (decode_rr _ _ _ _ _ _ _ _ _ _).trans (mForm_mem (ok := OX.isPlain) (mask := false) (off := off) (ox := OX.plain) (me := false) (msk := 0) (k := fun off _ _ _ => .ldX .z16 d a b off) (rfl) (rfl) rfl)
  | z8 => exact (decode_rr _ _ _ _ _ _ _ _ _ _).trans (mForm_mem (ok := OX.isPlain) (mask := false) (off := off) (ox := OX.plain) (me := false) (msk := 0) (k := fun off _ _ _ => .ldX .z8 d a b off) (rfl) (rfl) rfl)

theorem Encoding.ldImm (d a : Code) (imm : BitVec 12) : Encoding.Statement (.ldImm d a imm) := by
  intro h rest
  refine (decode_ri _ _ _ _ _ _ _ _ _).trans ?_
  exact congrArg (fun x => Except.ok (Instr.ldImm d a x)) (immOf_ri _ _ _ _ _)

theorem Encoding.st (w : StoreWidth) (d a b : Code) : Encoding.Statement (.st w d a b) := by
  intro h rest
  cases w <;> exact (decode_rr _ _ _ _ _ _ _ _ _ _).trans (rfl)

theorem Encoding.stX (w : StoreWidth) (d a b : Code) (off : BitVec 12) : Encoding.Statement (.stX w d a b off) := by
  intro h rest
  cases w with
  | w64 => exact (decode_rr _ _ _ _ _ _ _ _ _ _).trans (mForm_mem (ok := OX.isPlain) (mask := false) (off := off) (ox := OX.plain) (me := false) (msk := 0) (k := fun off _ _ _ => .stX .w64 d a b off) (rfl) (rfl) rfl)
  | w32 => exact (decode_rr _ _ _ _ _ _ _ _ _ _).trans (mForm_mem (ok := OX.isPlain) (mask := false) (off := off) (ox := OX.plain) (me := false) (msk := 0) (k := fun off _ _ _ => .stX .w32 d a b off) (rfl) (rfl) rfl)
  | w16 => exact (decode_rr _ _ _ _ _ _ _ _ _ _).trans (mForm_mem (ok := OX.isPlain) (mask := false) (off := off) (ox := OX.plain) (me := false) (msk := 0) (k := fun off _ _ _ => .stX .w16 d a b off) (rfl) (rfl) rfl)
  | w8 => exact (decode_rr _ _ _ _ _ _ _ _ _ _).trans (mForm_mem (ok := OX.isPlain) (mask := false) (off := off) (ox := OX.plain) (me := false) (msk := 0) (k := fun off _ _ _ => .stX .w8 d a b off) (rfl) (rfl) rfl)

theorem Encoding.stImm (d a : Code) (imm : BitVec 12) : Encoding.Statement (.stImm d a imm) := by
  intro h rest
  refine (decode_ri _ _ _ _ _ _ _ _ _).trans ?_
  exact congrArg (fun x => Except.ok (Instr.stImm d a x)) (immOf_ri _ _ _ _ _)

theorem Encoding.ldq (w : LoadWidth) (d a b : Code) : Encoding.Statement (.ldq w d a b) := by
  intro h rest
  cases w <;> exact (decode_rr _ _ _ _ _ _ _ _ _ _).trans (rfl)

theorem Encoding.ldqX (w : LoadWidth) (d a b : Code) (off : BitVec 12) : Encoding.Statement (.ldqX w d a b off) := by
  intro h rest
  cases w with
  | w64 => exact (decode_rr _ _ _ _ _ _ _ _ _ _).trans (mForm_mem (ok := OX.isPlain) (mask := false) (off := off) (ox := OX.plain) (me := false) (msk := 0) (k := fun off _ _ _ => .ldqX .w64 d a b off) (rfl) (rfl) rfl)
  | s32 => exact (decode_rr _ _ _ _ _ _ _ _ _ _).trans (mForm_mem (ok := OX.isPlain) (mask := false) (off := off) (ox := OX.plain) (me := false) (msk := 0) (k := fun off _ _ _ => .ldqX .s32 d a b off) (rfl) (rfl) rfl)
  | s16 => exact (decode_rr _ _ _ _ _ _ _ _ _ _).trans (mForm_mem (ok := OX.isPlain) (mask := false) (off := off) (ox := OX.plain) (me := false) (msk := 0) (k := fun off _ _ _ => .ldqX .s16 d a b off) (rfl) (rfl) rfl)
  | s8 => exact (decode_rr _ _ _ _ _ _ _ _ _ _).trans (mForm_mem (ok := OX.isPlain) (mask := false) (off := off) (ox := OX.plain) (me := false) (msk := 0) (k := fun off _ _ _ => .ldqX .s8 d a b off) (rfl) (rfl) rfl)
  | z32 => exact (decode_rr _ _ _ _ _ _ _ _ _ _).trans (mForm_mem (ok := OX.isPlain) (mask := false) (off := off) (ox := OX.plain) (me := false) (msk := 0) (k := fun off _ _ _ => .ldqX .z32 d a b off) (rfl) (rfl) rfl)
  | z16 => exact (decode_rr _ _ _ _ _ _ _ _ _ _).trans (mForm_mem (ok := OX.isPlain) (mask := false) (off := off) (ox := OX.plain) (me := false) (msk := 0) (k := fun off _ _ _ => .ldqX .z16 d a b off) (rfl) (rfl) rfl)
  | z8 => exact (decode_rr _ _ _ _ _ _ _ _ _ _).trans (mForm_mem (ok := OX.isPlain) (mask := false) (off := off) (ox := OX.plain) (me := false) (msk := 0) (k := fun off _ _ _ => .ldqX .z8 d a b off) (rfl) (rfl) rfl)

theorem Encoding.stq (w : StoreWidth) (d a b : Code) : Encoding.Statement (.stq w d a b) := by
  intro h rest
  cases w <;> exact (decode_rr _ _ _ _ _ _ _ _ _ _).trans (rfl)

theorem Encoding.stqX (w : StoreWidth) (d a b : Code) (off : BitVec 12) : Encoding.Statement (.stqX w d a b off) := by
  intro h rest
  cases w with
  | w64 => exact (decode_rr _ _ _ _ _ _ _ _ _ _).trans (mForm_mem (ok := OX.isPlain) (mask := false) (off := off) (ox := OX.plain) (me := false) (msk := 0) (k := fun off _ _ _ => .stqX .w64 d a b off) (rfl) (rfl) rfl)
  | w32 => exact (decode_rr _ _ _ _ _ _ _ _ _ _).trans (mForm_mem (ok := OX.isPlain) (mask := false) (off := off) (ox := OX.plain) (me := false) (msk := 0) (k := fun off _ _ _ => .stqX .w32 d a b off) (rfl) (rfl) rfl)
  | w16 => exact (decode_rr _ _ _ _ _ _ _ _ _ _).trans (mForm_mem (ok := OX.isPlain) (mask := false) (off := off) (ox := OX.plain) (me := false) (msk := 0) (k := fun off _ _ _ => .stqX .w16 d a b off) (rfl) (rfl) rfl)
  | w8 => exact (decode_rr _ _ _ _ _ _ _ _ _ _).trans (mForm_mem (ok := OX.isPlain) (mask := false) (off := off) (ox := OX.plain) (me := false) (msk := 0) (k := fun off _ _ _ => .stqX .w8 d a b off) (rfl) (rfl) rfl)

theorem Encoding.vld (d a b : Code) : Encoding.Statement (.vld d a b) := by
  intro h rest
  exact (decode_rr _ _ _ _ _ _ _ _ _ _).trans (rfl)

theorem Encoding.vldX (d a b : Code) (off : BitVec 12) (me : Bool) (msk : BitVec 3) : Encoding.Statement (.vldX d a b off me msk) := by
  intro h rest
  exact (decode_rr _ _ _ _ _ _ _ _ _ _).trans (mForm_mem (ok := OX.isPlain) (mask := true) (off := off) (ox := OX.plain) (me := me) (msk := msk) (k := fun off _ me msk => .vldX d a b off me msk) (rfl) (h) rfl)

theorem Encoding.vst (d a b : Code) : Encoding.Statement (.vst d a b) := by
  intro h rest
  exact (decode_rr _ _ _ _ _ _ _ _ _ _).trans (rfl)

theorem Encoding.vstX (d a b : Code) (off : BitVec 12) (me : Bool) (msk : BitVec 3) : Encoding.Statement (.vstX d a b off me msk) := by
  intro h rest
  exact (decode_rr _ _ _ _ _ _ _ _ _ _).trans (mForm_mem (ok := OX.isPlain) (mask := true) (off := off) (ox := OX.plain) (me := me) (msk := msk) (k := fun off _ me msk => .vstX d a b off me msk) (rfl) (h) rfl)

theorem Encoding.ldw (d a b : Code) : Encoding.Statement (.ldw d a b) := by
  intro h rest
  exact (decode_rr _ _ _ _ _ _ _ _ _ _).trans (rfl)

theorem Encoding.ldwX (d a b : Code) (off : BitVec 12) : Encoding.Statement (.ldwX d a b off) := by
  intro h rest
  exact (decode_rr _ _ _ _ _ _ _ _ _ _).trans (mForm_mem (ok := OX.isPlain) (mask := false) (off := off) (ox := OX.plain) (me := false) (msk := 0) (k := fun off _ _ _ => .ldwX d a b off) (rfl) (rfl) rfl)

theorem Encoding.ldg (w : LoadWidth) (d a b : Code) : Encoding.Statement (.ldg w d a b) := by
  intro h rest
  cases w <;> exact (decode_rr _ _ _ _ _ _ _ _ _ _).trans (rfl)

theorem Encoding.ldgX (w : LoadWidth) (d a b : Code) (off : BitVec 12) (ox : OX) : Encoding.Statement (.ldgX w d a b off ox) := by
  intro h rest
  cases w with
  | w64 => exact (decode_rr _ _ _ _ _ _ _ _ _ _).trans (mForm_mem (ok := OX.okLoad) (mask := false) (off := off) (ox := ox) (me := false) (msk := 0) (k := fun off ox _ _ => .ldgX .w64 d a b off ox) (h) (rfl) rfl)
  | s32 => exact (decode_rr _ _ _ _ _ _ _ _ _ _).trans (mForm_mem (ok := OX.okLoad) (mask := false) (off := off) (ox := ox) (me := false) (msk := 0) (k := fun off ox _ _ => .ldgX .s32 d a b off ox) (h) (rfl) rfl)
  | s16 => exact (decode_rr _ _ _ _ _ _ _ _ _ _).trans (mForm_mem (ok := OX.okLoad) (mask := false) (off := off) (ox := ox) (me := false) (msk := 0) (k := fun off ox _ _ => .ldgX .s16 d a b off ox) (h) (rfl) rfl)
  | s8 => exact (decode_rr _ _ _ _ _ _ _ _ _ _).trans (mForm_mem (ok := OX.okLoad) (mask := false) (off := off) (ox := ox) (me := false) (msk := 0) (k := fun off ox _ _ => .ldgX .s8 d a b off ox) (h) (rfl) rfl)
  | z32 => exact (decode_rr _ _ _ _ _ _ _ _ _ _).trans (mForm_mem (ok := OX.okLoad) (mask := false) (off := off) (ox := ox) (me := false) (msk := 0) (k := fun off ox _ _ => .ldgX .z32 d a b off ox) (h) (rfl) rfl)
  | z16 => exact (decode_rr _ _ _ _ _ _ _ _ _ _).trans (mForm_mem (ok := OX.okLoad) (mask := false) (off := off) (ox := ox) (me := false) (msk := 0) (k := fun off ox _ _ => .ldgX .z16 d a b off ox) (h) (rfl) rfl)
  | z8 => exact (decode_rr _ _ _ _ _ _ _ _ _ _).trans (mForm_mem (ok := OX.okLoad) (mask := false) (off := off) (ox := ox) (me := false) (msk := 0) (k := fun off ox _ _ => .ldgX .z8 d a b off ox) (h) (rfl) rfl)

theorem Encoding.ldgImm (d a : Code) (imm : BitVec 12) : Encoding.Statement (.ldgImm d a imm) := by
  intro h rest
  refine (decode_ri _ _ _ _ _ _ _ _ _).trans ?_
  exact congrArg (fun x => Except.ok (Instr.ldgImm d a x)) (immOf_ri _ _ _ _ _)

theorem Encoding.stg (w : StoreWidth) (d a b : Code) : Encoding.Statement (.stg w d a b) := by
  intro h rest
  cases w <;> exact (decode_rr _ _ _ _ _ _ _ _ _ _).trans (rfl)

theorem Encoding.stgX (w : StoreWidth) (d a b : Code) (off : BitVec 12) (ox : OX) : Encoding.Statement (.stgX w d a b off ox) := by
  intro h rest
  cases w with
  | w64 => exact (decode_rr _ _ _ _ _ _ _ _ _ _).trans (mForm_mem (ok := OX.okStore) (mask := false) (off := off) (ox := ox) (me := false) (msk := 0) (k := fun off ox _ _ => .stgX .w64 d a b off ox) (h) (rfl) rfl)
  | w32 => exact (decode_rr _ _ _ _ _ _ _ _ _ _).trans (mForm_mem (ok := OX.okStore) (mask := false) (off := off) (ox := ox) (me := false) (msk := 0) (k := fun off ox _ _ => .stgX .w32 d a b off ox) (h) (rfl) rfl)
  | w16 => exact (decode_rr _ _ _ _ _ _ _ _ _ _).trans (mForm_mem (ok := OX.okStore) (mask := false) (off := off) (ox := ox) (me := false) (msk := 0) (k := fun off ox _ _ => .stgX .w16 d a b off ox) (h) (rfl) rfl)
  | w8 => exact (decode_rr _ _ _ _ _ _ _ _ _ _).trans (mForm_mem (ok := OX.okStore) (mask := false) (off := off) (ox := ox) (me := false) (msk := 0) (k := fun off ox _ _ => .stgX .w8 d a b off ox) (h) (rfl) rfl)

theorem Encoding.stgImm (d a : Code) (imm : BitVec 12) : Encoding.Statement (.stgImm d a imm) := by
  intro h rest
  refine (decode_ri _ _ _ _ _ _ _ _ _).trans ?_
  exact congrArg (fun x => Except.ok (Instr.stgImm d a x)) (immOf_ri _ _ _ _ _)

theorem Encoding.vldg (d a b : Code) : Encoding.Statement (.vldg d a b) := by
  intro h rest
  exact (decode_rr _ _ _ _ _ _ _ _ _ _).trans (rfl)

theorem Encoding.vldgX (d a b : Code) (off : BitVec 12) (ox : OX) (me : Bool) (msk : BitVec 3) : Encoding.Statement (.vldgX d a b off ox me msk) := by
  intro h rest
  exact (decode_rr _ _ _ _ _ _ _ _ _ _).trans (mForm_mem (ok := OX.okLoad) (mask := true) (off := off) (ox := ox) (me := me) (msk := msk) (k := fun off ox me msk => .vldgX d a b off ox me msk) ((Bool.and_eq_true_iff.1 h).1) ((Bool.and_eq_true_iff.1 h).2) rfl)

theorem Encoding.vstg (d a b : Code) : Encoding.Statement (.vstg d a b) := by
  intro h rest
  exact (decode_rr _ _ _ _ _ _ _ _ _ _).trans (rfl)

theorem Encoding.vstgX (d a b : Code) (off : BitVec 12) (ox : OX) (me : Bool) (msk : BitVec 3) : Encoding.Statement (.vstgX d a b off ox me msk) := by
  intro h rest
  exact (decode_rr _ _ _ _ _ _ _ _ _ _).trans (mForm_mem (ok := OX.okStore) (mask := true) (off := off) (ox := ox) (me := me) (msk := msk) (k := fun off ox me msk => .vstgX d a b off ox me msk) ((Bool.and_eq_true_iff.1 h).1) ((Bool.and_eq_true_iff.1 h).2) rfl)

theorem Encoding.pref (a b : Code) : Encoding.Statement (.pref a b) := by
  intro h rest
  exact (decode_rr _ _ _ _ _ _ _ _ _ _).trans (rfl)

theorem Encoding.prefX (a b : Code) (off : BitVec 12) : Encoding.Statement (.prefX a b off) := by
  intro h rest
  exact (decode_rr _ _ _ _ _ _ _ _ _ _).trans ((req_true (c := (0 : Code) == 0) (r := .reservedField) (k := mForm OX.isPlain false (memX1 off) (memX2 OX.plain false 0) (fun off _ _ _ => .prefX a b off)) rfl).trans (mForm_mem (ok := OX.isPlain) (mask := false) (off := off) (ox := OX.plain) (me := false) (msk := 0) (k := fun off _ _ _ => .prefX a b off) (rfl) (rfl) rfl))

theorem Encoding.flsh (a b : Code) : Encoding.Statement (.flsh a b) := by
  intro h rest
  exact (decode_rr _ _ _ _ _ _ _ _ _ _).trans (rfl)

theorem Encoding.flshX (a b : Code) (off : BitVec 12) : Encoding.Statement (.flshX a b off) := by
  intro h rest
  exact (decode_rr _ _ _ _ _ _ _ _ _ _).trans ((req_true (c := (0 : Code) == 0) (r := .reservedField) (k := mForm OX.isPlain false (memX1 off) (memX2 OX.plain false 0) (fun off _ _ _ => .flshX a b off)) rfl).trans (mForm_mem (ok := OX.isPlain) (mask := false) (off := off) (ox := OX.plain) (me := false) (msk := 0) (k := fun off _ _ _ => .flshX a b off) (rfl) (rfl) rfl))

theorem Encoding.amadd (d a b : Code) : Encoding.Statement (.amadd d a b) := by
  intro h rest
  exact (decode_rr _ _ _ _ _ _ _ _ _ _).trans (rfl)

theorem Encoding.amaddX (d a b : Code) (off : BitVec 12) (ox : OX) : Encoding.Statement (.amaddX d a b off ox) := by
  intro h rest
  exact (decode_rr _ _ _ _ _ _ _ _ _ _).trans (mForm_mem (ok := OX.okAtomic) (mask := false) (off := off) (ox := ox) (me := false) (msk := 0) (k := fun off ox _ _ => .amaddX d a b off ox) (h) (rfl) rfl)

theorem Encoding.amswp (d a b : Code) : Encoding.Statement (.amswp d a b) := by
  intro h rest
  exact (decode_rr _ _ _ _ _ _ _ _ _ _).trans (rfl)

theorem Encoding.amswpX (d a b : Code) (off : BitVec 12) (ox : OX) : Encoding.Statement (.amswpX d a b off ox) := by
  intro h rest
  exact (decode_rr _ _ _ _ _ _ _ _ _ _).trans (mForm_mem (ok := OX.okAtomic) (mask := false) (off := off) (ox := ox) (me := false) (msk := 0) (k := fun off ox _ _ => .amswpX d a b off ox) (h) (rfl) rfl)

theorem Encoding.amcas (d a b : Code) : Encoding.Statement (.amcas d a b) := by
  intro h rest
  exact (decode_rr _ _ _ _ _ _ _ _ _ _).trans (rfl)

theorem Encoding.amcasX (d a b : Code) (off : BitVec 12) (ox : OX) : Encoding.Statement (.amcasX d a b off ox) := by
  intro h rest
  exact (decode_rr _ _ _ _ _ _ _ _ _ _).trans (mForm_mem (ok := OX.okAtomic) (mask := false) (off := off) (ox := ox) (me := false) (msk := 0) (k := fun off ox _ _ => .amcasX d a b off ox) (h) (rfl) rfl)

theorem Encoding.ammin (d a b : Code) : Encoding.Statement (.ammin d a b) := by
  intro h rest
  exact (decode_rr _ _ _ _ _ _ _ _ _ _).trans (rfl)

theorem Encoding.amminX (d a b : Code) (off : BitVec 12) (ox : OX) : Encoding.Statement (.amminX d a b off ox) := by
  intro h rest
  exact (decode_rr _ _ _ _ _ _ _ _ _ _).trans (mForm_mem (ok := OX.okAtomic) (mask := false) (off := off) (ox := ox) (me := false) (msk := 0) (k := fun off ox _ _ => .amminX d a b off ox) (h) (rfl) rfl)

theorem Encoding.ammax (d a b : Code) : Encoding.Statement (.ammax d a b) := by
  intro h rest
  exact (decode_rr _ _ _ _ _ _ _ _ _ _).trans (rfl)

theorem Encoding.ammaxX (d a b : Code) (off : BitVec 12) (ox : OX) : Encoding.Statement (.ammaxX d a b off ox) := by
  intro h rest
  exact (decode_rr _ _ _ _ _ _ _ _ _ _).trans (mForm_mem (ok := OX.okAtomic) (mask := false) (off := off) (ox := ox) (me := false) (msk := 0) (k := fun off ox _ _ => .ammaxX d a b off ox) (h) (rfl) rfl)

theorem Encoding.amminu (d a b : Code) : Encoding.Statement (.amminu d a b) := by
  intro h rest
  exact (decode_rr _ _ _ _ _ _ _ _ _ _).trans (rfl)

theorem Encoding.amminuX (d a b : Code) (off : BitVec 12) (ox : OX) : Encoding.Statement (.amminuX d a b off ox) := by
  intro h rest
  exact (decode_rr _ _ _ _ _ _ _ _ _ _).trans (mForm_mem (ok := OX.okAtomic) (mask := false) (off := off) (ox := ox) (me := false) (msk := 0) (k := fun off ox _ _ => .amminuX d a b off ox) (h) (rfl) rfl)

theorem Encoding.ammaxu (d a b : Code) : Encoding.Statement (.ammaxu d a b) := by
  intro h rest
  exact (decode_rr _ _ _ _ _ _ _ _ _ _).trans (rfl)

theorem Encoding.ammaxuX (d a b : Code) (off : BitVec 12) (ox : OX) : Encoding.Statement (.ammaxuX d a b off ox) := by
  intro h rest
  exact (decode_rr _ _ _ _ _ _ _ _ _ _).trans (mForm_mem (ok := OX.okAtomic) (mask := false) (off := off) (ox := ox) (me := false) (msk := 0) (k := fun off ox _ _ => .ammaxuX d a b off ox) (h) (rfl) rfl)

theorem Encoding.amand (d a b : Code) : Encoding.Statement (.amand d a b) := by
  intro h rest
  exact (decode_rr _ _ _ _ _ _ _ _ _ _).trans (rfl)

theorem Encoding.amandX (d a b : Code) (off : BitVec 12) (ox : OX) : Encoding.Statement (.amandX d a b off ox) := by
  intro h rest
  exact (decode_rr _ _ _ _ _ _ _ _ _ _).trans (mForm_mem (ok := OX.okAtomic) (mask := false) (off := off) (ox := ox) (me := false) (msk := 0) (k := fun off ox _ _ => .amandX d a b off ox) (h) (rfl) rfl)

theorem Encoding.amor (d a b : Code) : Encoding.Statement (.amor d a b) := by
  intro h rest
  exact (decode_rr _ _ _ _ _ _ _ _ _ _).trans (rfl)

theorem Encoding.amorX (d a b : Code) (off : BitVec 12) (ox : OX) : Encoding.Statement (.amorX d a b off ox) := by
  intro h rest
  exact (decode_rr _ _ _ _ _ _ _ _ _ _).trans (mForm_mem (ok := OX.okAtomic) (mask := false) (off := off) (ox := ox) (me := false) (msk := 0) (k := fun off ox _ _ => .amorX d a b off ox) (h) (rfl) rfl)

theorem Encoding.amxor (d a b : Code) : Encoding.Statement (.amxor d a b) := by
  intro h rest
  exact (decode_rr _ _ _ _ _ _ _ _ _ _).trans (rfl)

theorem Encoding.amxorX (d a b : Code) (off : BitVec 12) (ox : OX) : Encoding.Statement (.amxorX d a b off ox) := by
  intro h rest
  exact (decode_rr _ _ _ _ _ _ _ _ _ _).trans (mForm_mem (ok := OX.okAtomic) (mask := false) (off := off) (ox := ox) (me := false) (msk := 0) (k := fun off ox _ _ => .amxorX d a b off ox) (h) (rfl) rfl)

theorem Encoding.amadd32 (d a b : Code) : Encoding.Statement (.amadd32 d a b) := by
  intro h rest
  exact (decode_rr _ _ _ _ _ _ _ _ _ _).trans (rfl)

theorem Encoding.amadd32X (d a b : Code) (off : BitVec 12) (ox : OX) : Encoding.Statement (.amadd32X d a b off ox) := by
  intro h rest
  exact (decode_rr _ _ _ _ _ _ _ _ _ _).trans (mForm_mem (ok := OX.okAtomic) (mask := false) (off := off) (ox := ox) (me := false) (msk := 0) (k := fun off ox _ _ => .amadd32X d a b off ox) (h) (rfl) rfl)

theorem Encoding.amswp32 (d a b : Code) : Encoding.Statement (.amswp32 d a b) := by
  intro h rest
  exact (decode_rr _ _ _ _ _ _ _ _ _ _).trans (rfl)

theorem Encoding.amswp32X (d a b : Code) (off : BitVec 12) (ox : OX) : Encoding.Statement (.amswp32X d a b off ox) := by
  intro h rest
  exact (decode_rr _ _ _ _ _ _ _ _ _ _).trans (mForm_mem (ok := OX.okAtomic) (mask := false) (off := off) (ox := ox) (me := false) (msk := 0) (k := fun off ox _ _ => .amswp32X d a b off ox) (h) (rfl) rfl)

theorem Encoding.amcas32 (d a b : Code) : Encoding.Statement (.amcas32 d a b) := by
  intro h rest
  exact (decode_rr _ _ _ _ _ _ _ _ _ _).trans (rfl)

theorem Encoding.amcas32X (d a b : Code) (off : BitVec 12) (ox : OX) : Encoding.Statement (.amcas32X d a b off ox) := by
  intro h rest
  exact (decode_rr _ _ _ _ _ _ _ _ _ _).trans (mForm_mem (ok := OX.okAtomic) (mask := false) (off := off) (ox := ox) (me := false) (msk := 0) (k := fun off ox _ _ => .amcas32X d a b off ox) (h) (rfl) rfl)

theorem Encoding.ammin32 (d a b : Code) : Encoding.Statement (.ammin32 d a b) := by
  intro h rest
  exact (decode_rr _ _ _ _ _ _ _ _ _ _).trans (rfl)

theorem Encoding.ammin32X (d a b : Code) (off : BitVec 12) (ox : OX) : Encoding.Statement (.ammin32X d a b off ox) := by
  intro h rest
  exact (decode_rr _ _ _ _ _ _ _ _ _ _).trans (mForm_mem (ok := OX.okAtomic) (mask := false) (off := off) (ox := ox) (me := false) (msk := 0) (k := fun off ox _ _ => .ammin32X d a b off ox) (h) (rfl) rfl)

theorem Encoding.ammax32 (d a b : Code) : Encoding.Statement (.ammax32 d a b) := by
  intro h rest
  exact (decode_rr _ _ _ _ _ _ _ _ _ _).trans (rfl)

theorem Encoding.ammax32X (d a b : Code) (off : BitVec 12) (ox : OX) : Encoding.Statement (.ammax32X d a b off ox) := by
  intro h rest
  exact (decode_rr _ _ _ _ _ _ _ _ _ _).trans (mForm_mem (ok := OX.okAtomic) (mask := false) (off := off) (ox := ox) (me := false) (msk := 0) (k := fun off ox _ _ => .ammax32X d a b off ox) (h) (rfl) rfl)

theorem Encoding.amminu32 (d a b : Code) : Encoding.Statement (.amminu32 d a b) := by
  intro h rest
  exact (decode_rr _ _ _ _ _ _ _ _ _ _).trans (rfl)

theorem Encoding.amminu32X (d a b : Code) (off : BitVec 12) (ox : OX) : Encoding.Statement (.amminu32X d a b off ox) := by
  intro h rest
  exact (decode_rr _ _ _ _ _ _ _ _ _ _).trans (mForm_mem (ok := OX.okAtomic) (mask := false) (off := off) (ox := ox) (me := false) (msk := 0) (k := fun off ox _ _ => .amminu32X d a b off ox) (h) (rfl) rfl)

theorem Encoding.ammaxu32 (d a b : Code) : Encoding.Statement (.ammaxu32 d a b) := by
  intro h rest
  exact (decode_rr _ _ _ _ _ _ _ _ _ _).trans (rfl)

theorem Encoding.ammaxu32X (d a b : Code) (off : BitVec 12) (ox : OX) : Encoding.Statement (.ammaxu32X d a b off ox) := by
  intro h rest
  exact (decode_rr _ _ _ _ _ _ _ _ _ _).trans (mForm_mem (ok := OX.okAtomic) (mask := false) (off := off) (ox := ox) (me := false) (msk := 0) (k := fun off ox _ _ => .ammaxu32X d a b off ox) (h) (rfl) rfl)

theorem Encoding.amand32 (d a b : Code) : Encoding.Statement (.amand32 d a b) := by
  intro h rest
  exact (decode_rr _ _ _ _ _ _ _ _ _ _).trans (rfl)

theorem Encoding.amand32X (d a b : Code) (off : BitVec 12) (ox : OX) : Encoding.Statement (.amand32X d a b off ox) := by
  intro h rest
  exact (decode_rr _ _ _ _ _ _ _ _ _ _).trans (mForm_mem (ok := OX.okAtomic) (mask := false) (off := off) (ox := ox) (me := false) (msk := 0) (k := fun off ox _ _ => .amand32X d a b off ox) (h) (rfl) rfl)

theorem Encoding.amor32 (d a b : Code) : Encoding.Statement (.amor32 d a b) := by
  intro h rest
  exact (decode_rr _ _ _ _ _ _ _ _ _ _).trans (rfl)

theorem Encoding.amor32X (d a b : Code) (off : BitVec 12) (ox : OX) : Encoding.Statement (.amor32X d a b off ox) := by
  intro h rest
  exact (decode_rr _ _ _ _ _ _ _ _ _ _).trans (mForm_mem (ok := OX.okAtomic) (mask := false) (off := off) (ox := ox) (me := false) (msk := 0) (k := fun off ox _ _ => .amor32X d a b off ox) (h) (rfl) rfl)

theorem Encoding.amxor32 (d a b : Code) : Encoding.Statement (.amxor32 d a b) := by
  intro h rest
  exact (decode_rr _ _ _ _ _ _ _ _ _ _).trans (rfl)

theorem Encoding.amxor32X (d a b : Code) (off : BitVec 12) (ox : OX) : Encoding.Statement (.amxor32X d a b off ox) := by
  intro h rest
  exact (decode_rr _ _ _ _ _ _ _ _ _ _).trans (mForm_mem (ok := OX.okAtomic) (mask := false) (off := off) (ox := ox) (me := false) (msk := 0) (k := fun off ox _ _ => .amxor32X d a b off ox) (h) (rfl) rfl)

theorem Encoding.fence (scope : Scope) (set : BitVec 6) : Encoding.Statement (.fence scope set) := by
  intro h rest
  cases scope <;> exact (decode_rr _ _ _ _ _ _ _ _ _ _).trans rfl

theorem Encoding.park (a b : Code) : Encoding.Statement (.park a b) := by
  intro h rest
  exact (decode_rr _ _ _ _ _ _ _ _ _ _).trans (rfl)

theorem Encoding.wait : Encoding.Statement (.wait) := by
  intro h rest
  exact (decode_rr _ _ _ _ _ _ _ _ _ _).trans (rfl)

theorem Encoding.cpy (a b : Code) : Encoding.Statement (.cpy a b) := by
  intro h rest
  exact (decode_rr _ _ _ _ _ _ _ _ _ _).trans (rfl)

theorem Encoding.exch (a : Code) : Encoding.Statement (.exch a) := by
  intro h rest
  exact (decode_rr _ _ _ _ _ _ _ _ _ _).trans (rfl)

theorem Encoding.waitc (ld st : BitVec 5) (cp : BitVec 7) (pr : BitVec 4) (cr : BitVec 3) : Encoding.Statement (.waitc ld st cp pr cr) := by
  intro h rest
  refine (decode_jw _ _ _ _ _ _).trans ?_
  change decodeWaitc (bodyOf _) = _
  rw [bodyOf_jw]
  unfold decodeWaitc
  simp only [waitcBody_0, waitcBody_5, waitcBody_10, waitcBody_17, waitcBody_21]
  exact req_true h

theorem Encoding.ared (d a : Code) (fmto : BitVec 5) (mode : CollMode) (gid : BitVec 8) : Encoding.Statement (.ared d a fmto mode gid) := by
  intro h rest
  have hk : (fmto.toNat == 0 || combFmtOk mode fmto.toNat) = true := by
    rcases Bool.or_eq_true_iff.1 h with h | h
    · rw [beq_iff_eq.1 h]; rfl
    · rw [h, Bool.or_true]
  refine (decode_rr _ _ _ _ _ _ _ _ _ _).trans ((req_true (c := (2 : BitVec 2) == 2) (r := .badLen) rfl).trans ((req_true (c := (0 : Code) == 0) (r := .reservedField) rfl).trans ((cForm_coll (f := fmto) (md := mode.code) (g := gid) (rt := 0) (root := false) (ok := fun f md => f == 0 || (match CollMode.ofCode md with | some k => combFmtOk k f | none => false)) (k := fun f md g _ => match CollMode.ofCode md with
      | some k => .ok (.ared d a f k g)
      | none => .error .badExtended) ?_ rfl).trans ?_)))
  · simp only [CollMode.ofCode_code]; exact hk
  · simp only [CollMode.ofCode_code]

theorem Encoding.rsct (d a : Code) (fmto : BitVec 5) (mode : CollMode) (gid : BitVec 8) : Encoding.Statement (.rsct d a fmto mode gid) := by
  intro h rest
  have hk : (fmto.toNat == 0 || combFmtOk mode fmto.toNat) = true := by
    rcases Bool.or_eq_true_iff.1 h with h | h
    · rw [beq_iff_eq.1 h]; rfl
    · rw [h, Bool.or_true]
  refine (decode_rr _ _ _ _ _ _ _ _ _ _).trans ((req_true (c := (2 : BitVec 2) == 2) (r := .badLen) rfl).trans ((req_true (c := (0 : Code) == 0) (r := .reservedField) rfl).trans ((cForm_coll (f := fmto) (md := mode.code) (g := gid) (rt := 0) (root := false) (ok := fun f md => f == 0 || (match CollMode.ofCode md with | some k => combFmtOk k f | none => false)) (k := fun f md g _ => match CollMode.ofCode md with
      | some k => .ok (.rsct d a f k g)
      | none => .error .badExtended) ?_ rfl).trans ?_)))
  · simp only [CollMode.ofCode_code]; exact hk
  · simp only [CollMode.ofCode_code]

theorem Encoding.agth (d a : Code) (fmto : BitVec 5) (gid : BitVec 8) : Encoding.Statement (.agth d a fmto gid) := by
  intro h rest
  have hk : (fmto.toNat == 0 || wideFmtOk fmto.toNat) = true := by
    rcases Bool.or_eq_true_iff.1 h with h | h
    · rw [beq_iff_eq.1 h]; rfl
    · rw [h, Bool.or_true]
  exact (decode_rr _ _ _ _ _ _ _ _ _ _).trans ((req_true (c := (2 : BitVec 2) == 2) (r := .badLen) rfl).trans ((req_true (c := (0 : Code) == 0) (r := .reservedField) rfl).trans (cForm_coll (f := fmto) (md := 0) (g := gid) (rt := 0) (root := false) (ok := fun f md => md == 0 && (f == 0 || wideFmtOk f)) (k := fun f _ g _ => .ok (.agth d a f g)) hk rfl)))

theorem Encoding.atoa (d a : Code) (fmto : BitVec 5) (gid : BitVec 8) : Encoding.Statement (.atoa d a fmto gid) := by
  intro h rest
  have hk : (fmto.toNat == 0 || wideFmtOk fmto.toNat) = true := by
    rcases Bool.or_eq_true_iff.1 h with h | h
    · rw [beq_iff_eq.1 h]; rfl
    · rw [h, Bool.or_true]
  exact (decode_rr _ _ _ _ _ _ _ _ _ _).trans ((req_true (c := (2 : BitVec 2) == 2) (r := .badLen) rfl).trans ((req_true (c := (0 : Code) == 0) (r := .reservedField) rfl).trans (cForm_coll (f := fmto) (md := 0) (g := gid) (rt := 0) (root := false) (ok := fun f md => md == 0 && (f == 0 || wideFmtOk f)) (k := fun f _ g _ => .ok (.atoa d a f g)) hk rfl)))

theorem Encoding.bcst (d a : Code) (fmto : BitVec 5) (gid : BitVec 8) (root : BitVec 12) : Encoding.Statement (.bcst d a fmto gid root) := by
  intro h rest
  have hk : (fmto.toNat == 0 || wideFmtOk fmto.toNat) = true := by
    rcases Bool.or_eq_true_iff.1 h with h | h
    · rw [beq_iff_eq.1 h]; rfl
    · rw [h, Bool.or_true]
  exact (decode_rr _ _ _ _ _ _ _ _ _ _).trans ((req_true (c := (2 : BitVec 2) == 2) (r := .badLen) rfl).trans ((req_true (c := (0 : Code) == 0) (r := .reservedField) rfl).trans (cForm_coll (f := fmto) (md := 0) (g := gid) (rt := root) (root := true) (ok := fun f md => md == 0 && (f == 0 || wideFmtOk f)) (k := fun f _ g r => .ok (.bcst d a f g r)) hk rfl)))

theorem Encoding.ored (d a : Code) (gid : BitVec 8) (root : BitVec 12) : Encoding.Statement (.ored d a gid root) := by
  intro h rest
  exact (decode_rr _ _ _ _ _ _ _ _ _ _).trans ((req_true (c := (2 : BitVec 2) == 2) (r := .badLen) rfl).trans ((req_true (c := (0 : Code) == 0) (r := .reservedField) rfl).trans (cForm_coll (f := 0) (md := 0) (g := gid) (rt := root) (root := true) (ok := fun f md => md == 0 && f == 0) (k := fun _ _ g r => .ok (.ored d a g r)) rfl rfl)))

theorem Encoding.puts (d a b c : Code) : Encoding.Statement (.puts d a b c) := by
  intro h rest
  exact (decode_rr _ _ _ _ _ _ _ _ _ _).trans (fab_c c _ (fun c => decodeFab 0 b a d c) rfl)

theorem Encoding.get (a b c : Code) : Encoding.Statement (.get a b c) := by
  intro h rest
  exact (decode_rr _ _ _ _ _ _ _ _ _ _).trans (fab_c c _ (fun c => decodeFab 1 b a 0 c) rfl)

theorem Encoding.radd (a b c : Code) : Encoding.Statement (.radd a b c) := by
  intro h rest
  exact (decode_rr _ _ _ _ _ _ _ _ _ _).trans (fab_c c _ (fun c => decodeFab 2 b a 0 c) rfl)

theorem Encoding.apnd (d a b c : Code) : Encoding.Statement (.apnd d a b c) := by
  intro h rest
  exact (decode_rr _ _ _ _ _ _ _ _ _ _).trans (fab_c c _ (fun c => decodeFab 3 b a d c) rfl)

theorem Encoding.fadd (d a b : Code) : Encoding.Statement (.fadd d a b) := by
  intro h rest
  exact (decode_rr _ _ _ _ _ _ _ _ _ _).trans (rfl)

theorem Encoding.faddX (d a b : Code) (fmto : BitVec 5) : Encoding.Statement (.faddX d a b fmto) := by
  intro h rest
  exact (decode_rr _ _ _ _ _ _ _ _ _ _).trans (xForm_vec (r := .no) (okF := arithFmtOk) (useC := false) (okD := noDest) (v := ⟨fmto, false, 0⟩) (c := 0) (fd := 0) (k := fun vx _ _ => .faddX d a b vx.fmto) (rfl) (h) (rfl) (rfl))

theorem Encoding.fsub (d a b : Code) : Encoding.Statement (.fsub d a b) := by
  intro h rest
  exact (decode_rr _ _ _ _ _ _ _ _ _ _).trans (rfl)

theorem Encoding.fsubX (d a b : Code) (fmto : BitVec 5) : Encoding.Statement (.fsubX d a b fmto) := by
  intro h rest
  exact (decode_rr _ _ _ _ _ _ _ _ _ _).trans (xForm_vec (r := .no) (okF := arithFmtOk) (useC := false) (okD := noDest) (v := ⟨fmto, false, 0⟩) (c := 0) (fd := 0) (k := fun vx _ _ => .fsubX d a b vx.fmto) (rfl) (h) (rfl) (rfl))

theorem Encoding.fmul (d a b : Code) : Encoding.Statement (.fmul d a b) := by
  intro h rest
  exact (decode_rr _ _ _ _ _ _ _ _ _ _).trans (rfl)

theorem Encoding.fmulX (d a b : Code) (fmto : BitVec 5) : Encoding.Statement (.fmulX d a b fmto) := by
  intro h rest
  exact (decode_rr _ _ _ _ _ _ _ _ _ _).trans (xForm_vec (r := .no) (okF := arithFmtOk) (useC := false) (okD := noDest) (v := ⟨fmto, false, 0⟩) (c := 0) (fd := 0) (k := fun vx _ _ => .fmulX d a b vx.fmto) (rfl) (h) (rfl) (rfl))

theorem Encoding.ffma (d a b c : Code) (fmto : BitVec 5) : Encoding.Statement (.ffma d a b c fmto) := by
  intro h rest
  exact (decode_rr _ _ _ _ _ _ _ _ _ _).trans (xForm_vec (r := .no) (okF := arithFmtOk) (useC := true) (okD := noDest) (v := ⟨fmto, false, 0⟩) (c := c) (fd := 0) (k := fun vx c _ => .ffma d a b c vx.fmto) (rfl) (h) (rfl) (rfl))

theorem Encoding.fdiv (d a b : Code) : Encoding.Statement (.fdiv d a b) := by
  intro h rest
  exact (decode_rr _ _ _ _ _ _ _ _ _ _).trans (rfl)

theorem Encoding.fdivX (d a b : Code) (fmto : BitVec 5) : Encoding.Statement (.fdivX d a b fmto) := by
  intro h rest
  exact (decode_rr _ _ _ _ _ _ _ _ _ _).trans (xForm_vec (r := .no) (okF := arithFmtOk) (useC := false) (okD := noDest) (v := ⟨fmto, false, 0⟩) (c := 0) (fd := 0) (k := fun vx _ _ => .fdivX d a b vx.fmto) (rfl) (h) (rfl) (rfl))

theorem Encoding.fsqrt (d a : Code) : Encoding.Statement (.fsqrt d a) := by
  intro h rest
  exact (decode_rr _ _ _ _ _ _ _ _ _ _).trans (rfl)

theorem Encoding.fsqrtX (d a : Code) (fmto : BitVec 5) : Encoding.Statement (.fsqrtX d a fmto) := by
  intro h rest
  exact (decode_rr _ _ _ _ _ _ _ _ _ _).trans ((req_true (c := (0 : Code) == 0) (r := .reservedField) rfl).trans (xForm_vec (r := .no) (okF := arithFmtOk) (useC := false) (okD := noDest) (v := ⟨fmto, false, 0⟩) (c := 0) (fd := 0) (k := fun vx _ _ => .fsqrtX d a vx.fmto) (rfl) (h) (rfl) (rfl)))

theorem Encoding.fmin (d a b : Code) : Encoding.Statement (.fmin d a b) := by
  intro h rest
  exact (decode_rr _ _ _ _ _ _ _ _ _ _).trans (rfl)

theorem Encoding.fminX (d a b : Code) (fmto : BitVec 5) : Encoding.Statement (.fminX d a b fmto) := by
  intro h rest
  exact (decode_rr _ _ _ _ _ _ _ _ _ _).trans (xForm_vec (r := .no) (okF := floatFmtOk) (useC := false) (okD := noDest) (v := ⟨fmto, false, 0⟩) (c := 0) (fd := 0) (k := fun vx _ _ => .fminX d a b vx.fmto) (rfl) (h) (rfl) (rfl))

theorem Encoding.fmax (d a b : Code) : Encoding.Statement (.fmax d a b) := by
  intro h rest
  exact (decode_rr _ _ _ _ _ _ _ _ _ _).trans (rfl)

theorem Encoding.fmaxX (d a b : Code) (fmto : BitVec 5) : Encoding.Statement (.fmaxX d a b fmto) := by
  intro h rest
  exact (decode_rr _ _ _ _ _ _ _ _ _ _).trans (xForm_vec (r := .no) (okF := floatFmtOk) (useC := false) (okD := noDest) (v := ⟨fmto, false, 0⟩) (c := 0) (fd := 0) (k := fun vx _ _ => .fmaxX d a b vx.fmto) (rfl) (h) (rfl) (rfl))

theorem Encoding.fcmp (p : FPred) (d a b : Code) : Encoding.Statement (.fcmp p d a b) := by
  intro h rest
  cases p <;> exact (decode_rr _ _ _ _ _ _ _ _ _ _).trans (rfl)

theorem Encoding.fcmpX (p : FPred) (d a b : Code) (fmto : BitVec 5) : Encoding.Statement (.fcmpX p d a b fmto) := by
  intro h rest
  cases p with
  | eq => exact (decode_rr _ _ _ _ _ _ _ _ _ _).trans (xForm_vec (r := .no) (okF := floatFmtOk) (useC := false) (okD := noDest) (v := ⟨fmto, false, 0⟩) (c := 0) (fd := 0) (k := fun vx _ _ => .fcmpX .eq d a b vx.fmto) (rfl) (h) (rfl) (rfl))
  | lt => exact (decode_rr _ _ _ _ _ _ _ _ _ _).trans (xForm_vec (r := .no) (okF := floatFmtOk) (useC := false) (okD := noDest) (v := ⟨fmto, false, 0⟩) (c := 0) (fd := 0) (k := fun vx _ _ => .fcmpX .lt d a b vx.fmto) (rfl) (h) (rfl) (rfl))
  | le => exact (decode_rr _ _ _ _ _ _ _ _ _ _).trans (xForm_vec (r := .no) (okF := floatFmtOk) (useC := false) (okD := noDest) (v := ⟨fmto, false, 0⟩) (c := 0) (fd := 0) (k := fun vx _ _ => .fcmpX .le d a b vx.fmto) (rfl) (h) (rfl) (rfl))
  | un => exact (decode_rr _ _ _ _ _ _ _ _ _ _).trans (xForm_vec (r := .no) (okF := floatFmtOk) (useC := false) (okD := noDest) (v := ⟨fmto, false, 0⟩) (c := 0) (fd := 0) (k := fun vx _ _ => .fcmpX .un d a b vx.fmto) (rfl) (h) (rfl) (rfl))

theorem Encoding.fcvt (d a : Code) (fmto fmtd : BitVec 5) : Encoding.Statement (.fcvt d a fmto fmtd) := by
  intro h rest
  exact (decode_rr _ _ _ _ _ _ _ _ _ _).trans ((req_true (c := (0 : Code) == 0) (r := .reservedField) rfl).trans (xForm_vec (r := .no) (okF := (fun _ => true)) (useC := false) (okD := fcvtOk) (v := ⟨fmto, false, 0⟩) (c := 0) (fd := fmtd) (k := fun vx _ fmtd => .fcvt d a vx.fmto fmtd) (rfl) ((Bool.or_true _)) (rfl) (h)))

theorem Encoding.fcls (d a : Code) : Encoding.Statement (.fcls d a) := by
  intro h rest
  exact (decode_rr _ _ _ _ _ _ _ _ _ _).trans (rfl)

theorem Encoding.fclsX (d a : Code) (fmto : BitVec 5) : Encoding.Statement (.fclsX d a fmto) := by
  intro h rest
  exact (decode_rr _ _ _ _ _ _ _ _ _ _).trans ((req_true (c := (0 : Code) == 0) (r := .reservedField) rfl).trans (xForm_vec (r := .no) (okF := floatFmtOk) (useC := false) (okD := noDest) (v := ⟨fmto, false, 0⟩) (c := 0) (fd := 0) (k := fun vx _ _ => .fclsX d a vx.fmto) (rfl) (h) (rfl) (rfl)))

theorem Encoding.vadd (d a b : Code) : Encoding.Statement (.vadd d a b) := by
  intro h rest
  exact (decode_rr _ _ _ _ _ _ _ _ _ _).trans (rfl)

theorem Encoding.vaddX (d a b : Code) (vx : VX) : Encoding.Statement (.vaddX d a b vx) := by
  intro h rest
  exact (decode_rr _ _ _ _ _ _ _ _ _ _).trans (xForm_vec (r := .opt) (okF := anyFmtOk) (useC := false) (okD := noDest) (v := vx) (c := 0) (fd := 0) (k := fun vx _ _ => .vaddX d a b vx) ((Bool.and_eq_true_iff.1 h).1) ((Bool.and_eq_true_iff.1 h).2) (rfl) (rfl))

theorem Encoding.vaddLit (d a : Code) (lit : Word) (vx : VX) : Encoding.Statement (.vaddLit d a lit vx) := by
  intro h rest
  exact (decode_rr _ _ _ _ _ _ _ _ _ _).trans (((req_true (c := (63 : Code) == 63) (r := .reservedField) rfl).trans (xForm_vec (r := .opt) (okF := anyFmtOk) (useC := false) (okD := noDest) (v := vx) (c := 0) (fd := 0) (k := fun vx _ _ => .vaddLit d a (litOf (litLo lit) (litHi lit)) vx) ((Bool.and_eq_true_iff.1 h).1) ((Bool.and_eq_true_iff.1 h).2) (rfl) (rfl))).trans (congrArg (fun l => Except.ok (Instr.vaddLit d a l vx)) (litOf_lit lit)))

theorem Encoding.vsub (d a b : Code) : Encoding.Statement (.vsub d a b) := by
  intro h rest
  exact (decode_rr _ _ _ _ _ _ _ _ _ _).trans (rfl)

theorem Encoding.vsubX (d a b : Code) (vx : VX) : Encoding.Statement (.vsubX d a b vx) := by
  intro h rest
  exact (decode_rr _ _ _ _ _ _ _ _ _ _).trans (xForm_vec (r := .opt) (okF := anyFmtOk) (useC := false) (okD := noDest) (v := vx) (c := 0) (fd := 0) (k := fun vx _ _ => .vsubX d a b vx) ((Bool.and_eq_true_iff.1 h).1) ((Bool.and_eq_true_iff.1 h).2) (rfl) (rfl))

theorem Encoding.vsubLit (d a : Code) (lit : Word) (vx : VX) : Encoding.Statement (.vsubLit d a lit vx) := by
  intro h rest
  exact (decode_rr _ _ _ _ _ _ _ _ _ _).trans (((req_true (c := (63 : Code) == 63) (r := .reservedField) rfl).trans (xForm_vec (r := .opt) (okF := anyFmtOk) (useC := false) (okD := noDest) (v := vx) (c := 0) (fd := 0) (k := fun vx _ _ => .vsubLit d a (litOf (litLo lit) (litHi lit)) vx) ((Bool.and_eq_true_iff.1 h).1) ((Bool.and_eq_true_iff.1 h).2) (rfl) (rfl))).trans (congrArg (fun l => Except.ok (Instr.vsubLit d a l vx)) (litOf_lit lit)))

theorem Encoding.vmul (d a b : Code) : Encoding.Statement (.vmul d a b) := by
  intro h rest
  exact (decode_rr _ _ _ _ _ _ _ _ _ _).trans (rfl)

theorem Encoding.vmulX (d a b : Code) (vx : VX) : Encoding.Statement (.vmulX d a b vx) := by
  intro h rest
  exact (decode_rr _ _ _ _ _ _ _ _ _ _).trans (xForm_vec (r := .opt) (okF := anyFmtOk) (useC := false) (okD := noDest) (v := vx) (c := 0) (fd := 0) (k := fun vx _ _ => .vmulX d a b vx) ((Bool.and_eq_true_iff.1 h).1) ((Bool.and_eq_true_iff.1 h).2) (rfl) (rfl))

theorem Encoding.vmulLit (d a : Code) (lit : Word) (vx : VX) : Encoding.Statement (.vmulLit d a lit vx) := by
  intro h rest
  exact (decode_rr _ _ _ _ _ _ _ _ _ _).trans (((req_true (c := (63 : Code) == 63) (r := .reservedField) rfl).trans (xForm_vec (r := .opt) (okF := anyFmtOk) (useC := false) (okD := noDest) (v := vx) (c := 0) (fd := 0) (k := fun vx _ _ => .vmulLit d a (litOf (litLo lit) (litHi lit)) vx) ((Bool.and_eq_true_iff.1 h).1) ((Bool.and_eq_true_iff.1 h).2) (rfl) (rfl))).trans (congrArg (fun l => Except.ok (Instr.vmulLit d a l vx)) (litOf_lit lit)))

theorem Encoding.vfma (d a b c : Code) (vx : VX) : Encoding.Statement (.vfma d a b c vx) := by
  intro h rest
  exact (decode_rr _ _ _ _ _ _ _ _ _ _).trans (xForm_vec (r := .opt) (okF := anyFmtOk) (useC := true) (okD := noDest) (v := vx) (c := c) (fd := 0) (k := fun vx c _ => .vfma d a b c vx) ((Bool.and_eq_true_iff.1 h).1) ((Bool.and_eq_true_iff.1 h).2) (rfl) (rfl))

theorem Encoding.vfmaLit (d a : Code) (lit : Word) (c : Code) (vx : VX) : Encoding.Statement (.vfmaLit d a lit c vx) := by
  intro h rest
  exact (decode_rr _ _ _ _ _ _ _ _ _ _).trans (((req_true (c := (63 : Code) == 63) (r := .reservedField) rfl).trans (xForm_vec (r := .opt) (okF := anyFmtOk) (useC := true) (okD := noDest) (v := vx) (c := c) (fd := 0) (k := fun vx c _ => .vfmaLit d a (litOf (litLo lit) (litHi lit)) c vx) ((Bool.and_eq_true_iff.1 h).1) ((Bool.and_eq_true_iff.1 h).2) (rfl) (rfl))).trans (congrArg (fun l => Except.ok (Instr.vfmaLit d a l c vx)) (litOf_lit lit)))

theorem Encoding.vmin (d a b : Code) : Encoding.Statement (.vmin d a b) := by
  intro h rest
  exact (decode_rr _ _ _ _ _ _ _ _ _ _).trans (rfl)

theorem Encoding.vminX (d a b : Code) (vx : VX) : Encoding.Statement (.vminX d a b vx) := by
  intro h rest
  exact (decode_rr _ _ _ _ _ _ _ _ _ _).trans (xForm_vec (r := .opt) (okF := anyFmtOk) (useC := false) (okD := noDest) (v := vx) (c := 0) (fd := 0) (k := fun vx _ _ => .vminX d a b vx) ((Bool.and_eq_true_iff.1 h).1) ((Bool.and_eq_true_iff.1 h).2) (rfl) (rfl))

theorem Encoding.vminLit (d a : Code) (lit : Word) (vx : VX) : Encoding.Statement (.vminLit d a lit vx) := by
  intro h rest
  exact (decode_rr _ _ _ _ _ _ _ _ _ _).trans (((req_true (c := (63 : Code) == 63) (r := .reservedField) rfl).trans (xForm_vec (r := .opt) (okF := anyFmtOk) (useC := false) (okD := noDest) (v := vx) (c := 0) (fd := 0) (k := fun vx _ _ => .vminLit d a (litOf (litLo lit) (litHi lit)) vx) ((Bool.and_eq_true_iff.1 h).1) ((Bool.and_eq_true_iff.1 h).2) (rfl) (rfl))).trans (congrArg (fun l => Except.ok (Instr.vminLit d a l vx)) (litOf_lit lit)))

theorem Encoding.vmax (d a b : Code) : Encoding.Statement (.vmax d a b) := by
  intro h rest
  exact (decode_rr _ _ _ _ _ _ _ _ _ _).trans (rfl)

theorem Encoding.vmaxX (d a b : Code) (vx : VX) : Encoding.Statement (.vmaxX d a b vx) := by
  intro h rest
  exact (decode_rr _ _ _ _ _ _ _ _ _ _).trans (xForm_vec (r := .opt) (okF := anyFmtOk) (useC := false) (okD := noDest) (v := vx) (c := 0) (fd := 0) (k := fun vx _ _ => .vmaxX d a b vx) ((Bool.and_eq_true_iff.1 h).1) ((Bool.and_eq_true_iff.1 h).2) (rfl) (rfl))

theorem Encoding.vmaxLit (d a : Code) (lit : Word) (vx : VX) : Encoding.Statement (.vmaxLit d a lit vx) := by
  intro h rest
  exact (decode_rr _ _ _ _ _ _ _ _ _ _).trans (((req_true (c := (63 : Code) == 63) (r := .reservedField) rfl).trans (xForm_vec (r := .opt) (okF := anyFmtOk) (useC := false) (okD := noDest) (v := vx) (c := 0) (fd := 0) (k := fun vx _ _ => .vmaxLit d a (litOf (litLo lit) (litHi lit)) vx) ((Bool.and_eq_true_iff.1 h).1) ((Bool.and_eq_true_iff.1 h).2) (rfl) (rfl))).trans (congrArg (fun l => Except.ok (Instr.vmaxLit d a l vx)) (litOf_lit lit)))

theorem Encoding.vabs (d a : Code) : Encoding.Statement (.vabs d a) := by
  intro h rest
  exact (decode_rr _ _ _ _ _ _ _ _ _ _).trans (rfl)

theorem Encoding.vabsX (d a : Code) (vx : VX) : Encoding.Statement (.vabsX d a vx) := by
  intro h rest
  exact (decode_rr _ _ _ _ _ _ _ _ _ _).trans ((req_true (c := (0 : Code) == 0) (r := .reservedField) rfl).trans (xForm_vec (r := .opt) (okF := anyFmtOk) (useC := false) (okD := noDest) (v := vx) (c := 0) (fd := 0) (k := fun vx _ _ => .vabsX d a vx) ((Bool.and_eq_true_iff.1 h).1) ((Bool.and_eq_true_iff.1 h).2) (rfl) (rfl)))

theorem Encoding.vneg (d a : Code) : Encoding.Statement (.vneg d a) := by
  intro h rest
  exact (decode_rr _ _ _ _ _ _ _ _ _ _).trans (rfl)

theorem Encoding.vnegX (d a : Code) (vx : VX) : Encoding.Statement (.vnegX d a vx) := by
  intro h rest
  exact (decode_rr _ _ _ _ _ _ _ _ _ _).trans ((req_true (c := (0 : Code) == 0) (r := .reservedField) rfl).trans (xForm_vec (r := .opt) (okF := anyFmtOk) (useC := false) (okD := noDest) (v := vx) (c := 0) (fd := 0) (k := fun vx _ _ => .vnegX d a vx) ((Bool.and_eq_true_iff.1 h).1) ((Bool.and_eq_true_iff.1 h).2) (rfl) (rfl)))

theorem Encoding.vand (d a b : Code) : Encoding.Statement (.vand d a b) := by
  intro h rest
  exact (decode_rr _ _ _ _ _ _ _ _ _ _).trans (rfl)

theorem Encoding.vandX (d a b : Code) (vx : VX) : Encoding.Statement (.vandX d a b vx) := by
  intro h rest
  exact (decode_rr _ _ _ _ _ _ _ _ _ _).trans (xForm_vec (r := .opt) (okF := (fun _ => false)) (useC := false) (okD := noDest) (v := vx) (c := 0) (fd := 0) (k := fun vx _ _ => .vandX d a b vx) ((Bool.and_eq_true_iff.1 h).1) ((Bool.or_eq_true_iff.2 (Or.inl ((Bool.and_eq_true_iff.1 h).2)))) (rfl) (rfl))

theorem Encoding.vandLit (d a : Code) (lit : Word) (vx : VX) : Encoding.Statement (.vandLit d a lit vx) := by
  intro h rest
  exact (decode_rr _ _ _ _ _ _ _ _ _ _).trans (((req_true (c := (63 : Code) == 63) (r := .reservedField) rfl).trans (xForm_vec (r := .opt) (okF := (fun _ => false)) (useC := false) (okD := noDest) (v := vx) (c := 0) (fd := 0) (k := fun vx _ _ => .vandLit d a (litOf (litLo lit) (litHi lit)) vx) ((Bool.and_eq_true_iff.1 h).1) ((Bool.or_eq_true_iff.2 (Or.inl ((Bool.and_eq_true_iff.1 h).2)))) (rfl) (rfl))).trans (congrArg (fun l => Except.ok (Instr.vandLit d a l vx)) (litOf_lit lit)))

theorem Encoding.vor (d a b : Code) : Encoding.Statement (.vor d a b) := by
  intro h rest
  exact (decode_rr _ _ _ _ _ _ _ _ _ _).trans (rfl)

theorem Encoding.vorX (d a b : Code) (vx : VX) : Encoding.Statement (.vorX d a b vx) := by
  intro h rest
  exact (decode_rr _ _ _ _ _ _ _ _ _ _).trans (xForm_vec (r := .opt) (okF := (fun _ => false)) (useC := false) (okD := noDest) (v := vx) (c := 0) (fd := 0) (k := fun vx _ _ => .vorX d a b vx) ((Bool.and_eq_true_iff.1 h).1) ((Bool.or_eq_true_iff.2 (Or.inl ((Bool.and_eq_true_iff.1 h).2)))) (rfl) (rfl))

theorem Encoding.vorLit (d a : Code) (lit : Word) (vx : VX) : Encoding.Statement (.vorLit d a lit vx) := by
  intro h rest
  exact (decode_rr _ _ _ _ _ _ _ _ _ _).trans (((req_true (c := (63 : Code) == 63) (r := .reservedField) rfl).trans (xForm_vec (r := .opt) (okF := (fun _ => false)) (useC := false) (okD := noDest) (v := vx) (c := 0) (fd := 0) (k := fun vx _ _ => .vorLit d a (litOf (litLo lit) (litHi lit)) vx) ((Bool.and_eq_true_iff.1 h).1) ((Bool.or_eq_true_iff.2 (Or.inl ((Bool.and_eq_true_iff.1 h).2)))) (rfl) (rfl))).trans (congrArg (fun l => Except.ok (Instr.vorLit d a l vx)) (litOf_lit lit)))

theorem Encoding.vxor (d a b : Code) : Encoding.Statement (.vxor d a b) := by
  intro h rest
  exact (decode_rr _ _ _ _ _ _ _ _ _ _).trans (rfl)

theorem Encoding.vxorX (d a b : Code) (vx : VX) : Encoding.Statement (.vxorX d a b vx) := by
  intro h rest
  exact (decode_rr _ _ _ _ _ _ _ _ _ _).trans (xForm_vec (r := .opt) (okF := (fun _ => false)) (useC := false) (okD := noDest) (v := vx) (c := 0) (fd := 0) (k := fun vx _ _ => .vxorX d a b vx) ((Bool.and_eq_true_iff.1 h).1) ((Bool.or_eq_true_iff.2 (Or.inl ((Bool.and_eq_true_iff.1 h).2)))) (rfl) (rfl))

theorem Encoding.vxorLit (d a : Code) (lit : Word) (vx : VX) : Encoding.Statement (.vxorLit d a lit vx) := by
  intro h rest
  exact (decode_rr _ _ _ _ _ _ _ _ _ _).trans (((req_true (c := (63 : Code) == 63) (r := .reservedField) rfl).trans (xForm_vec (r := .opt) (okF := (fun _ => false)) (useC := false) (okD := noDest) (v := vx) (c := 0) (fd := 0) (k := fun vx _ _ => .vxorLit d a (litOf (litLo lit) (litHi lit)) vx) ((Bool.and_eq_true_iff.1 h).1) ((Bool.or_eq_true_iff.2 (Or.inl ((Bool.and_eq_true_iff.1 h).2)))) (rfl) (rfl))).trans (congrArg (fun l => Except.ok (Instr.vxorLit d a l vx)) (litOf_lit lit)))

theorem Encoding.vshl (d a b : Code) : Encoding.Statement (.vshl d a b) := by
  intro h rest
  exact (decode_rr _ _ _ _ _ _ _ _ _ _).trans (rfl)

theorem Encoding.vshlX (d a b : Code) (vx : VX) : Encoding.Statement (.vshlX d a b vx) := by
  intro h rest
  exact (decode_rr _ _ _ _ _ _ _ _ _ _).trans (xForm_vec (r := .opt) (okF := intFmtOk) (useC := false) (okD := noDest) (v := vx) (c := 0) (fd := 0) (k := fun vx _ _ => .vshlX d a b vx) ((Bool.and_eq_true_iff.1 h).1) ((Bool.and_eq_true_iff.1 h).2) (rfl) (rfl))

theorem Encoding.vshlLit (d a : Code) (lit : Word) (vx : VX) : Encoding.Statement (.vshlLit d a lit vx) := by
  intro h rest
  exact (decode_rr _ _ _ _ _ _ _ _ _ _).trans (((req_true (c := (63 : Code) == 63) (r := .reservedField) rfl).trans (xForm_vec (r := .opt) (okF := intFmtOk) (useC := false) (okD := noDest) (v := vx) (c := 0) (fd := 0) (k := fun vx _ _ => .vshlLit d a (litOf (litLo lit) (litHi lit)) vx) ((Bool.and_eq_true_iff.1 h).1) ((Bool.and_eq_true_iff.1 h).2) (rfl) (rfl))).trans (congrArg (fun l => Except.ok (Instr.vshlLit d a l vx)) (litOf_lit lit)))

theorem Encoding.vshr (d a b : Code) : Encoding.Statement (.vshr d a b) := by
  intro h rest
  exact (decode_rr _ _ _ _ _ _ _ _ _ _).trans (rfl)

theorem Encoding.vshrX (d a b : Code) (vx : VX) : Encoding.Statement (.vshrX d a b vx) := by
  intro h rest
  exact (decode_rr _ _ _ _ _ _ _ _ _ _).trans (xForm_vec (r := .opt) (okF := intFmtOk) (useC := false) (okD := noDest) (v := vx) (c := 0) (fd := 0) (k := fun vx _ _ => .vshrX d a b vx) ((Bool.and_eq_true_iff.1 h).1) ((Bool.and_eq_true_iff.1 h).2) (rfl) (rfl))

theorem Encoding.vshrLit (d a : Code) (lit : Word) (vx : VX) : Encoding.Statement (.vshrLit d a lit vx) := by
  intro h rest
  exact (decode_rr _ _ _ _ _ _ _ _ _ _).trans (((req_true (c := (63 : Code) == 63) (r := .reservedField) rfl).trans (xForm_vec (r := .opt) (okF := intFmtOk) (useC := false) (okD := noDest) (v := vx) (c := 0) (fd := 0) (k := fun vx _ _ => .vshrLit d a (litOf (litLo lit) (litHi lit)) vx) ((Bool.and_eq_true_iff.1 h).1) ((Bool.and_eq_true_iff.1 h).2) (rfl) (rfl))).trans (congrArg (fun l => Except.ok (Instr.vshrLit d a l vx)) (litOf_lit lit)))

theorem Encoding.vsar (d a b : Code) : Encoding.Statement (.vsar d a b) := by
  intro h rest
  exact (decode_rr _ _ _ _ _ _ _ _ _ _).trans (rfl)

theorem Encoding.vsarX (d a b : Code) (vx : VX) : Encoding.Statement (.vsarX d a b vx) := by
  intro h rest
  exact (decode_rr _ _ _ _ _ _ _ _ _ _).trans (xForm_vec (r := .opt) (okF := intFmtOk) (useC := false) (okD := noDest) (v := vx) (c := 0) (fd := 0) (k := fun vx _ _ => .vsarX d a b vx) ((Bool.and_eq_true_iff.1 h).1) ((Bool.and_eq_true_iff.1 h).2) (rfl) (rfl))

theorem Encoding.vsarLit (d a : Code) (lit : Word) (vx : VX) : Encoding.Statement (.vsarLit d a lit vx) := by
  intro h rest
  exact (decode_rr _ _ _ _ _ _ _ _ _ _).trans (((req_true (c := (63 : Code) == 63) (r := .reservedField) rfl).trans (xForm_vec (r := .opt) (okF := intFmtOk) (useC := false) (okD := noDest) (v := vx) (c := 0) (fd := 0) (k := fun vx _ _ => .vsarLit d a (litOf (litLo lit) (litHi lit)) vx) ((Bool.and_eq_true_iff.1 h).1) ((Bool.and_eq_true_iff.1 h).2) (rfl) (rfl))).trans (congrArg (fun l => Except.ok (Instr.vsarLit d a l vx)) (litOf_lit lit)))

theorem Encoding.vscl (d a b : Code) : Encoding.Statement (.vscl d a b) := by
  intro h rest
  exact (decode_rr _ _ _ _ _ _ _ _ _ _).trans (rfl)

theorem Encoding.vsclX (d a b : Code) (vx : VX) : Encoding.Statement (.vsclX d a b vx) := by
  intro h rest
  exact (decode_rr _ _ _ _ _ _ _ _ _ _).trans (xForm_vec (r := .opt) (okF := anyFmtOk) (useC := false) (okD := noDest) (v := vx) (c := 0) (fd := 0) (k := fun vx _ _ => .vsclX d a b vx) ((Bool.and_eq_true_iff.1 h).1) ((Bool.and_eq_true_iff.1 h).2) (rfl) (rfl))

theorem Encoding.vsclLit (d a : Code) (lit : Word) (vx : VX) : Encoding.Statement (.vsclLit d a lit vx) := by
  intro h rest
  exact (decode_rr _ _ _ _ _ _ _ _ _ _).trans (((req_true (c := (63 : Code) == 63) (r := .reservedField) rfl).trans (xForm_vec (r := .opt) (okF := anyFmtOk) (useC := false) (okD := noDest) (v := vx) (c := 0) (fd := 0) (k := fun vx _ _ => .vsclLit d a (litOf (litLo lit) (litHi lit)) vx) ((Bool.and_eq_true_iff.1 h).1) ((Bool.and_eq_true_iff.1 h).2) (rfl) (rfl))).trans (congrArg (fun l => Except.ok (Instr.vsclLit d a l vx)) (litOf_lit lit)))

theorem Encoding.vrcp (d a : Code) : Encoding.Statement (.vrcp d a) := by
  intro h rest
  exact (decode_rr _ _ _ _ _ _ _ _ _ _).trans (rfl)

theorem Encoding.vrcpX (d a : Code) (vx : VX) : Encoding.Statement (.vrcpX d a vx) := by
  intro h rest
  exact (decode_rr _ _ _ _ _ _ _ _ _ _).trans ((req_true (c := (0 : Code) == 0) (r := .reservedField) rfl).trans (xForm_vec (r := .opt) (okF := arithFmtOk) (useC := false) (okD := noDest) (v := vx) (c := 0) (fd := 0) (k := fun vx _ _ => .vrcpX d a vx) ((Bool.and_eq_true_iff.1 h).1) ((Bool.and_eq_true_iff.1 h).2) (rfl) (rfl)))

theorem Encoding.vrsq (d a : Code) : Encoding.Statement (.vrsq d a) := by
  intro h rest
  exact (decode_rr _ _ _ _ _ _ _ _ _ _).trans (rfl)

theorem Encoding.vrsqX (d a : Code) (vx : VX) : Encoding.Statement (.vrsqX d a vx) := by
  intro h rest
  exact (decode_rr _ _ _ _ _ _ _ _ _ _).trans ((req_true (c := (0 : Code) == 0) (r := .reservedField) rfl).trans (xForm_vec (r := .opt) (okF := arithFmtOk) (useC := false) (okD := noDest) (v := vx) (c := 0) (fd := 0) (k := fun vx _ _ => .vrsqX d a vx) ((Bool.and_eq_true_iff.1 h).1) ((Bool.and_eq_true_iff.1 h).2) (rfl) (rfl)))

theorem Encoding.vex2 (d a : Code) : Encoding.Statement (.vex2 d a) := by
  intro h rest
  exact (decode_rr _ _ _ _ _ _ _ _ _ _).trans (rfl)

theorem Encoding.vex2X (d a : Code) (vx : VX) : Encoding.Statement (.vex2X d a vx) := by
  intro h rest
  exact (decode_rr _ _ _ _ _ _ _ _ _ _).trans ((req_true (c := (0 : Code) == 0) (r := .reservedField) rfl).trans (xForm_vec (r := .opt) (okF := arithFmtOk) (useC := false) (okD := noDest) (v := vx) (c := 0) (fd := 0) (k := fun vx _ _ => .vex2X d a vx) ((Bool.and_eq_true_iff.1 h).1) ((Bool.and_eq_true_iff.1 h).2) (rfl) (rfl)))

theorem Encoding.vlg2 (d a : Code) : Encoding.Statement (.vlg2 d a) := by
  intro h rest
  exact (decode_rr _ _ _ _ _ _ _ _ _ _).trans (rfl)

theorem Encoding.vlg2X (d a : Code) (vx : VX) : Encoding.Statement (.vlg2X d a vx) := by
  intro h rest
  exact (decode_rr _ _ _ _ _ _ _ _ _ _).trans ((req_true (c := (0 : Code) == 0) (r := .reservedField) rfl).trans (xForm_vec (r := .opt) (okF := arithFmtOk) (useC := false) (okD := noDest) (v := vx) (c := 0) (fd := 0) (k := fun vx _ _ => .vlg2X d a vx) ((Bool.and_eq_true_iff.1 h).1) ((Bool.and_eq_true_iff.1 h).2) (rfl) (rfl)))

theorem Encoding.vcvt (d a : Code) (vx : VX) (fmtd : BitVec 5) : Encoding.Statement (.vcvt d a vx fmtd) := by
  intro h rest
  exact (decode_rr _ _ _ _ _ _ _ _ _ _).trans ((req_true (c := (0 : Code) == 0) (r := .reservedField) rfl).trans (xForm_vec (r := .opt) (okF := anyFmtOk) (useC := false) (okD := (fun _ t => anyFmtOk t)) (v := vx) (c := 0) (fd := fmtd) (k := fun vx _ fmtd => .vcvt d a vx fmtd) ((Bool.and_eq_true_iff.1 (Bool.and_eq_true_iff.1 h).1).1) ((Bool.and_eq_true_iff.1 (Bool.and_eq_true_iff.1 h).1).2) (rfl) ((Bool.and_eq_true_iff.1 h).2)))

theorem Encoding.vcmp (p : VPred) (d a b : Code) : Encoding.Statement (.vcmp p d a b) := by
  intro h rest
  cases p <;> exact (decode_rr _ _ _ _ _ _ _ _ _ _).trans (rfl)

theorem Encoding.vcmpX (p : VPred) (d a b : Code) (vx : VX) : Encoding.Statement (.vcmpX p d a b vx) := by
  intro h rest
  cases p with
  | eq => exact (decode_rr _ _ _ _ _ _ _ _ _ _).trans (xForm_vec (r := .opt) (okF := wideFmtOk) (useC := false) (okD := noDest) (v := vx) (c := 0) (fd := 0) (k := fun vx _ _ => .vcmpX .eq d a b vx) ((Bool.and_eq_true_iff.1 h).1) ((Bool.and_eq_true_iff.1 h).2) (rfl) (rfl))
  | ne => exact (decode_rr _ _ _ _ _ _ _ _ _ _).trans (xForm_vec (r := .opt) (okF := wideFmtOk) (useC := false) (okD := noDest) (v := vx) (c := 0) (fd := 0) (k := fun vx _ _ => .vcmpX .ne d a b vx) ((Bool.and_eq_true_iff.1 h).1) ((Bool.and_eq_true_iff.1 h).2) (rfl) (rfl))
  | lt => exact (decode_rr _ _ _ _ _ _ _ _ _ _).trans (xForm_vec (r := .opt) (okF := wideFmtOk) (useC := false) (okD := noDest) (v := vx) (c := 0) (fd := 0) (k := fun vx _ _ => .vcmpX .lt d a b vx) ((Bool.and_eq_true_iff.1 h).1) ((Bool.and_eq_true_iff.1 h).2) (rfl) (rfl))
  | le => exact (decode_rr _ _ _ _ _ _ _ _ _ _).trans (xForm_vec (r := .opt) (okF := wideFmtOk) (useC := false) (okD := noDest) (v := vx) (c := 0) (fd := 0) (k := fun vx _ _ => .vcmpX .le d a b vx) ((Bool.and_eq_true_iff.1 h).1) ((Bool.and_eq_true_iff.1 h).2) (rfl) (rfl))
  | un => exact (decode_rr _ _ _ _ _ _ _ _ _ _).trans (xForm_vec (r := .opt) (okF := wideFmtOk) (useC := false) (okD := noDest) (v := vx) (c := 0) (fd := 0) (k := fun vx _ _ => .vcmpX .un d a b vx) ((Bool.and_eq_true_iff.1 h).1) ((Bool.and_eq_true_iff.1 h).2) (rfl) (rfl))

theorem Encoding.vcmpLit (p : VPred) (d a : Code) (lit : Word) (vx : VX) : Encoding.Statement (.vcmpLit p d a lit vx) := by
  intro h rest
  cases p with
  | eq => exact (decode_rr _ _ _ _ _ _ _ _ _ _).trans (((req_true (c := (63 : Code) == 63) (r := .reservedField) rfl).trans (xForm_vec (r := .opt) (okF := wideFmtOk) (useC := false) (okD := noDest) (v := vx) (c := 0) (fd := 0) (k := fun vx _ _ => .vcmpLit .eq d a (litOf (litLo lit) (litHi lit)) vx) ((Bool.and_eq_true_iff.1 h).1) ((Bool.and_eq_true_iff.1 h).2) (rfl) (rfl))).trans (congrArg (fun l => Except.ok (Instr.vcmpLit .eq d a l vx)) (litOf_lit lit)))
  | ne => exact (decode_rr _ _ _ _ _ _ _ _ _ _).trans (((req_true (c := (63 : Code) == 63) (r := .reservedField) rfl).trans (xForm_vec (r := .opt) (okF := wideFmtOk) (useC := false) (okD := noDest) (v := vx) (c := 0) (fd := 0) (k := fun vx _ _ => .vcmpLit .ne d a (litOf (litLo lit) (litHi lit)) vx) ((Bool.and_eq_true_iff.1 h).1) ((Bool.and_eq_true_iff.1 h).2) (rfl) (rfl))).trans (congrArg (fun l => Except.ok (Instr.vcmpLit .ne d a l vx)) (litOf_lit lit)))
  | lt => exact (decode_rr _ _ _ _ _ _ _ _ _ _).trans (((req_true (c := (63 : Code) == 63) (r := .reservedField) rfl).trans (xForm_vec (r := .opt) (okF := wideFmtOk) (useC := false) (okD := noDest) (v := vx) (c := 0) (fd := 0) (k := fun vx _ _ => .vcmpLit .lt d a (litOf (litLo lit) (litHi lit)) vx) ((Bool.and_eq_true_iff.1 h).1) ((Bool.and_eq_true_iff.1 h).2) (rfl) (rfl))).trans (congrArg (fun l => Except.ok (Instr.vcmpLit .lt d a l vx)) (litOf_lit lit)))
  | le => exact (decode_rr _ _ _ _ _ _ _ _ _ _).trans (((req_true (c := (63 : Code) == 63) (r := .reservedField) rfl).trans (xForm_vec (r := .opt) (okF := wideFmtOk) (useC := false) (okD := noDest) (v := vx) (c := 0) (fd := 0) (k := fun vx _ _ => .vcmpLit .le d a (litOf (litLo lit) (litHi lit)) vx) ((Bool.and_eq_true_iff.1 h).1) ((Bool.and_eq_true_iff.1 h).2) (rfl) (rfl))).trans (congrArg (fun l => Except.ok (Instr.vcmpLit .le d a l vx)) (litOf_lit lit)))
  | un => exact (decode_rr _ _ _ _ _ _ _ _ _ _).trans (((req_true (c := (63 : Code) == 63) (r := .reservedField) rfl).trans (xForm_vec (r := .opt) (okF := wideFmtOk) (useC := false) (okD := noDest) (v := vx) (c := 0) (fd := 0) (k := fun vx _ _ => .vcmpLit .un d a (litOf (litLo lit) (litHi lit)) vx) ((Bool.and_eq_true_iff.1 h).1) ((Bool.and_eq_true_iff.1 h).2) (rfl) (rfl))).trans (congrArg (fun l => Except.ok (Instr.vcmpLit .un d a l vx)) (litOf_lit lit)))

theorem Encoding.vsel (d a b : Code) (vx : VX) : Encoding.Statement (.vsel d a b vx) := by
  intro h rest
  exact (decode_rr _ _ _ _ _ _ _ _ _ _).trans (xForm_vec (r := .must) (okF := anyFmtOk) (useC := false) (okD := noDest) (v := vx) (c := 0) (fd := 0) (k := fun vx _ _ => .vsel d a b vx) ((Bool.and_eq_true_iff.1 h).1) ((Bool.and_eq_true_iff.1 h).2) (rfl) (rfl))

theorem Encoding.vselLit (d a : Code) (lit : Word) (vx : VX) : Encoding.Statement (.vselLit d a lit vx) := by
  intro h rest
  exact (decode_rr _ _ _ _ _ _ _ _ _ _).trans (((req_true (c := (63 : Code) == 63) (r := .reservedField) rfl).trans (xForm_vec (r := .must) (okF := anyFmtOk) (useC := false) (okD := noDest) (v := vx) (c := 0) (fd := 0) (k := fun vx _ _ => .vselLit d a (litOf (litLo lit) (litHi lit)) vx) ((Bool.and_eq_true_iff.1 h).1) ((Bool.and_eq_true_iff.1 h).2) (rfl) (rfl))).trans (congrArg (fun l => Except.ok (Instr.vselLit d a l vx)) (litOf_lit lit)))

theorem Encoding.mand (d a b : Code) : Encoding.Statement (.mand d a b) := by
  intro h rest
  exact (decode_rr _ _ _ _ _ _ _ _ _ _).trans (rfl)

theorem Encoding.mor (d a b : Code) : Encoding.Statement (.mor d a b) := by
  intro h rest
  exact (decode_rr _ _ _ _ _ _ _ _ _ _).trans (rfl)

theorem Encoding.mnot (d a : Code) : Encoding.Statement (.mnot d a) := by
  intro h rest
  exact (decode_rr _ _ _ _ _ _ _ _ _ _).trans (rfl)

theorem Encoding.vred (d a : Code) : Encoding.Statement (.vred d a) := by
  intro h rest
  exact (decode_rr _ _ _ _ _ _ _ _ _ _).trans (rfl)

theorem Encoding.vredX (d a : Code) (vx : VX) : Encoding.Statement (.vredX d a vx) := by
  intro h rest
  exact (decode_rr _ _ _ _ _ _ _ _ _ _).trans ((req_true (c := (0 : Code) == 0) (r := .reservedField) rfl).trans (xForm_vec (r := .opt) (okF := anyFmtOk) (useC := false) (okD := noDest) (v := vx) (c := 0) (fd := 0) (k := fun vx _ _ => .vredX d a vx) ((Bool.and_eq_true_iff.1 h).1) ((Bool.and_eq_true_iff.1 h).2) (rfl) (rfl)))

theorem Encoding.vredSat (d a : Code) : Encoding.Statement (.vredSat d a) := by
  intro h rest
  exact (decode_rr _ _ _ _ _ _ _ _ _ _).trans (rfl)

theorem Encoding.vredSatX (d a : Code) (vx : VX) : Encoding.Statement (.vredSatX d a vx) := by
  intro h rest
  exact (decode_rr _ _ _ _ _ _ _ _ _ _).trans ((req_true (c := (0 : Code) == 0) (r := .reservedField) rfl).trans (xForm_vec (r := .opt) (okF := intFmtOk) (useC := false) (okD := noDest) (v := vx) (c := 0) (fd := 0) (k := fun vx _ _ => .vredSatX d a vx) ((Bool.and_eq_true_iff.1 h).1) ((Bool.and_eq_true_iff.1 h).2) (rfl) (rfl)))

theorem Encoding.vrmx (d a : Code) : Encoding.Statement (.vrmx d a) := by
  intro h rest
  exact (decode_rr _ _ _ _ _ _ _ _ _ _).trans (rfl)

theorem Encoding.vrmxX (d a : Code) (vx : VX) : Encoding.Statement (.vrmxX d a vx) := by
  intro h rest
  exact (decode_rr _ _ _ _ _ _ _ _ _ _).trans ((req_true (c := (0 : Code) == 0) (r := .reservedField) rfl).trans (xForm_vec (r := .opt) (okF := anyFmtOk) (useC := false) (okD := noDest) (v := vx) (c := 0) (fd := 0) (k := fun vx _ _ => .vrmxX d a vx) ((Bool.and_eq_true_iff.1 h).1) ((Bool.and_eq_true_iff.1 h).2) (rfl) (rfl)))

theorem Encoding.vrmn (d a : Code) : Encoding.Statement (.vrmn d a) := by
  intro h rest
  exact (decode_rr _ _ _ _ _ _ _ _ _ _).trans (rfl)

theorem Encoding.vrmnX (d a : Code) (vx : VX) : Encoding.Statement (.vrmnX d a vx) := by
  intro h rest
  exact (decode_rr _ _ _ _ _ _ _ _ _ _).trans ((req_true (c := (0 : Code) == 0) (r := .reservedField) rfl).trans (xForm_vec (r := .opt) (okF := anyFmtOk) (useC := false) (okD := noDest) (v := vx) (c := 0) (fd := 0) (k := fun vx _ _ => .vrmnX d a vx) ((Bool.and_eq_true_iff.1 h).1) ((Bool.and_eq_true_iff.1 h).2) (rfl) (rfl)))

theorem Encoding.vprm (d a b : Code) : Encoding.Statement (.vprm d a b) := by
  intro h rest
  exact (decode_rr _ _ _ _ _ _ _ _ _ _).trans (rfl)

theorem Encoding.vprmX (d a b : Code) (vx : VX) : Encoding.Statement (.vprmX d a b vx) := by
  intro h rest
  exact (decode_rr _ _ _ _ _ _ _ _ _ _).trans (xForm_vec (r := .opt) (okF := wideFmtOk) (useC := false) (okD := noDest) (v := vx) (c := 0) (fd := 0) (k := fun vx _ _ => .vprmX d a b vx) ((Bool.and_eq_true_iff.1 h).1) ((Bool.and_eq_true_iff.1 h).2) (rfl) (rfl))

theorem Encoding.vprmLit (d a : Code) (lit : Word) (vx : VX) : Encoding.Statement (.vprmLit d a lit vx) := by
  intro h rest
  exact (decode_rr _ _ _ _ _ _ _ _ _ _).trans (((req_true (c := (63 : Code) == 63) (r := .reservedField) rfl).trans (xForm_vec (r := .opt) (okF := wideFmtOk) (useC := false) (okD := noDest) (v := vx) (c := 0) (fd := 0) (k := fun vx _ _ => .vprmLit d a (litOf (litLo lit) (litHi lit)) vx) ((Bool.and_eq_true_iff.1 h).1) ((Bool.and_eq_true_iff.1 h).2) (rfl) (rfl))).trans (congrArg (fun l => Except.ok (Instr.vprmLit d a l vx)) (litOf_lit lit)))

theorem Encoding.vbrd (d a : Code) : Encoding.Statement (.vbrd d a) := by
  intro h rest
  exact (decode_rr _ _ _ _ _ _ _ _ _ _).trans (rfl)

theorem Encoding.vbrdX (d a : Code) (vx : VX) : Encoding.Statement (.vbrdX d a vx) := by
  intro h rest
  exact (decode_rr _ _ _ _ _ _ _ _ _ _).trans ((req_true (c := (0 : Code) == 0) (r := .reservedField) rfl).trans (xForm_vec (r := .opt) (okF := anyFmtOk) (useC := false) (okD := noDest) (v := vx) (c := 0) (fd := 0) (k := fun vx _ _ => .vbrdX d a vx) ((Bool.and_eq_true_iff.1 h).1) ((Bool.and_eq_true_iff.1 h).2) (rfl) (rfl)))

theorem Encoding.viot (d : Code) : Encoding.Statement (.viot d) := by
  intro h rest
  exact (decode_rr _ _ _ _ _ _ _ _ _ _).trans (rfl)

theorem Encoding.viotX (d : Code) (vx : VX) : Encoding.Statement (.viotX d vx) := by
  intro h rest
  exact (decode_rr _ _ _ _ _ _ _ _ _ _).trans ((req_true (c := (0 : Code) == 0 && (0 : Code) == 0) (r := .reservedField) rfl).trans (xForm_vec (r := .opt) (okF := anyFmtOk) (useC := false) (okD := noDest) (v := vx) (c := 0) (fd := 0) (k := fun vx _ _ => .viotX d vx) ((Bool.and_eq_true_iff.1 h).1) ((Bool.and_eq_true_iff.1 h).2) (rfl) (rfl)))

theorem Encoding.vpck (d a b : Code) (vx : VX) (fmtd : BitVec 5) : Encoding.Statement (.vpck d a b vx fmtd) := by
  intro h rest
  exact (decode_rr _ _ _ _ _ _ _ _ _ _).trans (xForm_vec (r := .opt) (okF := anyFmtOk) (useC := false) (okD := packOk) (v := vx) (c := 0) (fd := fmtd) (k := fun vx _ fmtd => .vpck d a b vx fmtd) ((Bool.and_eq_true_iff.1 (Bool.and_eq_true_iff.1 h).1).1) ((Bool.and_eq_true_iff.1 (Bool.and_eq_true_iff.1 h).1).2) (rfl) ((Bool.and_eq_true_iff.1 h).2))

theorem Encoding.vupk (d a b : Code) (vx : VX) (fmtd : BitVec 5) : Encoding.Statement (.vupk d a b vx fmtd) := by
  intro h rest
  exact (decode_rr _ _ _ _ _ _ _ _ _ _).trans (xForm_vec (r := .opt) (okF := anyFmtOk) (useC := false) (okD := unpackOk) (v := vx) (c := 0) (fd := fmtd) (k := fun vx _ fmtd => .vupk d a b vx fmtd) ((Bool.and_eq_true_iff.1 (Bool.and_eq_true_iff.1 h).1).1) ((Bool.and_eq_true_iff.1 (Bool.and_eq_true_iff.1 h).1).2) (rfl) ((Bool.and_eq_true_iff.1 h).2))

theorem Encoding.vmv (d a : Code) : Encoding.Statement (.vmv d a) := by
  intro h rest
  exact (decode_rr _ _ _ _ _ _ _ _ _ _).trans (rfl)

theorem Encoding.vmvX (d a : Code) (vx : VX) : Encoding.Statement (.vmvX d a vx) := by
  intro h rest
  exact (decode_rr _ _ _ _ _ _ _ _ _ _).trans ((req_true (c := (0 : Code) == 0) (r := .reservedField) rfl).trans (xForm_vec (r := .opt) (okF := (fun _ => false)) (useC := false) (okD := noDest) (v := vx) (c := 0) (fd := 0) (k := fun vx _ _ => .vmvX d a vx) ((Bool.and_eq_true_iff.1 h).1) ((Bool.or_eq_true_iff.2 (Or.inl ((Bool.and_eq_true_iff.1 h).2)))) (rfl) (rfl)))

theorem Encoding.vins (d a b : Code) : Encoding.Statement (.vins d a b) := by
  intro h rest
  exact (decode_rr _ _ _ _ _ _ _ _ _ _).trans (rfl)

theorem Encoding.vinsX (d a b : Code) (fmto : BitVec 5) : Encoding.Statement (.vinsX d a b fmto) := by
  intro h rest
  exact (decode_rr _ _ _ _ _ _ _ _ _ _).trans (xForm_vec (r := .no) (okF := anyFmtOk) (useC := false) (okD := noDest) (v := ⟨fmto, false, 0⟩) (c := 0) (fd := 0) (k := fun vx _ _ => .vinsX d a b vx.fmto) (rfl) (h) (rfl) (rfl))

theorem Encoding.vext (d a b : Code) : Encoding.Statement (.vext d a b) := by
  intro h rest
  exact (decode_rr _ _ _ _ _ _ _ _ _ _).trans (rfl)

theorem Encoding.vextX (d a b : Code) (fmto : BitVec 5) : Encoding.Statement (.vextX d a b fmto) := by
  intro h rest
  exact (decode_rr _ _ _ _ _ _ _ _ _ _).trans (xForm_vec (r := .no) (okF := anyFmtOk) (useC := false) (okD := noDest) (v := ⟨fmto, false, 0⟩) (c := 0) (fd := 0) (k := fun vx _ _ => .vextX d a b vx.fmto) (rfl) (h) (rfl) (rfl))

theorem Encoding.pshp (d a : Code) : Encoding.Statement (.pshp d a) := by
  intro h rest
  exact (decode_rr _ _ _ _ _ _ _ _ _ _).trans (rfl)

theorem Encoding.pmm (acc sa sb : BitVec 3) (na nb ad xi : Bool) (fmto : BitVec 5) : Encoding.Statement (.pmm acc sa sb na nb ad xi fmto) := by
  intro h rest
  exact (decode_rr _ _ _ _ _ _ _ _ _ _).trans ((req_true (c := (2 : BitVec 2) == 2) (r := .badLen) (k := req ((0 : Code) == 0 && (0 : Code) == 0 && (0 : Code) == 0) .reservedField (pForm pmmFmtOk (prsX1 fmto 0 xi ad nb na sb sa acc) 0 (fun x => req (x.idx == 0) .badExtended (.ok (.pmm x.acc x.sa x.sb x.na x.nb x.ad x.xi x.fmto))))) rfl).trans ((req_true rfl).trans ((pForm_prs (okF := pmmFmtOk) (f := fmto) (i := 0) (xi := xi) (ad := ad) (nb := nb) (na := na) (sb := sb) (sa := sa) (acc := acc) h).trans rfl)))

theorem Encoding.pmmg (acc sa sb : BitVec 3) (idx : BitVec 4) (na nb ad xi : Bool) (fmto : BitVec 5) : Encoding.Statement (.pmmg acc sa sb idx na nb ad xi fmto) := by
  intro h rest
  exact (decode_rr _ _ _ _ _ _ _ _ _ _).trans ((req_true (c := (2 : BitVec 2) == 2) (r := .badLen) (k := req ((0 : Code) == 0 && (0 : Code) == 0 && (0 : Code) == 0) .reservedField (pForm pmmFmtOk (prsX1 fmto idx xi ad nb na sb sa acc) 0 (fun x => .ok (.pmmg x.acc x.sa x.sb x.idx x.na x.nb x.ad x.xi x.fmto)))) rfl).trans ((req_true rfl).trans ((pForm_prs (okF := pmmFmtOk) (f := fmto) (i := idx) (xi := xi) (ad := ad) (nb := nb) (na := na) (sb := sb) (sa := sa) (acc := acc) h).trans rfl)))

theorem Encoding.plda (acc sa : BitVec 3) (fmto : BitVec 5) : Encoding.Statement (.plda acc sa fmto) := by
  intro h rest
  exact (decode_rr _ _ _ _ _ _ _ _ _ _).trans ((req_true (c := (2 : BitVec 2) == 2) (r := .badLen) (k := req ((0 : Code) == 0 && (0 : Code) == 0 && (0 : Code) == 0) .reservedField (pForm tileFmtOk (prsX1 fmto 0 false false false false 0 sa acc) 0 (fun x => req (x.idx == 0 && x.sb == 0 && !x.na && !x.nb && !x.ad && !x.xi) .badExtended (.ok (.plda x.acc x.sa x.fmto))))) rfl).trans ((req_true rfl).trans ((pForm_prs (okF := tileFmtOk) (f := fmto) (i := 0) (xi := false) (ad := false) (nb := false) (na := false) (sb := 0) (sa := sa) (acc := acc) h).trans rfl)))

theorem Encoding.psta (acc sa : BitVec 3) (ad : Bool) (fmto : BitVec 5) : Encoding.Statement (.psta acc sa ad fmto) := by
  intro h rest
  exact (decode_rr _ _ _ _ _ _ _ _ _ _).trans ((req_true (c := (2 : BitVec 2) == 2) (r := .badLen) (k := req ((0 : Code) == 0 && (0 : Code) == 0 && (0 : Code) == 0) .reservedField (pForm tileFmtOk (prsX1 fmto 0 false ad false false 0 sa acc) 0 (fun x => req (x.idx == 0 && x.sb == 0 && !x.na && !x.nb && !x.xi) .badExtended (.ok (.psta x.acc x.sa x.ad x.fmto))))) rfl).trans ((req_true rfl).trans ((pForm_prs (okF := tileFmtOk) (f := fmto) (i := 0) (xi := false) (ad := ad) (nb := false) (na := false) (sb := 0) (sa := sa) (acc := acc) h).trans rfl)))

theorem Encoding.pz (d : Code) : Encoding.Statement (.pz d) := by
  intro h rest
  exact (decode_rr _ _ _ _ _ _ _ _ _ _).trans (rfl)

theorem Encoding.pcvt (acc : BitVec 3) (fmto : BitVec 5) : Encoding.Statement (.pcvt acc fmto) := by
  intro h rest
  exact (decode_rr _ _ _ _ _ _ _ _ _ _).trans ((req_true (c := (2 : BitVec 2) == 2) (r := .badLen) (k := req ((0 : Code) == 0 && (0 : Code) == 0 && (0 : Code) == 0) .reservedField (pForm (fun f => f == 11 || f == 18) (prsX1 fmto 0 false false false false 0 0 acc) 0 (fun x => req (x.idx == 0 && x.sb == 0 && x.sa == 0 && !x.na && !x.nb && !x.ad && !x.xi) .badExtended (.ok (.pcvt x.acc x.fmto))))) rfl).trans ((req_true rfl).trans ((pForm_prs (okF := (fun f => f == 11 || f == 18)) (f := fmto) (i := 0) (xi := false) (ad := false) (nb := false) (na := false) (sb := 0) (sa := 0) (acc := acc) ((show ∀ f : BitVec 5, (f == 0 || f == 11 || f == 18) = true → (f == 0 || (f.toNat == 11 || f.toNat == 18)) = true by decide) fmto h)).trans rfl)))

theorem Encoding.wmcf (d a b : Code) : Encoding.Statement (.wmcf d a b) := by
  intro h rest
  exact (decode_rr _ _ _ _ _ _ _ _ _ _).trans (rfl)

theorem Encoding.wmz : Encoding.Statement (.wmz) := by
  intro h rest
  exact (decode_rr _ _ _ _ _ _ _ _ _ _).trans (rfl)

theorem Encoding.wmst (a b : Code) : Encoding.Statement (.wmst a b) := by
  intro h rest
  exact (decode_rr _ _ _ _ _ _ _ _ _ _).trans (rfl)

theorem Encoding.wmsn (a : Code) : Encoding.Statement (.wmsn a) := by
  intro h rest
  exact (decode_rr _ _ _ _ _ _ _ _ _ _).trans (rfl)

theorem Encoding.wmjn (a b : Code) : Encoding.Statement (.wmjn a b) := by
  intro h rest
  exact (decode_rr _ _ _ _ _ _ _ _ _ _).trans (rfl)

theorem Encoding.wmlg (a b : Code) : Encoding.Statement (.wmlg a b) := by
  intro h rest
  exact (decode_rr _ _ _ _ _ _ _ _ _ _).trans (rfl)

theorem Encoding.wmrd (d a : Code) : Encoding.Statement (.wmrd d a) := by
  intro h rest
  exact (decode_rr _ _ _ _ _ _ _ _ _ _).trans (rfl)

theorem Encoding.eret : Encoding.Statement (.eret) := by
  intro h rest
  exact (decode_rr _ _ _ _ _ _ _ _ _ _).trans (rfl)

theorem Encoding.halt : Encoding.Statement (.halt) := by
  intro h rest
  exact (decode_rr _ _ _ _ _ _ _ _ _ _).trans (rfl)

theorem Encoding.nop (v : BitVec 16) : Encoding.Statement (.nop v) := by
  intro h rest
  change decode (hintw v 0) _ _ _ _ = _
  unfold decode
  rw [show majOf (hintw v 0) = 0x3D from majOf_hint (v ++ (0 : BitVec 8)) 0]
  change Except.ok (decodeHint _ _ _ _ _) = _
  unfold decodeHint
  rw [show lenOf (hintw v 0) = 0 from lenOf_hint (v ++ (0 : BitVec 8)) 0,
    show bodyOf (hintw v 0) = v ++ (0 : BitVec 8) from bodyOf_hint (v ++ (0 : BitVec 8)) 0]
  simp only [hintBody_0, hintBody_8]
  rfl

theorem Encoding.lpad (v : BitVec 16) : Encoding.Statement (.lpad v) := by
  intro h rest
  change decode (hintw v 1) _ _ _ _ = _
  unfold decode
  rw [show majOf (hintw v 1) = 0x3D from majOf_hint (v ++ (1 : BitVec 8)) 0]
  change Except.ok (decodeHint _ _ _ _ _) = _
  unfold decodeHint
  rw [show lenOf (hintw v 1) = 0 from lenOf_hint (v ++ (1 : BitVec 8)) 0,
    show bodyOf (hintw v 1) = v ++ (1 : BitVec 8) from bodyOf_hint (v ++ (1 : BitVec 8)) 0]
  simp only [hintBody_0, hintBody_8]
  rfl

theorem Encoding.hint (body : BitVec 24) (len : BitVec 2) (x1 x2 x3 x4 : Word32) : Encoding.Statement (.hint body len x1 x2 x3 x4) := by
  intro h rest
  have key : ∀ l : BitVec 2, l = 0 ∨ l = 1 ∨ l = 2 ∨ l = 3 := by decide
  have hd : ∀ (w y1 y2 y3 y4 : Word32), majOf w = 0x3D → decode w y1 y2 y3 y4 = .ok (decodeHint w y1 y2 y3 y4) := by
    intro w y1 y2 y3 y4 e
    unfold decode
    rw [e]
    rfl
  have e1 := majOf_hint body len
  have e2 := lenOf_hint body len
  have e3 := bodyOf_hint body len
  unfold Instr.wf hintOk at h
  rcases key len with rfl | rfl | rfl | rfl
  · simp only [Bool.and_eq_true, beq_iff_eq, if_true] at h
    obtain ⟨⟨⟨⟨hb, rfl⟩, rfl⟩, rfl⟩, rfl⟩ := h
    refine (hd (body ++ (0x3D : BitVec 6) ++ (0 : BitVec 2)) _ _ _ _ e1).trans ?_
    unfold decodeHint
    rw [e2, e3]
    have hb' := of_decide_eq_true hb
    change Except.ok (match (body.extractLsb' 0 8 : BitVec 8).toNat with
      | 0 => Instr.nop (body.extractLsb' 8 16)
      | 1 => .lpad (body.extractLsb' 8 16)
      | _ => .hint body 0 0 0 0 0) = _
    split
    · omega
    · omega
    · rfl
  · refine (hd (body ++ (0x3D : BitVec 6) ++ (1 : BitVec 2)) _ _ _ _ e1).trans ?_
    unfold decodeHint
    rw [e2, e3]
    have h' := h
    simp at h'
    obtain ⟨rfl, rfl⟩ := h'
    rfl
  · have h' := h
    simp at h'
    obtain ⟨rfl, rfl⟩ := h'
    refine (hd (body ++ (0x3D : BitVec 6) ++ (2 : BitVec 2)) _ _ _ _ e1).trans ?_
    unfold decodeHint
    rw [e2, e3]
    rfl
  · refine (hd (body ++ (0x3D : BitVec 6) ++ (3 : BitVec 2)) _ _ _ _ e1).trans ?_
    unfold decodeHint
    rw [e2, e3]
    rfl

theorem Encoding.spawnThreadReady (core slot : Nat) : Encoding.Statement (.spawnThreadReady core slot) := fun h => nomatch h

theorem Encoding.gangForm (core slot : Nat) : Encoding.Statement (.gangForm core slot) := fun h => nomatch h

theorem Encoding.remoteAccessPerformed (op : Nat) : Encoding.Statement (.remoteAccessPerformed op) := fun h => nomatch h

theorem Encoding.remoteReply (op : Nat) : Encoding.Statement (.remoteReply op) := fun h => nomatch h

theorem Encoding.globalAccessComplete (op : Nat) : Encoding.Statement (.globalAccessComplete op) := fun h => nomatch h

theorem Encoding.parkWake (core slot : Nat) : Encoding.Statement (.parkWake core slot) := fun h => nomatch h

theorem Encoding.pressOpStart (core op : Nat) : Encoding.Statement (.pressOpStart core op) := fun h => nomatch h

theorem Encoding.pressOpComplete (core op : Nat) : Encoding.Statement (.pressOpComplete core op) := fun h => nomatch h

theorem Encoding.watermarkAccept (core : Nat) : Encoding.Statement (.watermarkAccept core) := fun h => nomatch h

theorem Encoding.watermarkComplete (core : Nat) : Encoding.Statement (.watermarkComplete core) := fun h => nomatch h

theorem Encoding.copyRegistration (op : Nat) : Encoding.Statement (.copyRegistration op) := fun h => nomatch h

theorem Encoding.copyChunk (op : Nat) : Encoding.Statement (.copyChunk op) := fun h => nomatch h

theorem Encoding.copyComplete (op : Nat) : Encoding.Statement (.copyComplete op) := fun h => nomatch h

theorem Encoding.collectiveDelivery (op : Nat) : Encoding.Statement (.collectiveDelivery op) := fun h => nomatch h

theorem Encoding.fabricRequest (src : Nat) (req : FabricReq) : Encoding.Statement (.fabricRequest src req) := fun h => nomatch h

theorem Encoding.fabricAck (op status : Nat) (data : List Byte) : Encoding.Statement (.fabricAck op status data) := fun h => nomatch h

theorem Encoding.doorbell (vd : Fin 8) (q : Fin 64) (val : Word) : Encoding.Statement (.doorbell vd q val) := fun h => nomatch h

theorem Encoding.qstatErrClear (vd : Fin 8) (q : Fin 64) : Encoding.Statement (.qstatErrClear vd q) := fun h => nomatch h

theorem Encoding.write (vd : Fin 8) (q : Fin 64) (addr : PktAddr) (data : List Word32) : Encoding.Statement (.write vd q addr data) := fun h => nomatch h

theorem Encoding.signal (vd : Fin 8) (q : Fin 64) (addr : PktAddr) (op : SignalOp) (val : Word) : Encoding.Statement (.signal vd q addr op val) := fun h => nomatch h

theorem Encoding.waitValue (vd : Fin 8) (q : Fin 64) (addr : PktAddr) (cmp : WaitCmp) (val mask : Word) : Encoding.Statement (.waitValue vd q addr cmp val mask) := fun h => nomatch h

theorem Encoding.waitValueComplete (vd : Fin 8) (q : Fin 64) : Encoding.Statement (.waitValueComplete vd q) := fun h => nomatch h

theorem Encoding.writeSignal (vd : Fin 8) (q : Fin 64) (addr saddr : PktAddr) (op : SignalOp) (val : Word) (data : List Word32) : Encoding.Statement (.writeSignal vd q addr saddr op val data) := fun h => nomatch h

theorem Encoding.indirect (vd : Fin 8) (q : Fin 64) (addr : PktAddr) (nwi : Nat) : Encoding.Statement (.indirect vd q addr nwi) := fun h => nomatch h

theorem Encoding.pull (vd : Fin 8) (q : Fin 64) (mh : Word32) (paddr : PktAddr) (table : List Word32) : Encoding.Statement (.pull vd q mh paddr table) := fun h => nomatch h

theorem Encoding.reamLoad (vd : Fin 8) (q : Fin 64) (ld : ReamLoad) : Encoding.Statement (.reamLoad vd q ld) := fun h => nomatch h

theorem Encoding.reamLoadComplete (vd : Fin 8) (id : Nat) : Encoding.Statement (.reamLoadComplete vd id) := fun h => nomatch h

theorem Encoding.selftest (vd : Fin 8) (q : Fin 64) (st : SelfTest) : Encoding.Statement (.selftest vd q st) := fun h => nomatch h

theorem Encoding.selftestComplete (vd : Fin 8) (id : Nat) : Encoding.Statement (.selftestComplete vd id) := fun h => nomatch h

theorem Encoding.timestamp (vd : Fin 8) (q : Fin 64) (addr : PktAddr) : Encoding.Statement (.timestamp vd q addr) := fun h => nomatch h

theorem Encoding.fencePacket (vd : Fin 8) (q : Fin 64) : Encoding.Statement (.fencePacket vd q) := fun h => nomatch h

theorem Encoding.fencePacketComplete (vd : Fin 8) (q : Fin 64) : Encoding.Statement (.fencePacketComplete vd q) := fun h => nomatch h

theorem Encoding.v2Packet (vd : Fin 8) (q : Fin 64) (pkt : List Word32) : Encoding.Statement (.v2Packet vd q pkt) := fun h => nomatch h

theorem Encoding.mload (vd : Fin 8) (va : Word) : Encoding.Statement (.mload vd va) := fun h => nomatch h

theorem Encoding.mfree (vd : Fin 8) (h : Nat) : Encoding.Statement (.mfree vd h) := fun h => nomatch h

theorem Encoding.pullWrite (vd : Fin 8) (h : Nat) (val : Word) : Encoding.Statement (.pullWrite vd h val) := fun h => nomatch h

theorem Encoding.nodeDispatch (vd : Fin 8) (node : Nat) : Encoding.Statement (.nodeDispatch vd node) := fun h => nomatch h

theorem Encoding.launchComplete (node : Nat) : Encoding.Statement (.launchComplete node) := fun h => nomatch h

theorem Encoding.displace (vd : Fin 8) (node : Nat) : Encoding.Statement (.displace vd node) := fun h => nomatch h

theorem Encoding.restore (node : Nat) : Encoding.Statement (.restore node) := fun h => nomatch h

theorem Encoding.restoreComplete (node core : Nat) : Encoding.Statement (.restoreComplete node core) := fun h => nomatch h

theorem Encoding.headboxRequest (vd : Fin 8) (req : HeadboxReq) : Encoding.Statement (.headboxRequest vd req) := fun h => nomatch h

theorem Encoding.headboxTokenRefill (vd : Fin 8) (entry : Fin 64) : Encoding.Statement (.headboxTokenRefill vd entry) := fun h => nomatch h

theorem Encoding.deckleFetch (stream : Nat) : Encoding.Statement (.deckleFetch stream) := fun h => nomatch h

theorem Encoding.coreArrival (core : Nat) : Encoding.Statement (.coreArrival core) := fun h => nomatch h

theorem Encoding.deckleFire (stream entry : Nat) : Encoding.Statement (.deckleFire stream entry) := fun h => nomatch h

theorem Encoding.deckleRelease (stream entry : Nat) : Encoding.Statement (.deckleRelease stream entry) := fun h => nomatch h

theorem Encoding.feltProbePass (stream : Nat) : Encoding.Statement (.feltProbePass stream) := fun h => nomatch h

theorem Encoding.idleTreeReport (stream : Nat) : Encoding.Statement (.idleTreeReport stream) := fun h => nomatch h

theorem Encoding.deadlockTrap (vd : Fin 8) : Encoding.Statement (.deadlockTrap vd) := fun h => nomatch h

theorem Encoding.calenderFrame : Encoding.Statement (.calenderFrame) := fun h => nomatch h

theorem Encoding.softRequest (vd : Fin 8) (ctx : Nat) : Encoding.Statement (.softRequest vd ctx) := fun h => nomatch h

theorem Encoding.graceExpiry (node : Nat) : Encoding.Statement (.graceExpiry node) := fun h => nomatch h

theorem Encoding.saveComplete (node : Nat) : Encoding.Statement (.saveComplete node) := fun h => nomatch h

theorem Encoding.killtExpiry (node : Nat) : Encoding.Statement (.killtExpiry node) := fun h => nomatch h

theorem Encoding.faultRecord (fr : FaultRec) : Encoding.Statement (.faultRecord fr) := fun h => nomatch h

theorem Encoding.resume (vd : Fin 8) (core : Nat) (slot : ThreadSlot) : Encoding.Statement (.resume vd core slot) := fun h => nomatch h

theorem Encoding.hold (vd : Fin 8) (core slot : Nat) : Encoding.Statement (.hold vd core slot) := fun h => nomatch h

theorem Encoding.killNode (vd : Fin 8) (node : Nat) : Encoding.Statement (.killNode vd node) := fun h => nomatch h

theorem Encoding.killContext (vd : Fin 8) (ctx : Nat) : Encoding.Statement (.killContext vd ctx) := fun h => nomatch h

theorem Encoding.resetVd (vd : Fin 8) : Encoding.Statement (.resetVd vd) := fun h => nomatch h

theorem Encoding.memberResetNotice (vd : Fin 8) (dev : Nat) : Encoding.Statement (.memberResetNotice vd dev) := fun h => nomatch h

theorem Encoding.machineCheck (ev : McEvent) : Encoding.Statement (.machineCheck ev) := fun h => nomatch h

theorem Encoding.mcStatusClear (bank : Nat) (val : Word) : Encoding.Statement (.mcStatusClear bank val) := fun h => nomatch h

theorem Encoding.patrolScrub (line : Nat) (found : Scrub) : Encoding.Statement (.patrolScrub line found) := fun h => nomatch h

theorem Encoding.form (vd : Fin 8) : Encoding.Statement (.form vd) := fun h => nomatch h

theorem Encoding.formationComplete (vd : Fin 8) : Encoding.Statement (.formationComplete vd) := fun h => nomatch h

theorem Encoding.teardown (vd : Fin 8) : Encoding.Statement (.teardown vd) := fun h => nomatch h

theorem Encoding.teardownComplete (vd : Fin 8) : Encoding.Statement (.teardownComplete vd) := fun h => nomatch h

theorem Encoding.tlbinv (vd : Fin 8) (val : Word) : Encoding.Statement (.tlbinv vd val) := fun h => nomatch h

theorem Encoding.tlbinvDone (vd : Fin 8) : Encoding.Statement (.tlbinvDone vd) := fun h => nomatch h

theorem Encoding.ddstatSample : Encoding.Statement (.ddstatSample) := fun h => nomatch h

theorem Encoding.hostBar2Access (vd : Fin 8) (ia : Word) (wr : Bool) (data : List Byte) : Encoding.Statement (.hostBar2Access vd ia wr data) := fun h => nomatch h

theorem Encoding.functionLevelReset (fn : Nat) : Encoding.Statement (.functionLevelReset fn) := fun h => nomatch h

theorem Encoding.tvedtenFrame (port : Nat) (fr : Frame) : Encoding.Statement (.tvedtenFrame port fr) := fun h => nomatch h

theorem Encoding.pauseFrame (port lane : Nat) (on : Bool) : Encoding.Statement (.pauseFrame port lane on) := fun h => nomatch h

theorem Encoding.fwstageGo (img table : List Byte) : Encoding.Statement (.fwstageGo img table) := fun h => nomatch h

theorem Encoding.firmwareCheckComplete : Encoding.Statement (.firmwareCheckComplete) := fun h => nomatch h

theorem Encoding.bringUp (failed ports : List Nat) : Encoding.Statement (.bringUp failed ports) := fun h => nomatch h

theorem Encoding.bringUpComplete : Encoding.Statement (.bringUpComplete) := fun h => nomatch h

theorem Encoding.thermalThrottle (on : Bool) : Encoding.Statement (.thermalThrottle on) := fun h => nomatch h

theorem Encoding.thermalTrip : Encoding.Statement (.thermalTrip) := fun h => nomatch h

theorem Encoding.registerWrite (fn off : Nat) (val : Word) : Encoding.Statement (.registerWrite fn off val) := fun h => nomatch h

theorem Encoding.refreshWindowEnd (core : Nat) : Encoding.Statement (.refreshWindowEnd core) := fun h => nomatch h

theorem Encoding.saving (node : Nat) : Encoding.Statement (.saving node) := fun h => nomatch h

end

end Sys2Proof.Laws
end

