-- ==== Sys2Proof/Tests/Slice0.lean ====
section
/-!
SUPPORT. Tests: words of the spec's encodings decode to their instructions, ill-formed terms are refused, single steps give what the spec's
examples say, and for every statement with hypotheses a state and operands that meet them together. The words were written from 03 R69 to R103.
-/
namespace Sys2Proof.Tests

set_option Elab.async false

open Sys2Proof.Machine

/-! ## Means -/

/-- An answer is the value. -/
def okIs {ε α : Type} [DecidableEq α] (e : Except ε α) (x : α) : Bool :=
  match e with
  | .ok y => decide (y = x)
  | .error _ => false

def errIs {ε α : Type} [DecidableEq ε] (e : Except ε α) (x : ε) : Bool :=
  match e with
  | .ok _ => false
  | .error y => decide (y = x)

theorem ok_of {ε α : Type} [DecidableEq α] {e : Except ε α} {x : α} (h : okIs e x = true) : e = .ok x := by
  cases e with
  | ok y => simp [okIs] at h; rw [h]
  | error y => simp [okIs] at h

theorem err_of {ε α : Type} [DecidableEq ε] {e : Except ε α} {x : ε} (h : errIs e x = true) : e = .error x := by
  cases e with
  | ok y => simp [errIs] at h
  | error y => simp [errIs] at h; rw [h]

/-- An answer is a next state. -/
def isNext (o : Out) : Bool :=
  match o with
  | .next _ => true
  | _ => false

theorem next_of {o : Out} (h : isNext o = true) : ∃ t, o = .next t := by
  cases o <;> simp_all [isNext]

def canonicalB (s : State) : Bool := Memory.wf s.spad && Memory.wf s.ream && Memory.wf s.dram

theorem canonical_of {s : State} (h : canonicalB s = true) : s.Canonical := by
  simp [canonicalB, and_assoc] at h; exact h

/-- Registers of the current thread set. -/
def regs (s : State) (l : List (Nat × Word)) : State := l.foldl (fun s e => s.setW e.1 e.2) s

/-- Virtual device 0 over cores 0 and 1 with 64 KiB of each Ream slice; page 0 holds the code image of node 0, page 1 data; a Ready thread at
pc 0 in slot 0 of core 0, whose word is the given one. -/
def placed (w : Nat) : State :=
  let s := State.reset.withFetchWord 32 w
  { s with
    vds := s.vds.set 0 { s.vd 0 with qlen := 2, reamk := 1 }
    nodes := [(0, { fetchNode with hHi := 1 })]
    dram := putIa (s.vd 0) s.dram 0x4008 (leBytes 8 0x603B) }

/-- That state with `add w5, w5, w6` placed, w1 = 5, w2 = 7, w3 the own scratchpad's 0x20000, w4 core 1's, w7 = 0x1000 in page 1. -/
def base : State := regs (placed 0x00614500) [(1, 5), (2, 7), (3, 0x40020000), (4, 0x60000), (7, 0x1000)]

/-- Its thread. -/
def th0 : Thread := fetchThread 0

/-- The current thread changed. -/
def withTh (f : Thread → Thread) : State := base.modCur f

/-- The same with two entries in every load-data queue and one in each store-data queue. -/
def queues : State := withTh (fun th => { th with
  lq := Vector.replicate 4 [.data 9, .data 11]
  sq := Vector.replicate 2 [13] })

def hand : State := withTh (fun th => { th with handler := true })

/-! ## Decoding -/

/-- Every row of words decodes to its instruction. -/
noncomputable def decodesAll (rows : List (List Word32 × Instr)) : Bool :=
  rows.all (fun (ws, i) => match decodeWords ws with
    | .ok j => decide (i = j)
    | .error _ => false)

theorem test_decode_integer_1 : decodesAll [
    ([0x00628500], .add 5 10 6),
    ([0x04628500], .sub 5 10 6),
    ([0x08628500], .mul 5 10 6),
    ([0x0C628500], .mulh 5 10 6),
    ([0x10628500], .mulhu 5 10 6),
    ([0x14628500], .div 5 10 6),
    ([0x18628500], .divu 5 10 6),
    ([0x1C628500], .rem 5 10 6),
    ([0x20628500], .remu 5 10 6),
    ([0x24628500], .and 5 10 6),
    ([0x28628500], .or 5 10 6),
    ([0x2C628500], .xor 5 10 6),
    ([0x30628500], .andn 5 10 6),
    ([0x34628500], .shl 5 10 6),
    ([0x38628500], .shr 5 10 6),
    ([0x3C628500], .sar 5 10 6),
    ([0x40628500], .rol 5 10 6),
    ([0x44628500], .min 5 10 6),
    ([0x48628500], .max 5 10 6),
    ([0x4C628500], .minu 5 10 6),
    ([0x50628500], .maxu 5 10 6),
    ([0x54028500], .clz 5 10),
    ([0x58028500], .ctz 5 10),
    ([0x5C028500], .cpop 5 10),
    ([0x60028500], .mov 5 10),
    ([0x64628500], .sel 5 10 6),
    ([0x68628500], .lea1 5 10 6),
    ([0x6C628500], .lea2 5 10 6),
    ([0x70628500], .lea4 5 10 6),
    ([0x74628500], .lea8 5 10 6),
    ([0x80628500], .setc .eq 5 10 6),
    ([0x84628500], .setc .ne 5 10 6),
    ([0x88628500], .setc .lt 5 10 6),
    ([0x8C628500], .setc .ge 5 10 6),
    ([0x90628500], .setc .ltu 5 10 6),
    ([0x94628500], .setc .geu 5 10 6),
    ([0x98628500], .setc .gt 5 10 6),
    ([0x9C628500], .setc .le 5 10 6),
    ([0xA0628500], .setc .gtu 5 10 6),
    ([0xA4628500], .setc .leu 5 10 6)] = true := by decide +kernel

theorem test_decode_integer_2 : decodesAll [
    ([0xA8628500], .setc .any 5 10 6),
    ([0xAC628500], .setc .none 5 10 6)] = true := by decide +kernel

theorem test_decode_immediate : decodesAll [
    ([0x8A528504], .addImm 5 10 0x8A5),
    ([0x00028505, 0x89ABCDEF, 0x01234567], .addLit 5 10 0x0123456789ABCDEF),
    ([0x8A528508], .subImm 5 10 0x8A5),
    ([0x00028509, 0x89ABCDEF, 0x01234567], .subLit 5 10 0x0123456789ABCDEF),
    ([0x8A52850C], .andImm 5 10 0x8A5),
    ([0x0002850D, 0x89ABCDEF, 0x01234567], .andLit 5 10 0x0123456789ABCDEF),
    ([0x8A528510], .orImm 5 10 0x8A5),
    ([0x00028511, 0x89ABCDEF, 0x01234567], .orLit 5 10 0x0123456789ABCDEF),
    ([0x8A528514], .xorImm 5 10 0x8A5),
    ([0x00028515, 0x89ABCDEF, 0x01234567], .xorLit 5 10 0x0123456789ABCDEF),
    ([0x8A500524], .movi 5 0x8A5),
    ([0x00000525, 0x89ABCDEF, 0x01234567], .moviLit 5 0x0123456789ABCDEF),
    ([0x02528518], .shlImm 5 10 37),
    ([0x12528518], .shrImm 5 10 37),
    ([0x22528518], .sarImm 5 10 37),
    ([0x32528518], .rolImm 5 10 37),
    ([0x44028518], .sext 5 10 64),
    ([0x50128518], .zext 5 10 1),
    ([0x8462851C], .bfx 5 10 33 6),
    ([0xE4628520], .bfi 5 10 57 6)] = true := by decide +kernel

theorem test_decode_control : decodesAll [
    ([0xFE018A28], .bc .eq 10 6 0xFE),
    ([0xFE118A28], .bc .ne 10 6 0xFE),
    ([0xFE218A28], .bc .lt 10 6 0xFE),
    ([0xFE318A28], .bc .ge 10 6 0xFE),
    ([0xFE418A28], .bc .ltu 10 6 0xFE),
    ([0xFE518A28], .bc .geu 10 6 0xFE),
    ([0xFE618A28], .bc .gt 10 6 0xFE),
    ([0xFE718A28], .bc .le 10 6 0xFE),
    ([0xFE818A28], .bc .gtu 10 6 0xFE),
    ([0xFE918A28], .bc .leu 10 6 0xFE),
    ([0xFEA18A28], .bc .any 10 6 0xFE),
    ([0xFEB18A28], .bc .none 10 6 0xFE),
    ([0x81F00A28], .loop 10 0x81),
    ([0x00818A2A, 0x80000001, 0x00000000], .b .gtu 10 6 0x80000001),
    ([0x8000012C], .j 0x800001),
    ([0x7FFFFE30], .call 0x7FFFFE),
    ([0x00028034], .ret 10),
    ([0x04628034], .jmpt 10 6),
    ([0x08000034], .yield),
    ([0x0EA6C034], .trap 0xA9B),
    ([0x10628534], .spawn 5 10 6),
    ([0x14000034], .exit),
    ([0x18028034], .gang 10),
    ([0x1C000034], .ungang),
    ([0x03300538], .rdsr 5 0x033),
    ([0x0052803C], .wrsr 10 0x005),
    ([0x000000F0], .eret),
    ([0x040000F0], .halt),
    ([0xBEEF00F4], .nop 0xBEEF),
    ([0x123401F4], .lpad 0x1234),
    ([0x001202F4], .hint 0x001202 0 0 0 0 0),
    ([0xABCDEFF7, 0x00000001, 0x00000002, 0x00000003, 0x00000004], .hint 0xABCDEF 3 1 2 3 4)] = true := by decide +kernel

theorem test_decode_scratchpad_1 : decodesAll [
    ([0x00628540], .ld .w64 5 10 6),
    ([0x03F28542, 0xFFFFF805, 0x00000000], .ldX .w64 5 10 63 0x805),
    ([0x4062A140], .ldq .w64 33 10 6),
    ([0x4062A342, 0x000007FF, 0x00000000], .ldqX .w64 35 10 6 0x7FF),
    ([0x04628540], .ld .s32 5 10 6),
    ([0x07F28542, 0xFFFFF805, 0x00000000], .ldX .s32 5 10 63 0x805),
    ([0x4462A140], .ldq .s32 33 10 6),
    ([0x4462A342, 0x000007FF, 0x00000000], .ldqX .s32 35 10 6 0x7FF),
    ([0x08628540], .ld .s16 5 10 6),
    ([0x0BF28542, 0xFFFFF805, 0x00000000], .ldX .s16 5 10 63 0x805),
    ([0x4862A140], .ldq .s16 33 10 6),
    ([0x4862A342, 0x000007FF, 0x00000000], .ldqX .s16 35 10 6 0x7FF),
    ([0x0C628540], .ld .s8 5 10 6),
    ([0x0FF28542, 0xFFFFF805, 0x00000000], .ldX .s8 5 10 63 0x805),
    ([0x4C62A140], .ldq .s8 33 10 6),
    ([0x4C62A342, 0x000007FF, 0x00000000], .ldqX .s8 35 10 6 0x7FF),
    ([0x10628540], .ld .z32 5 10 6),
    ([0x13F28542, 0xFFFFF805, 0x00000000], .ldX .z32 5 10 63 0x805),
    ([0x5062A140], .ldq .z32 33 10 6),
    ([0x5062A342, 0x000007FF, 0x00000000], .ldqX .z32 35 10 6 0x7FF),
    ([0x14628540], .ld .z16 5 10 6),
    ([0x17F28542, 0xFFFFF805, 0x00000000], .ldX .z16 5 10 63 0x805),
    ([0x5462A140], .ldq .z16 33 10 6),
    ([0x5462A342, 0x000007FF, 0x00000000], .ldqX .z16 35 10 6 0x7FF),
    ([0x18628540], .ld .z8 5 10 6),
    ([0x1BF28542, 0xFFFFF805, 0x00000000], .ldX .z8 5 10 63 0x805),
    ([0x5862A140], .ldq .z8 33 10 6),
    ([0x5862A342, 0x000007FF, 0x00000000], .ldqX .z8 35 10 6 0x7FF),
    ([0x20628540], .st .w64 5 10 6),
    ([0x20628542, 0xFFFFF805, 0x00000000], .stX .w64 5 10 6 0x805),
    ([0x6062A840], .stq .w64 40 10 6),
    ([0x6062A942, 0xFFFFF805, 0x00000000], .stqX .w64 41 10 6 0x805),
    ([0x24628540], .st .w32 5 10 6),
    ([0x24628542, 0xFFFFF805, 0x00000000], .stX .w32 5 10 6 0x805),
    ([0x6462A840], .stq .w32 40 10 6),
    ([0x6462A942, 0xFFFFF805, 0x00000000], .stqX .w32 41 10 6 0x805),
    ([0x28628540], .st .w16 5 10 6),
    ([0x28628542, 0xFFFFF805, 0x00000000], .stX .w16 5 10 6 0x805),
    ([0x6862A840], .stq .w16 40 10 6),
    ([0x6862A942, 0xFFFFF805, 0x00000000], .stqX .w16 41 10 6 0x805)] = true := by decide +kernel

theorem test_decode_scratchpad_2 : decodesAll [
    ([0x2C628540], .st .w8 5 10 6),
    ([0x2C628542, 0xFFFFF805, 0x00000000], .stX .w8 5 10 6 0x805),
    ([0x6C62A840], .stq .w8 40 10 6),
    ([0x6C62A942, 0xFFFFF805, 0x00000000], .stqX .w8 41 10 6 0x805),
    ([0x80528544], .ldImm 5 10 0x805),
    ([0x80528548], .stImm 5 10 0x805),
    ([0x80628540], .vld 5 10 6),
    ([0x80628542, 0xFFFFF805, 0x0000000F], .vldX 5 10 6 0x805 true 7),
    ([0x84628540], .vst 5 10 6),
    ([0x84628542, 0xFFFFF805, 0x0000000B], .vstX 5 10 6 0x805 true 3),
    ([0x88628540], .ldw 5 10 6),
    ([0x88628542, 0xFFFFF805, 0x00000000], .ldwX 5 10 6 0x805)] = true := by decide +kernel

theorem test_decode_global : decodesAll [
    ([0x00628554], .ldg .w64 5 10 6),
    ([0x00628556, 0xFFFFF805, 0x00000150], .ldgX .w64 5 10 6 0x805 ⟨.acquire, .system⟩),
    ([0x04628554], .ldg .s32 5 10 6),
    ([0x04628556, 0xFFFFF805, 0x00000150], .ldgX .s32 5 10 6 0x805 ⟨.acquire, .system⟩),
    ([0x08628554], .ldg .s16 5 10 6),
    ([0x08628556, 0xFFFFF805, 0x00000150], .ldgX .s16 5 10 6 0x805 ⟨.acquire, .system⟩),
    ([0x0C628554], .ldg .s8 5 10 6),
    ([0x0C628556, 0xFFFFF805, 0x00000150], .ldgX .s8 5 10 6 0x805 ⟨.acquire, .system⟩),
    ([0x10628554], .ldg .z32 5 10 6),
    ([0x10628556, 0xFFFFF805, 0x00000150], .ldgX .z32 5 10 6 0x805 ⟨.acquire, .system⟩),
    ([0x14628554], .ldg .z16 5 10 6),
    ([0x14628556, 0xFFFFF805, 0x00000150], .ldgX .z16 5 10 6 0x805 ⟨.acquire, .system⟩),
    ([0x18628554], .ldg .z8 5 10 6),
    ([0x18628556, 0xFFFFF805, 0x00000150], .ldgX .z8 5 10 6 0x805 ⟨.acquire, .system⟩),
    ([0x20628554], .stg .w64 5 10 6),
    ([0x20628556, 0xFFFFF805, 0x000000A0], .stgX .w64 5 10 6 0x805 ⟨.release, .group⟩),
    ([0x24628554], .stg .w32 5 10 6),
    ([0x24628556, 0xFFFFF805, 0x000000A0], .stgX .w32 5 10 6 0x805 ⟨.release, .group⟩),
    ([0x28628554], .stg .w16 5 10 6),
    ([0x28628556, 0xFFFFF805, 0x000000A0], .stgX .w16 5 10 6 0x805 ⟨.release, .group⟩),
    ([0x2C628554], .stg .w8 5 10 6),
    ([0x2C628556, 0xFFFFF805, 0x000000A0], .stgX .w8 5 10 6 0x805 ⟨.release, .group⟩),
    ([0x8052854C], .ldgImm 5 10 0x805),
    ([0x80528550], .stgImm 5 10 0x805),
    ([0x40628554], .vldg 5 10 6),
    ([0x40628556, 0xFFFFF805, 0x0000011D], .vldgX 5 10 6 0x805 ⟨.acquire, .device⟩ true 5),
    ([0x44628554], .vstg 5 10 6),
    ([0x44628556, 0xFFFFF805, 0x000000EE], .vstgX 5 10 6 0x805 ⟨.release, .quire⟩ true 6),
    ([0x48628054], .pref 10 6),
    ([0x48628056, 0xFFFFF805, 0x00000000], .prefX 10 6 0x805),
    ([0x4C628054], .flsh 10 6),
    ([0x4C628056, 0xFFFFF805, 0x00000000], .flshX 10 6 0x805)] = true := by decide +kernel

theorem test_decode_atomic : decodesAll [
    ([0x60628554], .amadd 5 10 6),
    ([0x60628556, 0xFFFFF805, 0x00000070], .amaddX 5 10 6 0x805 ⟨.acqrel, .core⟩),
    ([0xA0628554], .amadd32 5 10 6),
    ([0xA0628556, 0xFFFFF805, 0x00000070], .amadd32X 5 10 6 0x805 ⟨.acqrel, .core⟩),
    ([0x64628554], .amswp 5 10 6),
    ([0x64628556, 0xFFFFF805, 0x00000070], .amswpX 5 10 6 0x805 ⟨.acqrel, .core⟩),
    ([0xA4628554], .amswp32 5 10 6),
    ([0xA4628556, 0xFFFFF805, 0x00000070], .amswp32X 5 10 6 0x805 ⟨.acqrel, .core⟩),
    ([0x68628554], .amcas 5 10 6),
    ([0x68628556, 0xFFFFF805, 0x00000070], .amcasX 5 10 6 0x805 ⟨.acqrel, .core⟩),
    ([0xA8628554], .amcas32 5 10 6),
    ([0xA8628556, 0xFFFFF805, 0x00000070], .amcas32X 5 10 6 0x805 ⟨.acqrel, .core⟩),
    ([0x6C628554], .ammin 5 10 6),
    ([0x6C628556, 0xFFFFF805, 0x00000070], .amminX 5 10 6 0x805 ⟨.acqrel, .core⟩),
    ([0xAC628554], .ammin32 5 10 6),
    ([0xAC628556, 0xFFFFF805, 0x00000070], .ammin32X 5 10 6 0x805 ⟨.acqrel, .core⟩),
    ([0x70628554], .ammax 5 10 6),
    ([0x70628556, 0xFFFFF805, 0x00000070], .ammaxX 5 10 6 0x805 ⟨.acqrel, .core⟩),
    ([0xB0628554], .ammax32 5 10 6),
    ([0xB0628556, 0xFFFFF805, 0x00000070], .ammax32X 5 10 6 0x805 ⟨.acqrel, .core⟩),
    ([0x74628554], .amminu 5 10 6),
    ([0x74628556, 0xFFFFF805, 0x00000070], .amminuX 5 10 6 0x805 ⟨.acqrel, .core⟩),
    ([0xB4628554], .amminu32 5 10 6),
    ([0xB4628556, 0xFFFFF805, 0x00000070], .amminu32X 5 10 6 0x805 ⟨.acqrel, .core⟩),
    ([0x78628554], .ammaxu 5 10 6),
    ([0x78628556, 0xFFFFF805, 0x00000070], .ammaxuX 5 10 6 0x805 ⟨.acqrel, .core⟩),
    ([0xB8628554], .ammaxu32 5 10 6),
    ([0xB8628556, 0xFFFFF805, 0x00000070], .ammaxu32X 5 10 6 0x805 ⟨.acqrel, .core⟩),
    ([0x7C628554], .amand 5 10 6),
    ([0x7C628556, 0xFFFFF805, 0x00000070], .amandX 5 10 6 0x805 ⟨.acqrel, .core⟩),
    ([0xBC628554], .amand32 5 10 6),
    ([0xBC628556, 0xFFFFF805, 0x00000070], .amand32X 5 10 6 0x805 ⟨.acqrel, .core⟩),
    ([0x80628554], .amor 5 10 6),
    ([0x80628556, 0xFFFFF805, 0x00000070], .amorX 5 10 6 0x805 ⟨.acqrel, .core⟩),
    ([0xC0628554], .amor32 5 10 6),
    ([0xC0628556, 0xFFFFF805, 0x00000070], .amor32X 5 10 6 0x805 ⟨.acqrel, .core⟩),
    ([0x84628554], .amxor 5 10 6),
    ([0x84628556, 0xFFFFF805, 0x00000070], .amxorX 5 10 6 0x805 ⟨.acqrel, .core⟩),
    ([0xC4628554], .amxor32 5 10 6),
    ([0xC4628556, 0xFFFFF805, 0x00000070], .amxor32X 5 10 6 0x805 ⟨.acqrel, .core⟩)] = true := by decide +kernel

theorem test_decode_sync : decodesAll [
    ([0x000A8058], .fence .thread 0x2A),
    ([0x000A8158], .fence .core 0x2A),
    ([0x000A8258], .fence .group 0x2A),
    ([0x000A8358], .fence .quire 0x2A),
    ([0x000A8458], .fence .device 0x2A),
    ([0x000A8558], .fence .system 0x2A),
    ([0x04628058], .park 10 6),
    ([0x08000058], .wait),
    ([0x0C628058], .cpy 10 6),
    ([0x10028058], .exch 10),
    ([0xB3E2235C], .waitc 3 17 120 9 5),
    ([0x00028562, 0x0000B0A5, 0x00000000], .ared 5 10 11 .wrap 0xA5),
    ([0x04028562, 0x0000B0A5, 0x00000000], .rsct 5 10 11 .wrap 0xA5),
    ([0x00028562, 0x000041A5, 0x00000000], .ared 5 10 4 .sat 0xA5),
    ([0x04028562, 0x000041A5, 0x00000000], .rsct 5 10 4 .sat 0xA5),
    ([0x00028562, 0x0000B2A5, 0x00000000], .ared 5 10 11 .comp 0xA5),
    ([0x04028562, 0x0000B2A5, 0x00000000], .rsct 5 10 11 .comp 0xA5),
    ([0x00028562, 0x000093A5, 0x00000000], .ared 5 10 9 .maxi 0xA5),
    ([0x04028562, 0x000093A5, 0x00000000], .rsct 5 10 9 .maxi 0xA5),
    ([0x00028562, 0x000094A5, 0x00000000], .ared 5 10 9 .mini 0xA5),
    ([0x04028562, 0x000094A5, 0x00000000], .rsct 5 10 9 .mini 0xA5),
    ([0x00028562, 0x0000D5A5, 0x00000000], .ared 5 10 13 .max 0xA5),
    ([0x04028562, 0x0000D5A5, 0x00000000], .rsct 5 10 13 .max 0xA5),
    ([0x00028562, 0x000056A5, 0x00000000], .ared 5 10 5 .min 0xA5),
    ([0x04028562, 0x000056A5, 0x00000000], .rsct 5 10 5 .min 0xA5),
    ([0x08028562, 0x0000E0A5, 0x00000000], .agth 5 10 14 0xA5),
    ([0x0C028562, 0x000020A5, 0x00000000], .atoa 5 10 2 0xA5),
    ([0x10028562, 0x000030A5, 0x00000FED], .bcst 5 10 3 0xA5 0xFED),
    ([0x14028562, 0x000000A5, 0x00000FED], .ored 5 10 0xA5 0xFED),
    ([0x00628566, 0x0000002A, 0x00000000], .puts 5 10 6 42),
    ([0x04628066, 0x0000002A, 0x00000000], .get 10 6 42),
    ([0x08628066, 0x0000002A, 0x00000000], .radd 10 6 42),
    ([0x0C628566, 0x0000002A, 0x00000000], .apnd 5 10 6 42)] = true := by decide +kernel

theorem test_decode_float : decodesAll [
    ([0x00628580], .fadd 5 10 6),
    ([0x00628582, 0x00003000, 0x00000000], .faddX 5 10 6 12),
    ([0x04628580], .fsub 5 10 6),
    ([0x04628582, 0x00003400, 0x00000000], .fsubX 5 10 6 13),
    ([0x08628580], .fmul 5 10 6),
    ([0x08628582, 0x00002C00, 0x00000000], .fmulX 5 10 6 11),
    ([0x10628580], .fdiv 5 10 6),
    ([0x10628582, 0x00003000, 0x00000000], .fdivX 5 10 6 12),
    ([0x18628580], .fmin 5 10 6),
    ([0x18628582, 0x00003800, 0x00000000], .fminX 5 10 6 14),
    ([0x1C628580], .fmax 5 10 6),
    ([0x1C628582, 0x00004000, 0x00000000], .fmaxX 5 10 6 16),
    ([0x0C628582, 0x0000342A, 0x00000000], .ffma 5 10 6 42 13),
    ([0x14028580], .fsqrt 5 10),
    ([0x14028582, 0x00003000, 0x00000000], .fsqrtX 5 10 12),
    ([0x20628580], .fcmp .eq 5 10 6),
    ([0x20628582, 0x00003C00, 0x00000000], .fcmpX .eq 5 10 6 15),
    ([0x24628580], .fcmp .lt 5 10 6),
    ([0x24628582, 0x00003C00, 0x00000000], .fcmpX .lt 5 10 6 15),
    ([0x28628580], .fcmp .le 5 10 6),
    ([0x28628582, 0x00003C00, 0x00000000], .fcmpX .le 5 10 6 15),
    ([0x2C628580], .fcmp .un 5 10 6),
    ([0x2C628582, 0x00003C00, 0x00000000], .fcmpX .un 5 10 6 15),
    ([0x30028582, 0x00002C00, 0x00000011], .fcvt 5 10 11 17),
    ([0x34028580], .fcls 5 10),
    ([0x34028582, 0x00004000, 0x00000000], .fclsX 5 10 16)] = true := by decide +kernel

theorem test_decode_vector_1 : decodesAll [
    ([0x00628584], .vadd 5 10 6),
    ([0x00628586, 0x00004340, 0x00000000], .vaddX 5 10 6 ⟨16, true, 5⟩),
    ([0x03F28587, 0x00004340, 0x00000000, 0x89ABCDEF, 0x01234567], .vaddLit 5 10 0x0123456789ABCDEF ⟨16, true, 5⟩),
    ([0x04628584], .vsub 5 10 6),
    ([0x04628586, 0x00004340, 0x00000000], .vsubX 5 10 6 ⟨16, true, 5⟩),
    ([0x07F28587, 0x00004340, 0x00000000, 0x89ABCDEF, 0x01234567], .vsubLit 5 10 0x0123456789ABCDEF ⟨16, true, 5⟩),
    ([0x08628584], .vmul 5 10 6),
    ([0x08628586, 0x00004340, 0x00000000], .vmulX 5 10 6 ⟨16, true, 5⟩),
    ([0x0BF28587, 0x00004340, 0x00000000, 0x89ABCDEF, 0x01234567], .vmulLit 5 10 0x0123456789ABCDEF ⟨16, true, 5⟩),
    ([0x10628584], .vmin 5 10 6),
    ([0x10628586, 0x00004340, 0x00000000], .vminX 5 10 6 ⟨16, true, 5⟩),
    ([0x13F28587, 0x00004340, 0x00000000, 0x89ABCDEF, 0x01234567], .vminLit 5 10 0x0123456789ABCDEF ⟨16, true, 5⟩),
    ([0x14628584], .vmax 5 10 6),
    ([0x14628586, 0x00004340, 0x00000000], .vmaxX 5 10 6 ⟨16, true, 5⟩),
    ([0x17F28587, 0x00004340, 0x00000000, 0x89ABCDEF, 0x01234567], .vmaxLit 5 10 0x0123456789ABCDEF ⟨16, true, 5⟩),
    ([0x18028584], .vabs 5 10),
    ([0x18028586, 0x00000740, 0x00000000], .vabsX 5 10 ⟨1, true, 5⟩),
    ([0x1C028584], .vneg 5 10),
    ([0x1C028586, 0x00000740, 0x00000000], .vnegX 5 10 ⟨1, true, 5⟩),
    ([0x20628584], .vand 5 10 6),
    ([0x20628586, 0x00000340, 0x00000000], .vandX 5 10 6 ⟨0, true, 5⟩),
    ([0x23F28587, 0x00000340, 0x00000000, 0x89ABCDEF, 0x01234567], .vandLit 5 10 0x0123456789ABCDEF ⟨0, true, 5⟩),
    ([0x24628584], .vor 5 10 6),
    ([0x24628586, 0x00000340, 0x00000000], .vorX 5 10 6 ⟨0, true, 5⟩),
    ([0x27F28587, 0x00000340, 0x00000000, 0x89ABCDEF, 0x01234567], .vorLit 5 10 0x0123456789ABCDEF ⟨0, true, 5⟩),
    ([0x28628584], .vxor 5 10 6),
    ([0x28628586, 0x00000340, 0x00000000], .vxorX 5 10 6 ⟨0, true, 5⟩),
    ([0x2BF28587, 0x00000340, 0x00000000, 0x89ABCDEF, 0x01234567], .vxorLit 5 10 0x0123456789ABCDEF ⟨0, true, 5⟩),
    ([0x2C628584], .vshl 5 10 6),
    ([0x2C628586, 0x00002B40, 0x00000000], .vshlX 5 10 6 ⟨10, true, 5⟩),
    ([0x2FF28587, 0x00002B40, 0x00000000, 0x89ABCDEF, 0x01234567], .vshlLit 5 10 0x0123456789ABCDEF ⟨10, true, 5⟩),
    ([0x30628584], .vshr 5 10 6),
    ([0x30628586, 0x00002B40, 0x00000000], .vshrX 5 10 6 ⟨10, true, 5⟩),
    ([0x33F28587, 0x00002B40, 0x00000000, 0x89ABCDEF, 0x01234567], .vshrLit 5 10 0x0123456789ABCDEF ⟨10, true, 5⟩),
    ([0x34628584], .vsar 5 10 6),
    ([0x34628586, 0x00002B40, 0x00000000], .vsarX 5 10 6 ⟨10, true, 5⟩),
    ([0x37F28587, 0x00002B40, 0x00000000, 0x89ABCDEF, 0x01234567], .vsarLit 5 10 0x0123456789ABCDEF ⟨10, true, 5⟩),
    ([0x38628584], .vscl 5 10 6),
    ([0x38628586, 0x00000F40, 0x00000000], .vsclX 5 10 6 ⟨3, true, 5⟩),
    ([0x3BF28587, 0x00000F40, 0x00000000, 0x89ABCDEF, 0x01234567], .vsclLit 5 10 0x0123456789ABCDEF ⟨3, true, 5⟩)] = true := by decide +kernel

theorem test_decode_vector_2 : decodesAll [
    ([0x3C028584], .vrcp 5 10),
    ([0x3C028586, 0x00003340, 0x00000000], .vrcpX 5 10 ⟨12, true, 5⟩),
    ([0x40028584], .vrsq 5 10),
    ([0x40028586, 0x00003340, 0x00000000], .vrsqX 5 10 ⟨12, true, 5⟩),
    ([0x44028584], .vex2 5 10),
    ([0x44028586, 0x00003340, 0x00000000], .vex2X 5 10 ⟨12, true, 5⟩),
    ([0x48028584], .vlg2 5 10),
    ([0x48028586, 0x00003340, 0x00000000], .vlg2X 5 10 ⟨12, true, 5⟩),
    ([0x0C628586, 0x0000336A, 0x00000000], .vfma 5 10 6 42 ⟨12, true, 5⟩),
    ([0x0FF28587, 0x0000336A, 0x00000000, 0x89ABCDEF, 0x01234567], .vfmaLit 5 10 0x0123456789ABCDEF 42 ⟨12, true, 5⟩),
    ([0x4C028586, 0x00003340, 0x00000010], .vcvt 5 10 ⟨12, true, 5⟩ 16)] = true := by decide +kernel

theorem test_decode_vectorMoves_1 : decodesAll [
    ([0x00628588], .vcmp .eq 5 10 6),
    ([0x0062858A, 0x00003F40, 0x00000000], .vcmpX .eq 5 10 6 ⟨15, true, 5⟩),
    ([0x03F2858B, 0x00003F40, 0x00000000, 0x89ABCDEF, 0x01234567], .vcmpLit .eq 5 10 0x0123456789ABCDEF ⟨15, true, 5⟩),
    ([0x04628588], .vcmp .ne 5 10 6),
    ([0x0462858A, 0x00003F40, 0x00000000], .vcmpX .ne 5 10 6 ⟨15, true, 5⟩),
    ([0x07F2858B, 0x00003F40, 0x00000000, 0x89ABCDEF, 0x01234567], .vcmpLit .ne 5 10 0x0123456789ABCDEF ⟨15, true, 5⟩),
    ([0x08628588], .vcmp .lt 5 10 6),
    ([0x0862858A, 0x00003F40, 0x00000000], .vcmpX .lt 5 10 6 ⟨15, true, 5⟩),
    ([0x0BF2858B, 0x00003F40, 0x00000000, 0x89ABCDEF, 0x01234567], .vcmpLit .lt 5 10 0x0123456789ABCDEF ⟨15, true, 5⟩),
    ([0x0C628588], .vcmp .le 5 10 6),
    ([0x0C62858A, 0x00003F40, 0x00000000], .vcmpX .le 5 10 6 ⟨15, true, 5⟩),
    ([0x0FF2858B, 0x00003F40, 0x00000000, 0x89ABCDEF, 0x01234567], .vcmpLit .le 5 10 0x0123456789ABCDEF ⟨15, true, 5⟩),
    ([0x10628588], .vcmp .un 5 10 6),
    ([0x1062858A, 0x00003F40, 0x00000000], .vcmpX .un 5 10 6 ⟨15, true, 5⟩),
    ([0x13F2858B, 0x00003F40, 0x00000000, 0x89ABCDEF, 0x01234567], .vcmpLit .un 5 10 0x0123456789ABCDEF ⟨15, true, 5⟩),
    ([0x2062858A, 0x00003340, 0x00000000], .vsel 5 10 6 ⟨12, true, 5⟩),
    ([0x23F2858B, 0x00003340, 0x00000000, 0x89ABCDEF, 0x01234567], .vselLit 5 10 0x0123456789ABCDEF ⟨12, true, 5⟩),
    ([0x2461C588], .mand 5 7 6),
    ([0x2861C588], .mor 5 7 6),
    ([0x2C01C588], .mnot 5 7),
    ([0x0002858C], .vred 5 10),
    ([0x0002858E, 0x00004340, 0x00000000], .vredX 5 10 ⟨16, true, 5⟩),
    ([0x0402858C], .vredSat 5 10),
    ([0x0402858E, 0x00002B40, 0x00000000], .vredSatX 5 10 ⟨10, true, 5⟩),
    ([0x0802858C], .vrmx 5 10),
    ([0x0802858E, 0x00000740, 0x00000000], .vrmxX 5 10 ⟨1, true, 5⟩),
    ([0x0C02858C], .vrmn 5 10),
    ([0x0C02858E, 0x00004340, 0x00000000], .vrmnX 5 10 ⟨16, true, 5⟩),
    ([0x00628590], .vprm 5 10 6),
    ([0x00628592, 0x00003F40, 0x00000000], .vprmX 5 10 6 ⟨15, true, 5⟩),
    ([0x03F28593, 0x00003F40, 0x00000000, 0x89ABCDEF, 0x01234567], .vprmLit 5 10 0x0123456789ABCDEF ⟨15, true, 5⟩),
    ([0x04028590], .vbrd 5 10),
    ([0x04028592, 0x00004340, 0x00000000], .vbrdX 5 10 ⟨16, true, 5⟩),
    ([0x08000590], .viot 5),
    ([0x08000592, 0x00003340, 0x00000000], .viotX 5 ⟨12, true, 5⟩),
    ([0x0C628592, 0x00002F40, 0x0000000C], .vpck 5 10 6 ⟨11, true, 5⟩ 12),
    ([0x10628592, 0x00003B40, 0x0000000D], .vupk 5 10 6 ⟨14, true, 5⟩ 13),
    ([0x14028590], .vmv 5 10),
    ([0x14028592, 0x00000280, 0x00000000], .vmvX 5 10 ⟨0, true, 2⟩),
    ([0x18628590], .vins 5 10 6)] = true := by decide +kernel

theorem test_decode_vectorMoves_2 : decodesAll [
    ([0x18628592, 0x00004000, 0x00000000], .vinsX 5 10 6 16),
    ([0x1C628590], .vext 5 10 6),
    ([0x1C628592, 0x00000400, 0x00000000], .vextX 5 10 6 1)] = true := by decide +kernel

theorem test_decode_press : decodesAll [
    ([0x000285C0], .pshp 5 10),
    ([0x140005C0], .pz 5),
    ([0x040000C2, 0x001C0B5E, 0x00000000], .pmm 6 3 5 true false true false 14),
    ([0x040000C2, 0x00041511, 0x00000000], .pmm 1 2 4 false true false true 2),
    ([0x080000C2, 0x000F755E, 0x00000000], .pmmg 6 3 5 11 false true false true 7),
    ([0x0C0000C2, 0x0024001E, 0x00000000], .plda 6 3 18),
    ([0x100000C2, 0x0014081E, 0x00000000], .psta 6 3 true 10),
    ([0x180000C2, 0x00240006, 0x00000000], .pcvt 6 18),
    ([0x006285E0], .wmcf 5 10 6),
    ([0x086280E0], .wmst 10 6),
    ([0x106280E0], .wmjn 10 6),
    ([0x146280E0], .wmlg 10 6),
    ([0x040000E0], .wmz),
    ([0x0C0280E0], .wmsn 10),
    ([0x180285E0], .wmrd 5 10)] = true := by decide +kernel
/-- No row of words decodes. -/
noncomputable def refusesAll (rows : List (List Word32)) : Bool :=
  rows.all (fun ws => match decodeWords ws with
    | .ok _ => false
    | .error _ => true)

/-- Reserved encodings: an unassigned major, a LEN that a major lacks, unassigned minors, reserved fields, and field values out of range. -/
theorem test_decode_reserved : refusesAll [
    [0x00000068], [0x000000FC], [0x00000001, 0, 0], [0x78000000], [0xB0000000], [0x6100A500 + 0x00100000], [0x60028118], [0x49008118], [0x44108118],
    [0x40008118], [0xFC1081DC + 0x02000000], [0x00C18128], [0x20000034], [0x1C028540], [0x0AF2855A, 0x00000800, 0], [0x0062A542, 0x805, 0],
    [0x0062A542, 0, 0x10], [0x0062A556, 0, 0x20], [0x0062A556, 0, 0x40], [0x14000058], [0x00000660], [0x01E4005C], [0x00028562, 0x00007000, 0],
    [0x00028582, 0x00004800, 0], [0x50028584], [0x00628586, 0x00000040, 0], [0x00628587, 0, 0, 0, 0], [0x20628588], [0x1C0000C0],
    [0x1C0000E0], [0x080000F0], [0x00000000 + 0x78000000]] = true := by decide +kernel

/-- Ill-formed terms, one for each check of WellFormed. -/
theorem test_wf_refuses : ([
    .sext 1 2 0, .sext 1 2 65, .zext 1 2 0, .bfx 1 2 60 4, .bfi 1 2 63 1, .vldX 1 2 3 0 false 1, .vstX 1 2 3 0 false 7,
    .ldgX .w64 1 2 3 0 ⟨.release, .system⟩, .ldgX .w64 1 2 3 0 ⟨.plain, .core⟩, .stgX .w64 1 2 3 0 ⟨.acquire, .system⟩,
    .vldgX 1 2 3 0 ⟨.acqrel, .system⟩ true 0, .vldgX 1 2 3 0 ⟨.plain, .thread⟩ false 1, .vstgX 1 2 3 0 ⟨.acquire, .core⟩ true 0,
    .amaddX 1 2 3 0 ⟨.plain, .group⟩, .amxor32X 1 2 3 0 ⟨.plain, .device⟩, .waitc 0 0 121 0 0, .waitc 0 0 126 0 0, .ared 1 2 12 .wrap 0,
    .rsct 1 2 11 .sat 0, .agth 1 2 1 0, .atoa 1 2 16 0, .bcst 1 2 6 0 0, .faddX 1 2 3 14, .ffma 1 2 3 4 10, .fsqrtX 1 2 16, .fminX 1 2 3 10,
    .fcmpX .eq 1 2 3 17, .fcvt 1 2 0 0, .fcvt 1 2 12 17, .fclsX 1 2 5, .vaddX 1 2 3 ⟨17, true, 0⟩, .vaddX 1 2 3 ⟨1, false, 1⟩,
    .vaddLit 1 2 0 ⟨31, true, 0⟩, .vfma 1 2 3 4 ⟨17, true, 0⟩, .vandX 1 2 3 ⟨1, true, 0⟩, .vshlX 1 2 3 ⟨11, true, 0⟩, .vrcpX 1 2 ⟨14, true, 0⟩,
    .vcvt 1 2 ⟨11, true, 0⟩ 17, .vcmpX .eq 1 2 3 ⟨6, true, 0⟩, .vsel 1 2 3 ⟨11, false, 0⟩, .vselLit 1 2 0 ⟨18, true, 0⟩,
    .vredSatX 1 2 ⟨11, true, 0⟩, .vprmX 1 2 3 ⟨1, true, 0⟩, .vpck 1 2 3 ⟨11, true, 0⟩ 14, .vupk 1 2 3 ⟨14, true, 0⟩ 11, .vmvX 1 2 ⟨11, true, 0⟩,
    .vinsX 1 2 3 17, .vextX 1 2 3 18, .pmm 0 0 0 false false false false 3, .pmmg 0 0 0 0 false false false false 18, .plda 0 0 17,
    .psta 0 0 false 19, .pcvt 0 12, .hint 0x000001 0 0 0 0 0, .hint 2 0 1 0 0 0, .hint 2 1 1 2 3 0, .ddstatSample] : List Instr).all
    (fun i => !i.wf) = true := by decide +kernel

/-! ## Witnesses: encoding, fetching, stepping -/

theorem witness_DecodeReadsBackEncode : (Instr.bfx 1 2 57 6).wf = true := by decide +kernel

theorem witness_DecodedInstructionsAreWellFormed : decode 0x00614500 0 0 0 0 = .ok (.add 5 5 6) := ok_of (by decide +kernel)

theorem witness_FetchReadsTheInstructionAtThePc : (Instr.add 5 5 6).wf = true ∧ th0.pc.toNat % 4 = 0 ∧
    (∀ k w, (encode (.add 5 5 6))[k]? = some w → base.fetchWord th0 (th0.pc + BitVec.ofNat 64 (4 * k)) = .ok w) := by
  refine ⟨by decide +kernel, by decide +kernel, fun k w h => ?_⟩
  have e : encode (.add 5 5 6) = [0x00614500] := by decide +kernel
  rw [e] at h
  match k with
  | 0 => simp at h; subst h; exact ok_of (by decide +kernel)
  | k + 1 => simp at h

theorem witness_StepRunsTheDecodedInstruction_thread : base.dueStep = none ∧ base.devSt ≠ .stopped ∧ base.candidates = [(0, 0)] ∧
    base.thread 0 0 = some th0 ∧ th0.run = .ready ∧ th0.gang = .none ∧ (base.steered 0 0).fetch th0 = .ok (.add 5 5 6) := by
  and_intros <;> first | decide +kernel | exact ok_of (by decide +kernel)

theorem witness_StepRunsTheDecodedInstruction_step : ∃ s : State, s.agenda = [(0, .ddstatSample)] ∧ 0 ≤ s.clk ∧ s.devSt ≠ .stopped :=
  ⟨{ base with agenda := [(0, .ddstatSample)] }, by decide +kernel⟩

/-- The DRAM line of the code image's first bytes. -/
def codeLine : Nat := ((base.vd 0).iaKey 0x5000).getD 0 / 128

/-- The fetches that fail: an unassigned major, outside the image, a misaligned pc, no page, a page without X, a poisoned line. -/
theorem witness_StepRunsTheDecodedInstruction_fetch : ∀ e ∈ [(1, placed 0x68, th0), (4, base, { th0 with pc := 0x1000 }),
    (5, base, { th0 with pc := 2 }), (6, { base with dram := [] }, th0),
    (7, { base with dram := putIa (base.vd 0) base.dram 0x4000 (leBytes 8 0x501B) }, th0), (8, { base with poisonD := [codeLine] }, th0)],
    (e.2.1.setThread 0 0 e.2.2).dueStep = none ∧ e.2.1.devSt ≠ .stopped ∧ (e.2.1.setThread 0 0 e.2.2).candidates = [(0, 0)] ∧
      (e.2.1.setThread 0 0 e.2.2).thread 0 0 = some e.2.2 ∧ e.2.2.run = .ready ∧ e.2.2.gang = .none ∧
      ((e.2.1.setThread 0 0 e.2.2).steered 0 0).fetch e.2.2 = .error e.1 := by
  have h : ∀ e ∈ [(1, placed 0x68, th0), (4, base, { th0 with pc := 0x1000 }),
      (5, base, { th0 with pc := 2 }), (6, { base with dram := [] }, th0),
      (7, { base with dram := putIa (base.vd 0) base.dram 0x4000 (leBytes 8 0x501B) }, th0), (8, { base with poisonD := [codeLine] }, th0)],
      (e.2.1.setThread 0 0 e.2.2).dueStep = none ∧ e.2.1.devSt ≠ .stopped ∧ (e.2.1.setThread 0 0 e.2.2).candidates = [(0, 0)] ∧
      (e.2.1.setThread 0 0 e.2.2).thread 0 0 = some e.2.2 ∧ e.2.2.run = .ready ∧ e.2.2.gang = .none ∧
      errIs (((e.2.1.setThread 0 0 e.2.2).steered 0 0).fetch e.2.2) e.1 = true := by decide +kernel
  exact fun e he => ⟨(h e he).1, (h e he).2.1, (h e he).2.2.1, (h e he).2.2.2.1, (h e he).2.2.2.2.1, (h e he).2.2.2.2.2.1,
    err_of (h e he).2.2.2.2.2.2⟩

theorem witness_EveryStepHasANextState : base.DeviceAgenda := by
  intro e h
  have : base.agenda = [] := by decide +kernel
  simp [this] at h

theorem witness_StepKeepsCanonicalMemory : base.Canonical ∧ ∃ t, step base = .next t :=
  ⟨canonical_of (by decide +kernel), next_of (by decide +kernel)⟩

/-! ## Witnesses: operands and scalar instructions -/

theorem witness_ReadOfAScalarCode : queues.cur = some (th0.retire noPend 0 |> fun _ => (queues.cur.getD th0)) ∧
    (∀ r ∈ [(0 : Nat), 31], (queues.cur.getD th0).owes (.w r) = false) ∧
    (∀ q ∈ [0, 3], (arrived ((queues.cur.getD th0).lqOf q))[noPend.at q]? = some 9) ∧
    (∀ q ∈ [0, 3], (arrived (th0.lqOf q))[noPend.at q]? = none) := by
  and_intros <;> decide +kernel

theorem witness_WritesAndRetirement : base.Canonical ∧ hand.Canonical ∧ base.cur = some th0 ∧ hand.cur = some { th0 with handler := true } ∧
    (([0, 31, 40, 41, 42] : List Code).all (fun d => decide ((base.write d 3).isSome = true ∧ (hand.write d 3).isSome = true)) = true) :=
  ⟨canonical_of (by decide +kernel), canonical_of (by decide +kernel), by decide +kernel⟩

theorem witness_IllegalCodesTrapAndMissingOperandsWait : base.cur = some th0 ∧
    ([((32 : Code), (1 : Code), (2 : Code)), (39, 1, 2), (43, 1, 2), (63, 1, 2), (1, 40, 2), (1, 63, 2), (1, 2, 41), (1, 2, 43)].all
      (fun e => !(legalDst e.1 && legalSrc e.2.1 && legalSrc e.2.2)) = true) ∧
    (legalDst 63 && legalSrc 1) = false ∧ (legalDst 1 && legalSrc 40) = false ∧
    (([32, 41] : List Code).all (fun d => decide (32 ≤ d.toNat ∧ d.toNat ≤ 41)) = true) ∧ legalDst 62 = false ∧
    legalDst 1 = true ∧ legalSrc 36 = true ∧ legalSrc 2 = true ∧ base.read 36 noPend = .error (.lq 0 1) := by
  and_intros <;> first | decide +kernel | exact err_of (by decide +kernel)

/-- Registers, and both ends of the queues' codes: a peek of lq3, a pop of lq0, a push on sq1. -/
theorem witness_TwoOperandIntegerResults : base.cur = some th0 ∧ legalDst 31 = true ∧ legalSrc 1 = true ∧ legalSrc 2 = true ∧
    base.read 1 noPend = .ok (5, noPend) ∧ base.read 2 noPend = .ok (7, noPend) ∧ (base.write 31 12).isSome = true ∧
    queues.cur = some (queues.cur.getD th0) ∧ legalDst 41 = true ∧ legalSrc 35 = true ∧ legalSrc 36 = true ∧
    queues.read 35 noPend = .ok (9, noPend) ∧ queues.read 36 noPend = .ok (9, #v[1, 0, 0, 0]) ∧ (queues.write 41 12).isSome = true := by
  and_intros <;> first | decide +kernel | exact ok_of (by decide +kernel)

theorem witness_OneOperandSelectAndInsertResults : base.cur = some th0 ∧ legalDst 1 = true ∧ legalSrc 2 = true ∧ legalBoth 1 = true ∧
    legalBoth 42 = true ∧ base.read 2 noPend = .ok (7, noPend) ∧ base.read 1 noPend = .ok (5, noPend) ∧ base.read 42 noPend = .ok (0, noPend) ∧
    (([1, 64] : List (BitVec 7)).all (fun m => decide (1 ≤ m.toNat ∧ m.toNat ≤ 64)) = true) ∧
    ([((0 : BitVec 6), (63 : BitVec 6)), (63, 0)].all (fun e => decide (e.1.toNat + e.2.toNat + 1 ≤ 64)) = true) ∧ (base.write 1 12).isSome = true := by
  and_intros <;> first | decide +kernel | exact ok_of (by decide +kernel)

theorem witness_ScalarFrames : (∃ t, exec (.add 1 2 2) base = .next t) ∧ (∃ t, exec (.sel 42 1 2) base = .next t) ∧
    (∃ t, exec (.rdsr 1 1) base = .next t) ∧ (∃ t, exec (.ldw 1 42 42) base = .next t) ∧ (∃ t, exec (.fadd 1 2 2) base = .next t) ∧
    (∃ t, exec (.ffma 1 2 2 2 0) base = .next t) ∧ (∃ t, exec (.bc .eq 1 2 0) base = .next t) ∧ (∃ t, exec (.loop 1 0xFF) base = .next t) ∧
    (∃ t, exec (.call 1) base = .next t) := by
  and_intros <;> exact next_of (by decide +kernel)

theorem witness_HintsAndYieldPass : base.cur = some th0 := by decide +kernel

theorem witness_ScalarFloatingPointResults : base.cur = some th0 ∧ legalDst 1 = true ∧ legalSrc 2 = true ∧
    base.read 1 noPend = .ok (5, noPend) ∧ base.read 2 noPend = .ok (7, noPend) ∧ base.read 42 noPend = .ok (0, noPend) ∧
    Fmt.ofCode (BitVec.toNat (16 : BitVec 5)) = some (.flt e2m1) ∧ Fmt.ofCode (BitVec.toNat (11 : BitVec 5)) = some (.flt fp32) ∧
    Fmt.ofCode (BitVec.toNat (17 : BitVec 5)) = some .ks24 ∧ Fmt.ofCode (BitVec.toNat (1 : BitVec 5)) = some (.int 4) ∧
    (base.write 1 12).isSome = true := by
  and_intros <;> first | decide +kernel | exact ok_of (by decide +kernel)

/-! ## Witnesses: control -/

/-- A core with a jump table of two entries at offset 0x20000 of its scratchpad: label 7, targets 0 and 2. -/
def table : State := { base with spad := memPut base.spad 0x20000 (leBytes 4 0x00070002 ++ leBytes 4 0 ++ leBytes 4 2) }

/-- Tables of no entry and of the label of return pads. -/
def table0 : State := { base with spad := memPut base.spad 0x20000 (leBytes 4 0xFFFF0002) }

theorem witness_BranchesAndJumps : base.cur = some th0 ∧ legalSrc 1 = true ∧ base.read 1 noPend = .ok (5, noPend) ∧
    base.read 2 noPend = .ok (7, noPend) ∧ (31 : Code).toNat < 32 ∧ (base.write 31 12).isSome = true ∧
    condSpec .lt 5 7 = true ∧ condSpec .eq 5 7 = false ∧ base.inCode th0 (th0.pc + wrap64 (4 * (1 : BitVec 8).toInt)) = true ∧
    base.inCode th0 (th0.pc + wrap64 (4 * (0xFF : BitVec 8).toInt)) = false := by
  and_intros <;> first | decide +kernel | exact ok_of (by decide +kernel)

theorem witness_LandingPads_ret : base.cur = some th0 ∧ legalSrc 42 = true ∧ base.read 42 noPend = .ok (0, noPend) ∧
    (0 : Word).toNat < 2 ^ 32 ∧ (0 : Word).toNat % 4 = 0 ∧ base.fetchWord th0 0 = .ok 0x00614500 ∧ (placed 0xFFFF01F4).cur = some th0 ∧
    (placed 0xFFFF01F4).fetchWord th0 0 = .ok 0xFFFF01F4 ∧ base.read 1 noPend = .ok (5, noPend) ∧
    (2 ^ 32 ≤ (5 : Word).toNat ∨ (5 : Word).toNat % 4 ≠ 0) := by
  and_intros <;> first | decide +kernel | exact ok_of (by decide +kernel)

theorem witness_LandingPads_jmpt : table.cur = some th0 ∧ table.read 3 noPend = .ok (0x40020000, noPend) ∧ table.read 42 noPend = .ok (0, noPend) ∧
    table.spadDecode th0 ((0x40020000 : Word).setWidth 32) 1 = .ok (table.curCore, 0x20000) ∧
    table.localRead table.curCore 0x20000 4 = .ok (leBytes 4 0x00070002) ∧ leNat (leBytes 4 0x00070002) / 2 ^ 16 ≠ 0xFFFF ∧
    0 < leNat (leBytes 4 0x00070002) % 2 ^ 16 ∧ table.localRead table.curCore 0x20004 4 = .ok (leBytes 4 0) ∧ leNat (leBytes 4 0) % 4 = 0 ∧
    table.fetchWord th0 (BitVec.ofNat 64 (leNat (leBytes 4 0))) = .ok 0x00614500 ∧
    table.localRead table.curCore 0x20008 4 = .ok (leBytes 4 2) ∧ leNat (leBytes 4 2) % 4 ≠ 0 ∧
    table0.localRead table0.curCore 0x20000 4 = .ok (leBytes 4 0xFFFF0002) ∧ leNat (leBytes 4 0xFFFF0002) / 2 ^ 16 = 0xFFFF ∧
    leNat (leBytes 4 0x00070002) % 2 ^ 16 ≤ 2 := by
  and_intros <;> first | decide +kernel | exact ok_of (by decide +kernel)

theorem witness_TrapEntrySavesAndEnters : base.cur = some th0 ∧ th0.handler = false := by decide +kernel

theorem witness_HaltReturnAndPrivilege : hand.cur = some { th0 with handler := true } ∧ base.cur = some th0 ∧ th0.handler = false ∧
    (([0x30, 0x33] : List (BitVec 12)).all (fun n => decide (n.toNat ∈ [0x30, 0x31, 0x32, 0x33])) = true) ∧ legalDst 1 = true ∧ legalSrc 1 = true ∧
    (hand.vdOf th0).fsid[11] = false := by decide +kernel

theorem witness_SpecialRegisterReads : hand.cur = some { th0 with handler := true } ∧ legalDst 31 = true ∧ (base.write 31 12).isSome = true ∧
    (hand.write 31 12).isSome = true ∧ (([0, 0x21] : List (BitVec 12)).all (fun n => decide (n.toNat ∈ (specialRegs base th0).map (·.1))) = true) ∧
    (([0x30, 0x33] : List (BitVec 12)).all (fun n => decide (n.toNat ∈ (handlerRegs hand { th0 with handler := true }).map (·.1))) = true) ∧
    (([8, 0x22, 0xFFF] : List (BitVec 12)).all (fun n => decide (n.toNat ∉ listedRegs)) = true) := by
  and_intros <;> first | decide +kernel

/-- A second thread in slot 1 of core 0, in the workspace at block 3. -/
def pair : State := base.setThread 0 1 { th0 with blk := 3 }

/-- A core whose slot 0 alone is taken has no thread in another slot. -/
theorem noOther {s : State} {c : Nat} {th : Thread} (h : (s.core c).slots.toList.tail.all (·.isNone) = true)
    (j : Nat) (hj : j ≠ 0) (hs : s.thread c j = some th) : False := by
  simp only [State.thread, Core.thread, Option.join_eq_some_iff] at hs
  rw [List.all_eq_true] at h
  cases j with
  | zero => exact hj rfl
  | succ j =>
    have hm : some th ∈ (s.core c).slots.toList.tail := by
      rw [List.mem_iff_getElem?]
      exact ⟨j, by simpa using hs⟩
    simpa using h _ hm

theorem witness_SpecialRegisterWrites : hand.cur = some { th0 with handler := true } ∧ legalSrc 1 = true ∧
    hand.read 42 noPend = .ok (0, noPend) ∧ base.cur = some th0 ∧ base.read 1 noPend = .ok (5, noPend) ∧
    (([2, 6] : List (BitVec 12)).all (fun n => decide (n.toNat ∈ (specialWrites 5).map (·.1))) = true) ∧ (([0x30, 0x32] : List (BitVec 12)).all (fun n => decide (n.toNat ∈ (handlerWrites 5).map (·.1))) = true) ∧
    (([1, 0x21] : List (BitVec 12)).all (fun n => decide (n.toNat ∈ readOnlyRegs)) = true) ∧ 252 < wordField 0x3F400 10 8 ∧ wordField 0x3F000 10 8 ≤ 252 ∧
    (∀ j y, j ≠ hand.curSlot → hand.thread hand.curCore j = some y →
      1024 * wordField 0x3F000 10 8 + 3072 ≤ y.wp ∨ y.wp + 3072 ≤ 1024 * wordField 0x3F000 10 8) ∧
    hand.wpWaits { th0 with handler := true } (1024 * wordField 0x3F000 10 8) = false ∧
    pair.thread 0 1 = some { th0 with blk := 3 } ∧ wordField 0 10 8 ≤ 252 ∧ 1024 * wordField 0x400 10 8 < Thread.wp { th0 with blk := 3 } + 3072 ∧
    Thread.wp { th0 with blk := 3 } < 1024 * wordField 0x400 10 8 + 3072 := by
  and_intros <;> first | decide +kernel | exact ok_of (by decide +kernel) | skip
  intro j y hj hs
  exact (noOther (by decide +kernel) j hj hs).elim

/-- In FP16, 1.0 and its upper neighbour, a value between them, the two largest finite ones and a value beyond; the ends of the encodings; KS24's smallest
scale and the next; an integer between 0 and 1. -/
theorem witness_ScalarFloatingPointResults_numbers : (∃ l ∈ layouts, l.fmt = fp16 ∧ l.holds 0x3C00 (2 ^ 1024) ∧ l.holds 0x3C01 (2 ^ 1024 + 2 ^ 1014) ∧
      0x3C00 < l.top ∧ l.holds 0x7BFE (65472 * 2 ^ 1024) ∧ l.holds 0x7BFF (65504 * 2 ^ 1024) ∧ 0x7BFE + 1 = l.top ∧ l.inf = some 0x7C00 ∧
      0x7FFF < l.half ∧ l.top < 0x7FFF) ∧
    2 * 2 ^ 1024 < twice (2 ^ 1024) true ∧ twice (2 ^ 1024) true < 2 * (2 ^ 1024 + 2 ^ 1014) ∧ 2 * (65504 * 2 ^ 1024) < twice (65504 * 2 ^ 1024) true ∧
    twice (2 ^ 1024) false = 2 * 2 ^ 1024 ∧ (2 ^ 898) * 2 ^ 143 = 2 ^ (1024 + 1) * (65536 + 0) ∧ (2 ^ 882 * 65537) * 2 ^ 143 = 2 ^ (1024 + 1) * (65536 + 0 + 1) ∧
    2 * 2 ^ 898 < twice (2 ^ 898) true ∧ 0 * 2 ^ 1025 < twice 1 false ∧ twice 1 false < (0 + 1) * 2 ^ 1025 ∧ twice 0 false = 0 * 2 ^ 1025 ∧
    2 ^ 1153 ≤ twice (2 ^ 1152) false ∧ Fmt.int 4 ∈ intFmts ∧ Fmt.uint 64 ∈ intFmts := by
  refine ⟨⟨⟨fp16, 12, 5, 10, 15, 0x7BFF, some 0x7C00, 0x7E00⟩, List.mem_cons_of_mem _ (List.mem_cons_self ..), ?_⟩, ?_⟩ <;> and_intros <;>
    first | (unfold Layout.holds; decide +kernel) | decide +kernel

/-! ## Witnesses: threads, gangs, ends -/

/-- Core 0 with its four slots taken, in workspaces that do not overlap. -/
def full : State := ((base.setThread 0 1 { th0 with blk := 3 }).setThread 0 2 { th0 with blk := 6 }).setThread 0 3 { th0 with blk := 9 }

theorem witness_SpawnMakesAThread : base.cur = some th0 ∧ legalDst 1 = true ∧ legalSrc 1 = true ∧ base.read 1 noPend = .ok (5, noPend) ∧
    ((5 : Word).toNat % 1024 ≠ 0 ∨ 0x3F000 < (5 : Word).toNat) ∧ ((0x3F400 : Word).toNat % 1024 ≠ 0 ∨ 0x3F000 < (0x3F400 : Word).toNat) ∧
    (∃ e ∈ ((base.setThread 0 1 { th0 with gang := .leader [] }).core 0).threads, e.2.gang ≠ .none) ∧
    (∀ e ∈ (full.core full.curCore).threads, e.2.gang = .none) ∧ (full.core full.curCore).freeSlot = none ∧ full.cur = some th0 ∧
    (∀ e ∈ (base.core base.curCore).threads, e.2.gang = .none) ∧ (base.core base.curCore).freeSlot = some 1 ∧
    base.read 42 noPend = .ok (0, noPend) ∧ (∃ e ∈ (base.core base.curCore).threads, wsOverlap (0 : Word).toNat e.2.wp = true) ∧
    (regs base [(8, 0x3F000)]).read 8 noPend = .ok (0x3F000, noPend) ∧
    (∀ e ∈ (base.core base.curCore).threads, wsOverlap (0x3F000 : Word).toNat e.2.wp = false) ∧
    base.wmHolds base.curCore 0x3F000 3072 = false ∧ base.anyHeld (spadLocs base.curCore 0x3F000 2688) = false ∧
    (base.write 1 (BitVec.ofNat 64 1)).isSome = true ∧ (full.write 1 (wrap64 (-1))).isSome = true := by
  and_intros <;> first | decide +kernel | exact ok_of (by decide +kernel)

theorem witness_SpawnMakesAThread_start : ∃ (s : State) (l : Thread), s.thread 0 1 = some l ∧ l.run = .blocked .start :=
  ⟨base.setThread 0 1 { th0 with run := .blocked .start }, { th0 with run := .blocked .start }, by decide +kernel⟩

/-- A leader on core 0 and a joined follower on core 1, both Blocked in GANG, or the core where the next row's first core stands. -/
def gangs (n : Nat) : State :=
  let s := (base.setThread 0 0 { th0 with run := .blocked .join, gangWord := 1 }).setThread 1 0 { th0 with run := .blocked .join, gangWord := 0x80 }
  if n = 1 then s else s.setThread 1 1 { th0 with blk := 3 }

/-- The leader is in a gang already. -/
def ganged : State := (gangs 1).modThread 0 0 (fun th => { th with gang := .leader [(1, 0)] })

theorem witness_GangsFormAndDissolve : base.cur = some th0 ∧ legalSrc 1 = true ∧ base.read 1 noPend = .ok (5, noPend) ∧
    (regs base [(1, 0x81)]).read 1 noPend = .ok (0x81, noPend) ∧ gangWordOk 0x81 = false ∧ gangWordOk 0 = false ∧ gangWordOk 0x80 = true ∧
    gangWordOk 1 = true ∧ gangWordOk 63 = true ∧ (1 : Word)[7] = false ∧ (0x80 : Word)[7] = true ∧ gangWordOk 0x41 = true ∧
    gangCols (hpos 0).1 0x41 = none ∧ gangCols (hpos 0).1 1 ≠ none ∧ (withTh (fun th => { th with gang := .leader [] })).cur = some { th0 with gang := .leader [] } ∧
    th0.gang = .none ∧ (∃ c ∈ gangCores 0 5, c < (base.vdOf th0).qbase + (base.node th0.node).hLo ∨ (base.vdOf th0).qbase + (base.node th0.node).hHi < c) ∧
    (∀ c ∈ gangCores 0 1, (base.vdOf th0).qbase + (base.node th0.node).hLo ≤ c ∧ c ≤ (base.vdOf th0).qbase + (base.node th0.node).hHi) ∧
    (gangs 2).thread 0 0 = some { th0 with run := .blocked .join, gangWord := 1 } ∧
    (gangs 2).gangReady 0 { th0 with run := .blocked .join, gangWord := 1 } = true ∧
    (∃ k ∈ 0 :: gangCores 0 1, 1 < (gangs 2).kernelThreads k th0.node) ∧
    (gangs 1).thread 0 0 = some { th0 with run := .blocked .join, gangWord := 1 } ∧
    (gangs 1).gangReady 0 { th0 with run := .blocked .join, gangWord := 1 } = true ∧
    (∀ k ∈ 0 :: gangCores 0 1, (gangs 1).kernelThreads k th0.node ≤ 1) ∧ 0 ∉ gangCores 0 1 ∧ 1 ∈ gangCores 0 1 ∧ (gangs 1).joiner 1 th0.node = some 0 ∧
    ganged.thread 0 0 = some { th0 with run := .blocked .join, gangWord := 1, gang := .leader [(1, 0)] } ∧
    ganged.gangReady 0 { th0 with run := .blocked .join, gangWord := 1, gang := .leader [(1, 0)] } = true ∧
    (withTh (fun th => { th with gang := .follower 1 0 })).cur = some { th0 with gang := .follower 1 0 } := by
  and_intros <;> first | decide +kernel | exact ok_of (by decide +kernel)

/-- Faults of each class, the oldest of LD second: that one is reported; limited by ST alone none of LD is. -/
def faulty : List AFault := [⟨4, .cr, 7, 6, 0, 9⟩, ⟨3, .ld, 1, 6, 0, 9⟩, ⟨2, .ld, 5, 8, 0, 9⟩, ⟨1, .pr, 2, 8, 0, 9⟩]

/-- Limits at the counters and below them, ignored limits; faults of classes that are not limited, and of limited ones, in and out of handler mode. -/
theorem witness_WaitcPassesOrReports :
    (∀ c ∈ [(0, (0 : Nat)), (30, 30), (31, 30)], c.1 = 31 ∨ c.2 ≤ c.1) ∧ ¬ (29 = 31 ∨ 30 ≤ 29) ∧ base.cur = some th0 ∧ th0.faults = [] ∧
    (withTh (fun th => { th with cnt := ⟨30, 30, 120, 14, 6⟩ })).cur = some { th0 with cnt := ⟨30, 30, 120, 14, 6⟩ } ∧
    (withTh (fun th => { th with faults := faulty })).cur = some { th0 with faults := faulty } ∧ th0.handler = false ∧
    (withTh (fun th => { th with faults := faulty, handler := true })).cur = some { th0 with faults := faulty, handler := true } ∧
    (∀ f ∈ faulty, ∀ e ∈ waitcFields 31 0 127 15 7, e.2.1 = f.cls → e.2.2.1 = e.2.2.2) ∧
    (0, Cls.ld, 0, 31) ∈ waitcFields 0 31 127 0 0 ∧
    (∀ g ∈ faulty, ∀ e ∈ waitcFields 0 31 127 0 0, e.2.1 = g.cls → e.2.2.1 ≠ e.2.2.2 → 0 < e.1 ∨ 0 = e.1 ∧ (g = ⟨2, .ld, 5, 8, 0, 9⟩ ∨ 2 < g.op)) ∧
    (3, Cls.pr, 0, 15) ∈ waitcFields 31 31 127 0 0 ∧ (4, Cls.cr, 0, 7) ∈ waitcFields 31 31 127 15 0 := by
  and_intros <;> decide +kernel

theorem witness_ExitEmptiesTheSlot : (withTh (fun th => { th with cnt := ⟨0, 0, 0, 0, 1⟩ })).cur = some { th0 with cnt := ⟨0, 0, 0, 0, 1⟩ } ∧
    (⟨0, 0, 0, 0, 1⟩ : Counters) ≠ ⟨0, 0, 0, 0, 0⟩ ∧ base.cur = some th0 ∧ th0.cnt = ⟨0, 0, 0, 0, 0⟩ ∧ (∀ j, th0.sqOf j = []) ∧
    base.allSettled base.curCore base.curSlot = true ∧ base.anyHeldW (spadLocs base.curCore (th0.wp + 2688) 128) = false ∧ th0.faults = [] := by
  refine ⟨by decide +kernel, by decide +kernel, by decide +kernel, by decide +kernel, fun j => ?_, by decide +kernel, by decide +kernel, by decide +kernel⟩
  match j with
  | 0 => decide +kernel
  | 1 => decide +kernel
  | j + 2 =>
    have h : th0.sq = Vector.replicate 2 [] := by decide +kernel
    simp [Thread.sqOf, h]

/-! ## Witnesses: scratchpad and Ream accesses -/

/-- The scratchpad's ends: bytes 0x20000 and, by an 8-byte access, 0x3FFF8; the Ream's first and last words of 64 KiB. -/
theorem witness_LocalLoadsDeliver : base.cur = some th0 ∧ legalSrc 3 = true ∧ base.read 3 noPend = .ok (0x40020000, noPend) ∧
    base.readIdx 63 noPend = .ok (0, noPend) ∧ legalDst 1 = true ∧ ((legalSrc 63 = true) ∨ ((63 : Code) = 63 ∧ 3 = 3)) ∧
    base.spadDecode th0 (effAddr 0x40020000 0 0) 8 = .ok (base.curCore, 0x20000) ∧ 0x20000 % 8 = 0 ∧
    base.spadDecode th0 (effAddr 0x40020000 0x1FFF8 0) 8 = .ok (base.curCore, 0x3FFF8) ∧
    base.spadDecode th0 (effAddr 0x40020000 0x1FFFF 0) 1 = .ok (base.curCore, 0x3FFFF) ∧
    base.readWaits (spadLocs base.curCore 0x20000 8) = false ∧ base.readWaits (spadLocs base.curCore 0x3FFFF 1) = false ∧
    (∀ l ∈ spadLocs base.curCore 0x20000 8, base.poisoned l = false) ∧ (base.write 1 0).isSome = true ∧
    isLq 32 = true ∧ isLq 35 = true ∧ (th0.lqOf 3).length < 32 ∧
    (effAddr 0 0xFFF8 0).toNat + 8 ≤ (base.vdOf th0).reamk * 65536 ∧ (effAddr 0 0xFFF8 0).toNat % 8 = 0 ∧
    ({ base with clk := 96 } : State).cur = some th0 ∧ 96 ≤ refcPhase ({ base with clk := 96 } : State).clk base.curCore ∧
    (base.curCore * 2 ^ 19 + (effAddr 0 0xFFF8 0).toNat) / 64 ∉ base.poisonR := by
  and_intros <;> first | decide +kernel | exact ok_of (by decide +kernel) | exact ⟨by decide +kernel, by decide +kernel⟩

/-- Poisoned units at 0x20000's second, at the scratchpad's last, and at the Ream's last of 64 KiB. -/
def bad8 : State := { base with poisonS := [0x20008 / 8, 0x3FFF8 / 8], poisonR := [0xFFF8 / 64], clk := 96 }

theorem witness_LocalLoadsDeliver_error : bad8.cur = some th0 ∧ bad8.read 3 noPend = .ok (0x40020000, noPend) ∧
    bad8.spadDecode th0 (effAddr 0x40020000 0x1FFFF 0) 1 = .ok (bad8.curCore, 0x3FFFF) ∧ bad8.readWaits (spadLocs bad8.curCore 0x3FFFF 1) = false ∧
    th0.canTake (th0.dest (scalarDest 1)) 1 = true ∧ th0.canTake (.lq 3) 1 = true ∧
    ((spadLocs bad8.curCore 0x3FFFF 1)[0]?).map bad8.poisoned = some true ∧
    (effAddr 0 0xFFF8 0).toNat < (bad8.vdOf th0).reamk * 65536 ∧ (bad8.curCore * 2 ^ 19 + (effAddr 0 0xFFF8 0).toNat) / 64 ∈ bad8.poisonR ∧
    96 ≤ refcPhase bad8.clk bad8.curCore ∧ refcPhase base.clk base.curCore < 96 ∧ (effAddr 0 0xFFF8 1).toNat % 8 ≠ 0 ∧
    (bad8.vdOf th0).reamk * 65536 ≤ (effAddr 0 0x10000 0).toNat := by
  and_intros <;> first | decide +kernel | exact ok_of (by decide +kernel) | exact ⟨by decide +kernel, by decide +kernel⟩

/-- Byte 8 of a vector is the first that is poisoned. -/
theorem witness_VectorLocalAccesses_error : bad8.spadDecode th0 (effAddr 0x40020000 0 0) 128 = .ok (bad8.curCore, 0x20000) ∧
    bad8.readWaits (touched (spadLocs bad8.curCore 0x20000 128) (.vload (BitVec.allOnes 128))) = false ∧ th0.owes (.v 15) = false ∧ (th0.lqOf 3).length ≤ 16 ∧
    (BitVec.allOnes 128).getLsbD 8 = true ∧ ((spadLocs bad8.curCore 0x20000 128)[8]?).map bad8.poisoned = some true ∧
    (∀ j < 8, ((spadLocs bad8.curCore 0x20000 128)[j]?).map bad8.poisoned = some false) := by
  and_intros <;> first | decide +kernel | exact ok_of (by decide +kernel) | exact ⟨by decide +kernel, by decide +kernel⟩

theorem witness_LocalStoresWrite : base.cur = some th0 ∧ legalSrc 3 = true ∧ base.read 3 noPend = .ok (0x40020000, noPend) ∧
    base.readIdx 63 noPend = .ok (0, noPend) ∧ legalSrc 1 = true ∧ base.read 1 noPend = .ok (5, noPend) ∧
    base.spadDecode th0 (effAddr 0x40020000 0 0) 8 = .ok (base.curCore, 0x20000) ∧ 0x20000 % 8 = 0 ∧
    base.spadDecode th0 (effAddr 0x40020000 0x1FFF8 0) 8 = .ok (base.curCore, 0x3FFF8) ∧
    base.storeGo (spadLocs base.curCore 0x20000 8) ∧ base.storeGo (spadLocs base.curCore 0x3FFF8 8) ∧ base.Canonical ∧
    isSq 40 = true ∧ isSq 41 = true ∧ queues.cur = some (queues.cur.getD th0) ∧ ((queues.cur.getD th0).sqOf 1).head? = some 13 := by
  and_intros <;> first | decide +kernel | exact ok_of (by decide +kernel) | exact ⟨by decide +kernel, by decide +kernel⟩ | exact canonical_of (by decide +kernel)

theorem witness_VectorLocalAccesses : base.cur = some th0 ∧ legalSrc 3 = true ∧ base.read 3 noPend = .ok (0x40020000, noPend) ∧
    base.readIdx 63 noPend = .ok (0, noPend) ∧ base.spadDecode th0 (effAddr 0x40020000 0 0) 128 = .ok (base.curCore, 0x20000) ∧ 0x20000 % 8 = 0 ∧
    base.spadDecode th0 (effAddr 0x40020000 0x1FF80 0) 128 = .ok (base.curCore, 0x3FF80) ∧
    base.readWaits (touched (spadLocs base.curCore 0x20000 128) (.vload (BitVec.allOnes 128))) = false ∧
    (∀ l ∈ touched (spadLocs base.curCore 0x20000 128) (.vload (BitVec.allOnes 128)), base.poisoned l = false) ∧
    (15 : Code).toNat < 16 ∧ th0.owes (.v 15) = false ∧ isLq 35 = true ∧ (th0.lqOf 3).length ≤ 16 ∧
    legalVSrc 15 = true ∧ base.readVec 15 noPend = .ok (0, noPend) ∧
    base.storeGo (touched (spadLocs base.curCore 0x20000 128) (.store (vstoreData (BitVec.allOnes 128) 0))) ∧ base.Canonical ∧
    isSq 41 = true ∧ ((withTh (fun th => { th with sq := Vector.replicate 2 (List.replicate 16 13) })).cur.map (fun th =>
      ((th.sqOf 1).take 16).length)) = some 16 := by
  and_intros <;> first | decide +kernel | exact ok_of (by decide +kernel) | exact ⟨by decide +kernel, by decide +kernel⟩ | exact canonical_of (by decide +kernel)

/-- Faults at the quire's end and at the scratchpad's, for a load and a store, and the misaligned ones; the clauses of the decode at their
ends. -/
theorem witness_ScratchpadAddressFaults : base.cur = some th0 ∧ legalSrc 3 = true ∧ base.read 3 noPend = .ok (0x40020000, noPend) ∧
    base.read 1 noPend = .ok (5, noPend) ∧ legalDst 1 = true ∧ base.read 2 noPend = .ok (7, noPend) ∧
    base.spadDecode th0 (effAddr 0x40020000 0x1FFF9 0) 8 = .error 0x40040000 ∧ base.spadDecode th0 (effAddr 0x80000 0 0) 8 = .error 0x80000 ∧
    base.spadDecode th0 (effAddr 0x40020000 5 0) 8 = .ok (base.curCore, 0x20005) ∧ 0x20005 % 8 ≠ 0 ∧
    (base.vdOf th0).qlen = 2 ∧ 1 < (base.vdOf th0).qlen ∧ 2 ^ 18 - 8 + 8 ≤ 2 ^ 18 ∧ (base.vdOf th0).qlen ≤ 2 ∧ 2 ^ 18 < 2 ^ 18 - 8 + 9 ∧
    base.spadDecode th0 (effAddr 0xC0000000 0 0) 128 = .error 0xC0000000 ∧ base.spadDecode th0 (effAddr 0x40040000 0 0) 8 = .error 0x40040000 ∧
    base.spadDecode th0 (effAddr 0x40020000 0x1FF81 0) 128 = .error 0x40040000 ∧ legalSrc 1 = true ∧ isLq 35 = true ∧ isSq 41 = true ∧
    ((queues.cur.getD th0).sqOf 1) ≠ [] ∧ legalVSrc 15 = true ∧ base.readVec 15 noPend = .ok (0, noPend) ∧
    16 ≤ (((withTh (fun th => { th with sq := Vector.replicate 2 (List.replicate 16 13) })).cur.getD th0).sqOf 1).length := by
  and_intros <;> first | decide +kernel | exact ok_of (by decide +kernel) | exact ⟨by decide +kernel, by decide +kernel⟩ | exact err_of (by decide +kernel)

/-! ## Witnesses: remote and global accesses -/

/-- The places of 8 bytes and of 128 at virtual address 0x1000, or none. -/
def places (n : Nat) : List Loc := (List.range n).map (fun i => ⟨true, ((base.vd 0).iaKey 0x6000).getD 0 + i⟩)

theorem witness_RemoteAccessesIssue : base.cur = some th0 ∧ legalSrc 4 = true ∧ base.read 4 noPend = .ok (0x60000, noPend) ∧
    base.readIdx 63 noPend = .ok (0, noPend) ∧ 1 ≠ base.curCore ∧ th0.cnt.cr < 6 ∧ (5 : Nat) < 6 ∧ legalDst 1 = true ∧ th0.canTake (th0.dest (scalarDest 1)) 1 = true ∧
    base.spadDecode th0 (effAddr 0x60000 0 0) 8 = .ok (1, 0x20000) ∧ 0x20000 % 8 = 0 ∧
    base.spadDecode th0 (effAddr 0x60000 0x1FFF8 0) 8 = .ok (1, 0x3FFF8) ∧ legalSrc 1 = true ∧ base.read 1 noPend = .ok (5, noPend) ∧
    isLq 35 = true ∧ (th0.lqOf 3).length ≤ 16 ∧ isSq 41 = true ∧ ((queues.cur.getD th0).sqOf 1).head? = some 13 ∧
    base.spadDecode th0 (effAddr 0x60000 0x1FF80 0) 128 = .ok (1, 0x3FF80) ∧ (15 : Code).toNat < 16 ∧ th0.owes (.v 15) = false ∧
    legalVSrc 15 = true ∧ base.readVec 15 noPend = .ok (0, noPend) ∧
    ((((withTh (fun th => { th with sq := Vector.replicate 2 (List.replicate 16 13) })).cur.getD th0).sqOf 1).take 16).length = 16 := by
  and_intros <;> first | decide +kernel | exact ok_of (by decide +kernel)

theorem witness_GlobalAccessesIssue : base.cur = some th0 ∧ legalSrc 7 = true ∧ base.read 7 noPend = .ok (0x1000, noPend) ∧
    base.readIdx 63 noPend = .ok (0, noPend) ∧ legalDst 1 = true ∧ th0.cnt.ld < 30 ∧ th0.canTake (th0.dest (scalarDest 1)) 1 = true ∧ th0.cnt.st < 30 ∧
    base.globalCheck th0 0x1000 8 8 ⟨true, false, false⟩ = .ok (places 8) ∧ base.globalCheck th0 0x1000 8 8 ⟨false, true, false⟩ = .ok (places 8) ∧
    legalSrc 1 = true ∧ base.read 1 noPend = .ok (5, noPend) ∧ (15 : Code).toNat < 16 ∧ th0.owes (.v 15) = false ∧
    base.globalCheck th0 0x1000 128 8 ⟨true, false, false⟩ = .ok (places 128) ∧ base.globalCheck th0 0x1000 128 8 ⟨false, true, false⟩ = .ok (places 128) ∧
    legalVSrc 15 = true ∧ base.readVec 15 noPend = .ok (0, noPend) ∧ isLq 35 = true ∧ (th0.lqOf 3).length ≤ 16 ∧ isSq 41 = true ∧
    ((withTh (fun th => { th with sq := Vector.replicate 2 (List.replicate 16 13) })).cur.map (fun th => ((th.sqOf 1).take 16).length)) = some 16 := by
  and_intros <;> first | decide +kernel | exact ok_of (by decide +kernel)

/-- An access of the thread in slot 0 as the first operation in flight. -/
def flying (cls : Cls) (ord : OrdClass) (a : Access) : State :=
  { base with ops := [(0, ⟨0, 0, 0, cls, 0, [ord], .thread, .access a⟩)], nextOp := 1 }

def loadAt (dest : Dest) (words : Nat) : Access := ⟨0x1000, places 8, none, .load .w64, dest, noPend, words, false, [], none, 0⟩
def storeAt : Access := ⟨0x1000, places 8, none, .store ((leBytes 8 5).map some), .none, noPend, 0, false, [], none, 0⟩
def atomAt : Access := ⟨0x1000, places 8, none, .atomic .add 5 0, .w 31, noPend, 0, false, [], none, 0⟩

def vloadAt (dest : Dest) (words : Nat) : Access :=
  ⟨0x1000, places 128, none, .vload (BitVec.ofNat 128 1), dest, noPend, words, false, [], none, 0⟩

theorem witness_AtomicsAct : base.cur = some th0 ∧ legalSrc 7 = true ∧ legalSrc 1 = true ∧ base.read 7 noPend = .ok (0x1000, noPend) ∧
    base.read 1 noPend = .ok (5, noPend) ∧ th0.cnt.cr < 6 ∧ th0.canTake (th0.dest (scalarDest 2)) 1 = true ∧ legalBoth 2 = true ∧
    base.read 2 noPend = .ok (7, noPend) ∧ legalDst 2 = true ∧ wordField (0x1000 + (0 : BitVec 12).signExtend 64) 32 32 ≠ 2 ^ 32 - 1 ∧
    base.globalCheck th0 (0x1000 + (0 : BitVec 12).signExtend 64) 8 8 ⟨true, true, false⟩ = .ok (places 8) ∧
    base.globalCheck th0 (0x1000 + (0 : BitVec 12).signExtend 64) 4 4 ⟨true, true, false⟩ = .ok (places 4) ∧
    wordField (0xFFFFFFFF40020000 + (0 : BitVec 12).signExtend 64) 32 32 = 2 ^ 32 - 1 ∧
    base.spadDecode th0 ((0xFFFFFFFF40020000 + (0 : BitVec 12).signExtend 64 : Word).setWidth 32) 8 = .ok (0, 0x20000) ∧ 0x20000 % 8 = 0 := by
  and_intros <;> first | decide +kernel | exact ok_of (by decide +kernel)

theorem witness_AtomicsAct_performed : (flying .cr .ga atomAt).Canonical ∧
    tabGet (flying .cr .ga atomAt).ops 0 = some ⟨0, 0, 0, .cr, 0, [.ga], .thread, .access atomAt⟩ ∧
    (flying .cr .ga atomAt).away ⟨0, 0, 0, .cr, 0, [.ga], .thread, .access atomAt⟩ = false ∧
    (flying .cr .ga atomAt).mayPerform 0 ⟨0, 0, 0, .cr, 0, [.ga], .thread, .access atomAt⟩ atomAt = true ∧
    (flying .cr .ga atomAt).thread 0 0 = some th0 ∧ (∀ x ∈ (flying .cr .ga atomAt).late, x.next ≤ 0) ∧ atomAt.locs.Nodup ∧
    (∀ l ∈ atomAt.locs, l.glob = true ∧ (flying .cr .ga atomAt).poisoned l = false) ∧ 5 < 2 ^ (8 * atomAt.locs.length) ∧
    0 < 2 ^ (8 * atomAt.locs.length) := by
  and_intros <;> first | decide +kernel | exact canonical_of (by decide +kernel)

/-- An AMCAS of the last word of core 1's scratchpad that fails, with d and with none. -/
def casAt (dest : Dest) : Access := ⟨0x7FFF8, spadLocs 1 0x3FFF8 8, some 1, .atomic .cas 5 7, dest, noPend, 0, false, [], none, 0⟩

theorem witness_AtomicsAct_home : ∀ a ∈ [casAt .none, casAt (.w 31)], canonicalB (flying .cr .rs a) = true ∧
    tabGet (flying .cr .rs a).ops 0 = some ⟨0, 0, 0, .cr, 0, [.rs], .thread, .access a⟩ ∧ a.home = some 1 ∧
    (flying .cr .rs a).away ⟨0, 0, 0, .cr, 0, [.rs], .thread, .access a⟩ = false ∧ (flying .cr .rs a).homeLocs 0 a.locs = some a.locs ∧
    (flying .cr .rs a).mayPerform 0 ⟨0, 0, 0, .cr, 0, [.rs], .thread, .access a⟩ a = true ∧
    (flying .cr .rs a).nodeHolds 0 ((flying .cr .rs a).writesNow a) a.locs = false ∧ (flying .cr .rs a).thread 0 0 = some th0 ∧ a.locs.Nodup ∧
    (∀ l ∈ a.locs, l.glob = false ∧ (flying .cr .rs a).poisoned l = false) ∧ leNat (a.locs.map (flying .cr .rs a).readLoc) ≠ 7 := by decide +kernel

theorem witness_GlobalAccessesComplete : ∀ a ∈ [loadAt (.w 31) 1, loadAt (.h 31) 1, loadAt (.lq 3) 0, vloadAt (.v 15) 1, vloadAt (.lq 3) 0, storeAt],
    tabGet (flying .ld .ga a).ops 0 = some ⟨0, 0, 0, .ld, 0, [.ga], .thread, .access a⟩ ∧ a.home = none ∧ a.performed = false ∧
    (flying .ld .ga a).away ⟨0, 0, 0, .ld, 0, [.ga], .thread, .access a⟩ = false ∧
    (flying .ld .ga a).mayPerform 0 ⟨0, 0, 0, .ld, 0, [.ga], .thread, .access a⟩ a = true ∧
    (flying .ld .ga a).thread 0 0 = some th0 ∧ (∀ l ∈ a.locs, (flying .ld .ga a).poisoned l = false) ∧ canonicalB (flying .ld .ga a) = true ∧
    (flying .ld .ga a).gangHeldOp ⟨0, 0, 0, .ld, 0, [.ga], .thread, .access a⟩ a = false ∧ (∀ x ∈ (flying .ld .ga a).late, x.next ≤ 0) ∧
    th0.handler = false := by decide +kernel

/-- A poisoned line under a load: its first byte. -/
theorem witness_GlobalAccessesComplete_error : ({ flying .ld .ga (loadAt (.w 31) 1) with poisonD := [((places 1).headD ⟨true, 0⟩).key / 128] } :
    State).firstBad (loadAt (.w 31) 1).locs (loadAt (.w 31) 1).act = some 0 ∧
    ({ flying .ld .ga (vloadAt (.lq 3) 0) with poisonD := [((places 1).headD ⟨true, 0⟩).key / 128] } :
    State).firstBad (vloadAt (.lq 3) 0).locs (vloadAt (.lq 3) 0).act = some 0 := by decide +kernel

/-- The load of a gang's leader, whose follower's load is not performed. -/
def gangFlying : State :=
  let o : Op := ⟨0, 0, 0, .ld, 0, [.ga], .thread, .access (loadAt (.w 31) 1)⟩
  { (base.setThread 0 0 { th0 with gang := .leader [(1, 0)] }).setThread 1 0 { th0 with gang := .follower 0 0 } with
    ops := [(0, o), (1, { o with core := 1 })], nextOp := 2 }

theorem witness_GlobalAccessesComplete_gang : ∃ (o : Op) (p : Access), tabGet gangFlying.ops 0 = some o ∧ o.kind = .access (loadAt (.w 31) 1) ∧
    gangFlying.away o = false ∧ gangFlying.mayPerform 0 o (loadAt (.w 31) 1) = true ∧ gangFlying.gangHeldOp o (loadAt (.w 31) 1) = true ∧
    gangFlying.thread o.core o.slot = some { th0 with gang := .leader [(1, 0)] } ∧
    p = { loadAt (.w 31) 1 with
      performed := true
      value := (loadAt (.w 31) 1).locs.map gangFlying.readLoc
      err := gangFlying.firstBad (loadAt (.w 31) 1).locs (loadAt (.w 31) 1).act } ∧
    ({ gangFlying with ops := tabSet gangFlying.ops 0 { o with kind := .access p } } : State).gangLoads o.core o.slot = none :=
  ⟨⟨0, 0, 0, .ld, 0, [.ga], .thread, .access (loadAt (.w 31) 1)⟩, _, by decide +kernel, by decide +kernel, by decide +kernel, by decide +kernel,
    by decide +kernel, by decide +kernel, rfl, by decide +kernel⟩

/-- A remote access of core 1's last word, before it is performed and after. -/
def remoteAt (act : AccessAct) (dest : Dest) (performed : Bool) : Access :=
  ⟨0x7FFF8, spadLocs 1 0x3FFF8 8, some 1, act, dest, noPend, 0, performed, if performed then leBytes 8 9 else [], none, 0⟩

theorem witness_RemoteAccessesPerform : ∀ a ∈ [remoteAt (.load .w64) (.w 31) false, remoteAt (.store ((leBytes 8 5).map some)) .none false,
      remoteAt (.load .w64) (.w 31) true],
    tabGet (flying .cr .rs a).ops 0 = some ⟨0, 0, 0, .cr, 0, [.rs], .thread, .access a⟩ ∧ a.home = some 1 ∧
    (flying .cr .rs a).away ⟨0, 0, 0, .cr, 0, [.rs], .thread, .access a⟩ = false ∧ (flying .cr .rs a).thread 0 0 = some th0 ∧
    (flying .cr .rs a).homeLocs 0 a.locs = some a.locs ∧
    (a.performed = false → (flying .cr .rs a).mayPerform 0 ⟨0, 0, 0, .cr, 0, [.rs], .thread, .access a⟩ a = true) ∧
    (flying .cr .rs a).nodeHolds 0 ((flying .cr .rs a).writesNow a) (touched a.locs a.act) = false ∧ (∀ x ∈ (flying .cr .rs a).late, x.next ≤ 0) ∧ (∀ l ∈ a.locs, (flying .cr .rs a).poisoned l = false) ∧ a.err = none ∧
    canonicalB (flying .cr .rs a) = true ∧ th0.handler = false := by decide +kernel

/-- Replies to every kind of destination: a load, an atomic with a push, a vector to its last register and queue, and a poisoned unit at byte 7. -/
theorem witness_RemoteAccessesPerform_replies : ∀ a ∈ [remoteAt (.load .s8) (.h 31) true, remoteAt (.load .w64) (.lq 3) true,
      remoteAt (.atomic .add 5 0) (.w 31) true, { remoteAt (.atomic .add 5 0) (.sq 1) true with words := 1 },
      remoteAt (.vload (BitVec.ofNat 128 1)) (.v 15) true, remoteAt (.vload (BitVec.ofNat 128 1)) (.lq 3) true,
      { remoteAt (.load .w64) (.lq 3) true with err := some 7 }, { remoteAt (.atomic .add 5 0) (.w 31) true with err := some 7 }],
    tabGet (flying .cr .rs a).ops 0 = some ⟨0, 0, 0, .cr, 0, [.rs], .thread, .access a⟩ ∧ a.home = some 1 ∧ a.performed = true ∧
    (flying .cr .rs a).away ⟨0, 0, 0, .cr, 0, [.rs], .thread, .access a⟩ = false ∧ (flying .cr .rs a).thread 0 0 = some th0 ∧
    (flying .cr .rs a).destAway ⟨0, 0, 0, .cr, 0, [.rs], .thread, .access a⟩ a.dest = false ∧ (∀ x ∈ (flying .cr .rs a).late, x.next ≤ 0) ∧
    canonicalB (flying .cr .rs a) = true := by decide +kernel

/-! ## Witnesses: fences, parking, copies -/

/-- w8 a window address of the own word at 0x20000; the places of the word. -/
def parker : State := regs base [(8, 0xFFFFFFFF40020000)]

/-- A copy alone is outstanding: FENCE of class 2 waits, of any other passes. -/
theorem witness_FencesParksWakesAndWaits_fence : ∃ (s : State) (th : Thread), s.cur = some th ∧ s.outstanding th 2 ∧ (4 : BitVec 6).getLsbD 2 = true ∧
    ∀ k < 6, (BitVec.getLsbD (59 : BitVec 6) k = true) → ¬ s.outstanding th k := by
  refine ⟨{ base with ops := [(0, ⟨0, 0, 0, .cp, 0, [.en], .thread, .copy ⟨false, [], true, [], [], [], [], none, []⟩⟩)], nextOp := 1 }, th0, by decide +kernel,
    Or.inl ⟨_, List.mem_singleton.2 rfl, by decide +kernel, by decide +kernel, by decide +kernel, rfl, fun a h => nomatch h⟩, by decide +kernel, ?_⟩
  rintro k hk hs (⟨e, he, -, -, -, hc, -⟩ | ⟨-, hp⟩)
  · rw [List.mem_singleton.1 he] at hc
    have h2 : 2 = k := hc
    subst h2
    exact absurd hs (by decide)
  · exact hp (by decide +kernel)

def parkedTh : Thread := { th0 with run := .parked false 0x400 }

theorem witness_FencesParksWakesAndWaits : parker.cur = some th0 ∧ legalSrc 8 = true ∧ parker.read 8 noPend = .ok (0xFFFFFFFF40020000, noPend) ∧
    parker.readIdx 1 noPend = .ok (5, noPend) ∧ parker.readIdx 63 noPend = .ok (0, noPend) ∧ parker.ops = [] ∧
    th0.cnt.pr = 0 ∧ legalSrc 1 = true ∧ wordField 0xFFFFFFFF40020000 32 32 = 2 ^ 32 - 1 ∧
    parker.parkPlace th0 0xFFFFFFFF40020000 = .ok (spadLocs 0 0x20000 8) ∧ parker.readWaits (spadLocs 0 0x20000 8) = false ∧
    parker.mustWait parker.curCore parker.curSlot (parkView (spadLocs 0 0x20000 8)) = false ∧ (∀ k ∈ spadLocs 0 0x20000 8, parker.poisoned k = false) ∧
    (base.setThread 1 3 parkedTh).thread 1 3 = some parkedTh ∧ parkedTh.run = .parked false 0x400 ∧
    legalSrc 7 = true ∧ parker.read 7 noPend = .ok (0x1000, noPend) ∧ wordField 0x1000 32 32 ≠ 2 ^ 32 - 1 ∧
    parker.globalCheck th0 0x1000 8 8 ⟨true, false, false⟩ = .ok (places 8) ∧ parker.readWaits (places 8) = false ∧
    parker.mustWait parker.curCore parker.curSlot (parkView (places 8)) = false ∧ (∀ k ∈ places 8, parker.poisoned k = false) := by
  and_intros <;> first | decide +kernel | exact ok_of (by decide +kernel)

theorem witness_FencesParksWakesAndWaits_wake : ∃ w ∈ [((⟨false, 0x2007F⟩ : Loc), (1 : Byte))],
    (0, (base.setThread 0 3 parkedTh).core 0) ∈ (base.setThread 0 3 parkedTh).cores ∧ ((base.setThread 0 3 parkedTh).core 0).thread 3 = some parkedTh ∧
    parkedTh.run = .parked w.1.glob (w.1.key / 128) := by decide +kernel

/-- A descriptor of one byte at offset 0x20000, from virtual address 0x1000 to 0x1080; a plan of one record, for core 1, whose range ends with
its scratchpad. -/
def descr : List Byte := [0x301, 0x1000, 0x1080, 0, 1, 0, 0].flatMap (leBytes 8)
def copier : State :=
  ({ base with spad := memPut base.spad 0x20000 descr } : State).modCore 0 (fun k =>
    { k with plan := leBytes 16 (128 + 2 ^ 31 + 2 ^ 64 + 0x3FF80 * 2 ^ 96) })

theorem witness_CopiesIssue : copier.cur = some th0 ∧ legalSrc 3 = true ∧ copier.read 3 noPend = .ok (0x40020000, noPend) ∧ th0.cnt.cp < 120 ∧
    copier.couchLoad copier.curCore < 120 ∧ copier.allSettled copier.curCore copier.curSlot = true ∧ legalSrc 1 = true ∧
    copier.read 1 noPend = .ok (5, noPend) ∧ copier.spadDecode th0 ((0x40020000 : Word).setWidth 32) 8 = .ok (copier.curCore, 0x20000) ∧
    0x20000 % 8 = 0 ∧ copier.localRead copier.curCore 0x20000 8 = .ok (leBytes 8 0x301) ∧
    0x20000 + (32 + 24 * (leNat (leBytes 8 0x301) % 16)) ≤ 0x40000 ∧
    copier.localRead copier.curCore 0x20000 (32 + 24 * (leNat (leBytes 8 0x301) % 16)) = .ok descr ∧
    (CopyDescr.ofBytes descr).checked (copier.vdOf th0) (some copier.curCore) = .ok [⟨true, 0x1000, true, 0x1080, 1, 0x1000⟩] ∧
    copier.read 42 noPend = .ok (0, noPend) ∧ (0 : Word).toNat ≤ 255 ∧
    planSegment (copier.core copier.curCore).plan 0 256 = some [⟨128, true, 0, 1, 0x3FF80, true⟩] ∧
    copier.planBad copier.curCore 0 1 = false ∧ copier.readWaits (spadLocs 0 0x20000 8) = false ∧
    (∀ l ∈ spadLocs 0 0x20000 8, copier.poisoned l = false) ∧ (∀ r ∈ [(⟨128, true, 0, 1, 0x3FF80, true⟩ : PlanRec)], r.legal (copier.node th0.node) (copier.vdOf th0) = true) ∧ 255 < (256 : Word).toNat := by
  and_intros <;> first | decide +kernel | exact ok_of (by decide +kernel)

theorem witness_CopiesIssue_one : (CopyDescr.ofBytes descr).formed = true ∧ (CopyDescr.ofBytes descr).sg = true ∧ (CopyDescr.ofBytes descr).dg = true ∧
    (CopyDescr.ofBytes descr).dims = [(1, 0, 0)] ∧ (CopyDescr.ofBytes descr).src + 1 ≤ 2 ^ 47 ∧ (CopyDescr.ofBytes descr).dst + 1 ≤ 2 ^ 47 ∧
    (CopyDescr.ofBytes descr).checked (copier.vdOf th0) none = .ok [⟨true, 0x1000, true, 0x1080, 1, 0x1000⟩] := by
  and_intros <;> first | decide +kernel | exact ok_of (by decide +kernel)

/-- A copy in flight. -/
def copyOp (c : Copy) : Op := ⟨0, 0, 0, .cp, 0, [.en], .thread, .copy c⟩
def copying (c : Copy) : State := { base with ops := [(0, copyOp c)], nextOp := 1 }
def one : Loc := (places 1).headD ⟨true, 0⟩
def other : Loc := { one with key := one.key + 0x80 }
def fresh1 : Copy := ⟨false, [⟨true, 0x1000, true, 0x1080, 1, 0x1000⟩], false, [], [], [], [], none, []⟩
def gone1 : Copy := ⟨false, [⟨true, 0x2000, true, 0x1080, 1, 0x2000⟩], false, [], [], [], [], none, []⟩
def last1 : Copy := ⟨false, [], true, [[(other, 5)]], [[one]], [0], [1], none, []⟩
def done1 : Copy := ⟨false, [], true, [], [], [], [], none, []⟩
def bad1 : Copy := ⟨false, [], true, [], [], [], [], some 0x1000, []⟩

theorem witness_CopiesRegisterAndMove : (∀ c ∈ [fresh1, gone1, last1, done1, bad1], tabGet (copying c).ops 0 = some (copyOp c) ∧
      (copying c).away (copyOp c) = false ∧ (copying c).thread 0 0 = some th0) ∧
    fresh1.runs.mapM ((copying fresh1).runPairs ((copying fresh1).node 0)) = .ok [[(one, other, 0x1000)]] ∧
    [[(one, other, (0x1000 : Word))]].mapM ((copying fresh1).homePairs 0) = some [[(one, other, 0x1000)]] ∧
    (copying fresh1).held one = false ∧ (copying fresh1).held other = false ∧ (copying fresh1).poisoned one = false ∧
    (copying fresh1).readHeld other = false ∧ (copying fresh1).nodeHolds 0 false [one] = false ∧ (copying fresh1).nodeHolds 0 true [other] = false ∧
    gone1.runs.mapM ((copying gone1).runPairs ((copying gone1).node 0)) = .error (.translation, 0x2000) ∧ ((copying gone1).node 0).copy = none ∧
    (copying last1).homeLocs 0 [other] = some [other] ∧ done1.err = none := by
  and_intros <;> first | decide +kernel | exact ok_of (by decide +kernel) | exact err_of (by decide +kernel)

/-! ## Witnesses: collectives and fabric -/

/-- Core 0 and core 1 in group 1 of the node, alone in group 2, with three members in group 3; FMT is FP32, and SIGD a frame of one letter and
one level at 0x20000 and 0x20100. -/
def member : State :=
  let s := withTh (fun th => { th with fmt := 11, sigd := 0x000100001101 })
  let t : State := { s with nodes := [(0, { fetchNode with hHi := 1, groups := [(1, ⟨[0, 1], 0⟩), (2, ⟨[0], 0⟩), (3, ⟨[0, 1, 2], 0⟩)] })] }
  regs (t.modCore 0 (fun k => { k with groups := [1, 2, 3] })) [(9, 0x40020100)]
def memberTh : Thread := (member.cur).getD th0

theorem witness_CollectivesIssue : member.cur = some memberTh ∧ legalVSrc 15 = true ∧ member.readVec 15 noPend = .ok (0, noPend) ∧
    ((0 : Code).toNat < 16 ∨ (0 : Code) = 42) ∧ ((42 : Code).toNat < 16 ∨ (42 : Code) = 42) ∧ combFmtOk .wrap (effective memberTh 0) = true ∧
    wideFmtOk (effective memberTh 0) = true ∧ Fmt.ofCode (effective memberTh 0) = some (.flt fp32) ∧
    ((member.node memberTh.node).desc.hLo ≤ 0 ∧ 0 ≤ (member.node memberTh.node).desc.hHi) ∧
    member.collMembers memberTh 0 = none ∧ member.collMembers memberTh 3 = some [0, 1, 2] ∧ member.collMembers memberTh 1 = some [0, 1] ∧
    collDivides .agth = true ∧ elemCount (Fmt.width (.flt fp32)) % 3 ≠ 0 ∧ elemCount (Fmt.width (.flt fp32)) % 2 = 0 ∧
    member.collMembers memberTh 2 = some [0] ∧ 0 + (member.vdOf memberTh).qbase ∈ [0, 1] ∧ memberTh.cnt.cr < 6 ∧
    member.allSettled member.curCore member.curSlot = true ∧ memberTh.owes (.v 15) = false := by
  and_intros <;> first | decide +kernel | exact ok_of (by decide +kernel)

/-- A root that is in the node's range and no member of the group. -/
theorem witness_CollectivesIssue_root : ∃ s : State, s.collMembers ((s.cur).getD th0) 4 = some [0] ∧
    (s.node ((s.cur).getD th0).node).desc.hLo ≤ 1 ∧ 1 ≤ (s.node ((s.cur).getD th0).node).desc.hHi ∧ 1 + (s.vdOf ((s.cur).getD th0)).qbase ∉ [0] :=
  ⟨({ member with nodes := [(0, { fetchNode with
      desc := { fetchNode.desc with hHi := 1 }
      hHi := 1
      groups := [(4, ⟨[0], 0⟩)] })] } : State).modCore 0 (fun k => { k with groups := [4] }), by decide +kernel⟩

theorem witness_CollectivesIssue_ored : legalSrc 3 = true ∧ legalSrc 9 = true ∧ member.read 3 noPend = .ok (0x40020000, noPend) ∧
    member.read 9 noPend = .ok (0x40020100, noPend) ∧ member.wmAddr memberTh 0x40020000 = .ok 0x20000 ∧
    member.wmAddr memberTh 0x40020100 = .ok 0x20100 ∧ 0 + (member.vdOf memberTh).qbase ∈ [0, 1] ∧
    member.frameCheck (Sig.of memberTh.sigd) [(0x20000, (Sig.of memberTh.sigd).bytes), (0x20100, (Sig.of memberTh.sigd).bytes)]
      (Range.meets (0x20000, (Sig.of memberTh.sigd).bytes) (0x20100, (Sig.of memberTh.sigd).bytes)) false 0 = .ok () := by
  and_intros <;> first | decide +kernel | exact ok_of (by decide +kernel)

def collOf (r : Option (Vec × Option (Trap × Nat × Word))) : Coll := ⟨.agth, 0, 11, .wrap, 1, 0, 0, 0, 0, 0, .v 15, [0, 1], 0, r⟩
def collOp (c : Coll) : Op := ⟨0, 0, 0, .cr, 0, [.xr], .thread, .coll c⟩
def joining (c : Coll) : State := { member.setThread 1 0 memberTh with ops := [(0, collOp c)], nextOp := 1 }

theorem witness_CollectivesDeliver : (∀ r ∈ [none, some (5, none), some (0, some (Trap.collective, 4, 0))],
      tabGet (joining (collOf r)).ops 0 = some (collOp (collOf r)) ∧ (joining (collOf r)).away (collOp (collOf r)) = false ∧
      (joining (collOf r)).thread 0 0 = some memberTh ∧ (joining (collOf r)).olderColl 0 (collOp (collOf r)) 1 = false ∧
      (joining (collOf r)).anyHeldW ((joining (collOf r)).destLocs (collOp (collOf r)) (.v 15)) = false ∧ canonicalB (joining (collOf r)) = true) ∧
    ((joining (collOf none)).resolveColl 0 ((joining (collOf none)).vd ((joining (collOf none)).node 0).vd).qbase (collOf none)).isNone = true ∧
    ({ joining (collOf none) with ops := [(0, collOp (collOf none)), (1, collOp (collOf none))] } : State).olderColl 1 (collOp (collOf none)) 1 = true := by
  decide +kernel

/-- Both members have issued, or the second disagrees, or it has left. -/
def bothOf (c d : Coll) : State := { joining c with ops := [(0, collOp c), (1, { collOp d with core := 1 })], nextOp := 2 }
def foundOf (c d : Coll) : List (Nat × Nat × Op × Coll) := [(0, 0, collOp c, c), (1, 1, { collOp d with core := 1 }, d)]
def leftAlone : State := { member with ops := [(0, collOp (collOf none))], nextOp := 1 }

theorem witness_CollectivesDeliver_resolve : (bothOf (collOf none) (collOf none)).collFound 0 (collOf none) = some (foundOf (collOf none) (collOf none)) ∧
    ((foundOf (collOf none) (collOf none)).map (fun x => x.2.1)).Nodup ∧
    (∀ x ∈ foundOf (collOf none) (collOf none), x.2.2.2.agrees (collOf none) = true) ∧ (collOf none).members.length ≤ 2 ∧
    (collOf none).op ≠ .ored ∧ Fmt.ofCode (collOf none).fmt = some (.flt fp32) ∧
    (foundOf (collOf none) (collOf none))[1]? = some (1, 1, { collOp (collOf none) with core := 1 }, collOf none) ∧
    (bothOf (collOf none) { collOf none with fmto := 1 }).collFound 0 (collOf none) = some (foundOf (collOf none) { collOf none with fmto := 1 }) ∧
    (∃ x ∈ foundOf (collOf none) { collOf none with fmto := 1 }, x.2.2.2.agrees (collOf none) = false) ∧
    leftAlone.collFound 0 (collOf none) = some [(0, 0, collOp (collOf none), collOf none)] ∧
    [(0, 0, collOp (collOf none), collOf none)].length < (collOf none).members.length := by
  and_intros <;> decide +kernel

/-- ORED of the two members' frames of one letter and one level. -/
def oredC : Coll := ⟨.ored, 0, 0, .wrap, 1, 0, 0x000100001101, 0, 0x20000, 0x20100, .none, [0, 1], 0, none⟩
def oredS : State := bothOf oredC oredC
def oredLs : List Loc := oredKeys (Sig.of oredC.sigd) (0, oredC) ++ oredKeys (Sig.of oredC.sigd) (1, oredC)
def oredT : State := oredS.frameStore 0 0 oredC.area (oredS.frameBytes 0 1 oredC.frame (Sig.of oredC.sigd).bytes)

theorem witness_CollectivesDeliver_ored : oredS.collFound 0 oredC = some (foundOf oredC oredC) ∧ oredC.op = .ored ∧
    (∀ x ∈ foundOf oredC oredC, x.2.2.2.agrees oredC = true) ∧ (0 : Nat) = oredC.root + 0 ∧ oredS.homeLocs 0 oredLs = some oredLs ∧
    oredS.anyHeldW oredLs = false ∧ oredS.nodeHolds 0 true oredLs = false ∧
    (wmJoin (Sig.of oredC.sigd) (oredT.memberSrc 0 0) oredC.frame oredC.frame oredC.area).bad = none := by
  decide +kernel

theorem witness_CollectivesDeliver_elements : (∀ w ∈ [8, 64], w ∈ [8, 16, 32, 64]) ∧ 15 < 1024 / 64 ∧ 127 < 1024 / 8 ∧
    [(0 : Vec), 1].length ∣ 1024 / 64 ∧ 0 < [(0 : Vec), 1].length ∧ (∀ n ∈ [8, 64], Fmt.int n ∈ [Fmt.int 8, .int 16, .int 32, .int 64]) ∧
    2 * 7 + 1 < 1024 / 64 ∧ (CollMode.comp ∉ [CollMode.maxi, .mini]) ∧ [0, 1] ≠ ([] : List Nat) ∧ [(0, 1)] ≠ ([] : List (Nat × Nat)) := by
  decide +kernel

/-- Two numbers with a finite sum: 1.0 and 1.0. -/
def isFin (x : Ext) : Bool :=
  match x with
  | .fin _ _ _ => true
  | _ => false

theorem witness_CollectivesDeliver_comp : ∃ sg m e, fp32.decode (addEnc 0x3F800000 0x3F800000) = .fin sg m e := by
  have h : isFin (fp32.decode (addEnc 0x3F800000 0x3F800000)) = true := by decide +kernel
  generalize fp32.decode (addEnc 0x3F800000 0x3F800000) = z at h ⊢
  cases z with
  | fin sg m e => exact ⟨sg, m, e, rfl⟩
  | nan => simp [isFin] at h
  | inf _ => simp [isFin] at h

/-- Virtual device 0 bound to device 5's virtual device 2, with its context in the table; w10 a control word for 8 bytes of the own scratchpad. -/
def bound : State :=
  let s := { base with vds := base.vds.set 0 { base.vd 0 with bind := [(5, 2)] } }
  regs s [(10, 0x8000005), (11, 0x10008000005)]

theorem witness_FabricPrimitivesIssue : bound.cur = some th0 ∧ legalSrc 3 = true ∧ legalSrc 42 = true ∧ legalSrc 10 = true ∧
    bound.read 3 noPend = .ok (0x40020000, noPend) ∧ bound.read 42 noPend = .ok (0, noPend) ∧ bound.read 10 noPend = .ok (0x8000005, noPend) ∧
    bound.read 1 noPend = .ok (5, noPend) ∧ fabCtl .radd 5 = none ∧ fabCtl .get 5 = none ∧ th0.cnt.cr < 6 ∧
    bound.allSettled bound.curCore bound.curSlot = true ∧ (∀ p ∈ [FabricOp.puts, .get, .radd, .apnd], fabCtl p 0x8000005 = some ⟨8, false, 5⟩ ∧
      fabOk (bound.vdOf th0) p (some ⟨8, false, 5⟩) 0 = true) ∧
    (∀ p ∈ [FabricOp.puts, .get, .apnd], okIs (bound.fabLocal th0 p false 0x40020000 8) (spadLocs 0 0x20000 8) = true) ∧
    (0 : Word).toNat % 8 = 0 ∧ legalDst 1 = true ∧ th0.canTake (th0.dest (scalarDest 1)) 1 = true := by
  and_intros <;> first | decide +kernel | exact ok_of (by decide +kernel)

/-- Control words at R288's limits: a reserved bit, no length, lengths of APND above 4,096 and below 8, RADD's other than 8; a device that is not bound;
a service request of the wrong form. -/
theorem witness_FabricPrimitivesIssue_cause : ¬ ctlOk .puts 0 ∧ ¬ ctlOk .get 0x8020005 ∧ ¬ ctlOk .radd 0x7000005 ∧ ¬ ctlOk .apnd 0x1008000005 ∧
    ¬ ctlOk .apnd 0x4000005 ∧ ctlOk .puts 0x8000005 ∧ ctlOk .get 0x8000005 ∧ ctlOk .radd 0x8000005 ∧ ctlOk .apnd 0x1000000005 ∧
    badService 0xFFFFFF0000010000 0x10000005 ∧ badService 0xFFFFFF0000000000 0x8000005 ∧ ¬ badService 0xFFFFFF0000000000 0x10000005 := by
  simp only [ctlOk, badService]
  decide +kernel

theorem witness_FabricPrimitivesIssue_device : tabGet (bound.vdOf th0).bind (wordField 0x8000005 0 10) = some 2 ∧
    tabGet (bound.vdOf th0).bind (wordField 0x8000006 0 10) = none := by decide +kernel

/-- Requests of device 5 to virtual device 0, the table's binding checked, of an 8-byte word at 0x1000, its signal at 0x1008, and of a page that is not there. -/
def word1 : List Loc := places 8
def word2 : List Loc := (places 16).drop 8

/-- The same with a port up toward device 5, and with its lane 1 paused. -/
def lane : State := { bound with route := [(5, 0x8000)], ports := [(0, { Port.reset with up := true })] }
def paused : State := { lane with ports := [(0, { Port.reset with up := true, paused := Vector.replicate 4 true })] }
def raddReq : FabricReq := ⟨0, 2, .radd, 0x1000, leBytes 8 5, 8, none, none⟩

theorem witness_FabricRequestsAndAcks : raddReq.op = none ∧ raddReq.dstVd < 8 ∧ lane.bound 0 5 2 = true ∧ lane.bound 0 6 2 = false ∧
    bound.portTo 5 = none ∧ paused.portTo 5 = some 0 ∧ paused.lanePaused 0 1 = true ∧ lane.behind (.fabricRequest 5 raddReq) = false ∧
    ({ lane with inbox := [.fabricRequest 5 raddReq] } : State).behind (.fabricRequest 5 raddReq) = true ∧
    lane.vaLocs 0 (lane.lowCtx 0) 0x1000 8 ⟨false, true, false⟩ = .ok word1 ∧ lane.anyHeldW word1 = false ∧ lane.Canonical ∧ word2.Nodup ∧
    word2.length = 8 ∧ (∀ l ∈ word2, l.glob = true ∧ l ∉ word1) ∧ lane.vaLocs 0 (lane.lowCtx 0) 0x1008 8 ⟨true, true, false⟩ = .ok word2 ∧
    lane.anyHeldW (word1 ++ word2) = false ∧ lane.vaLocs 0 (lane.lowCtx 0) 0x1000 8 ⟨true, false, false⟩ = .ok word1 ∧ lane.anyHeld word1 = false ∧
    word1.Nodup ∧ word1.length = 8 ∧ (∀ l ∈ word1, l.glob = true) ∧ lane.vaLocs 0 (lane.lowCtx 0) 0x1000 8 ⟨true, true, false⟩ = .ok word1 ∧
    lane.vaLocs 0 (lane.lowCtx 0) 0x2000 8 ⟨true, false, false⟩ = .error (.tfault, 0x2000) ∧
    lane.vaLocs 0 (lane.lowCtx 0) 0x2000 8 ⟨true, true, false⟩ = .error (.tfault, 0x2000) := by
  and_intros <;> first | decide +kernel | exact ok_of (by decide +kernel) | exact err_of (by decide +kernel) | exact canonical_of (by decide +kernel)

/-- A list's header at 0x1000, of capacity 2: its tail below the bound and at it; rows of 8 bytes from 0x1040. -/
def headed (tail : Nat) : State := { lane with dram := putIa (lane.vd 0) lane.dram 0x6000 (leBytes 8 tail ++ leBytes 8 0x1040 ++ leBytes 8 2) }
def apndReq : FabricReq := ⟨0, 2, .apnd, 0x1000, leBytes 8 5, 8, none, none⟩

theorem witness_FabricRequestsAndAcks_apnd : (∀ n ∈ [1, 2], canonicalB (headed n) = true ∧ (headed n).bound 0 5 2 = true ∧
      (headed n).behind (.fabricRequest 5 apndReq) = false ∧
      okIs ((headed n).vaLocs 0 ((headed n).lowCtx 0) 0x1000 8 ⟨true, true, false⟩) word1 = true ∧
      okIs ((headed n).vaLocs 0 ((headed n).lowCtx 0) 0x1008 16 ⟨true, false, false⟩) ((places 24).drop 8) = true ∧
      (headed n).anyHeldW word1 = false ∧ (headed n).anyHeld ((places 24).drop 8) = false ∧ (headed n).locsNat word1 = n ∧
      (headed n).locsNat (((places 24).drop 8).take 8) = 0x1040 ∧ (headed n).locsNat (((places 24).drop 8).drop 8) = 2) ∧
    okIs ((headed 1).vaLocs 0 ((headed 1).lowCtx 0) 0x1048 8 ⟨false, true, false⟩) ((places 80).drop 72) = true ∧
    (headed 1).anyHeldW ((places 80).drop 72) = false ∧ word1.Nodup := by
  and_intros <;> decide +kernel

theorem lane_open (l : Nat) (h : l < 4) : lane.laneOpen 5 l :=
  ⟨0, by decide +kernel, by
    match l, h with
    | 0, _ => decide +kernel
    | 1, _ => decide +kernel
    | 2, _ => decide +kernel
    | 3, _ => decide +kernel, by
    have e : lane.egress = [] := by decide +kernel
    simp [e]⟩

def fabOf (p : FabricOp) : Fab := ⟨p, 5, 8, false, 0x40020000, 0, none, 0, .none, [], true⟩
def fabOpOf (p : FabricOp) : Op := ⟨0, 0, 0, .cr, 0, [.xr], .system, .fab (fabOf p)⟩
def sentFab (p : FabricOp) : State := { bound with ops := [(0, fabOpOf p)], nextOp := 1 }

theorem witness_FabricRequestsAndAcks_ack : (∀ p ∈ [FabricOp.radd, .get], tabGet (sentFab p).ops 0 = some (fabOpOf p) ∧ (fabOf p).sent = true ∧
      (sentFab p).away (fabOpOf p) = false ∧ (sentFab p).thread 0 0 = some th0 ∧ (fabOf p).dest = .none ∧ (fabOf p).lg = false) ∧
    (sentFab .get).fabRange (fabOpOf .get) (fabOf .get) = some (spadLocs 0 0x20000 8) ∧
    (sentFab .get).fabWaits (fabOpOf .get) (fabOf .get) true = false ∧
    (sentFab .get).homeLocs 0 (spadLocs 0 0x20000 8) = some (spadLocs 0 0x20000 8) ∧
    ((sentFab .radd).vd ((sentFab .radd).node 0).vd).resetPeers = [] ∧
    5 ∈ (({ sentFab .radd with vds := (sentFab .radd).vds.set 0 { (sentFab .radd).vd 0 with resetPeers := [5] } } : State).vd
      ((sentFab .radd).node 0).vd).resetPeers := by
  decide +kernel

/-- GET into global memory at 0x1000, and at 0x2000, whose page is not there. -/
def getG (a : Word) : Fab := { fabOf .get with lg := true, loc := a }
def getOp (a : Word) : Op := ⟨0, 0, 0, .cr, 0, [.xr], .system, .fab (getG a)⟩
def getS (a : Word) : State := { bound with ops := [(0, getOp a)], nextOp := 1 }

theorem witness_FabricRequestsAndAcks_global : tabGet (getS 0x1000).ops 0 = some (getOp 0x1000) ∧ (getS 0x1000).away (getOp 0x1000) = false ∧
    (getS 0x1000).fabRange (getOp 0x1000) (getG 0x1000) = some word1 ∧ (getS 0x1000).ackFault (getOp 0x1000) (getG 0x1000) = none ∧
    (getS 0x1000).fabWaits (getOp 0x1000) (getG 0x1000) true = false ∧
    ((getS 0x2000).ackFault (getOp 0x2000) (getG 0x2000)).map (·.2) = some 0x2000 := by decide +kernel

/-- APND that owes its index to a register, a register of the handler bank, and a queue. -/
theorem witness_FabricRequestsAndAcks_index : ∀ e ∈ [Dest.w 31, .h 31, .sq 1], ∀ f ∈ [{ fabOf .apnd with dest := e }], ∀ o ∈ [{ fabOpOf .apnd with kind := .fab f }],
    ∀ s ∈ [({ bound with ops := [(0, o)], nextOp := 1 } : State)], tabGet s.ops 0 = some o ∧ f.sent = true ∧ s.away o = false ∧
      s.thread o.core o.slot = some th0 ∧ canonicalB s = true ∧ (∀ x ∈ s.late, x.next ≤ 0) := by decide +kernel

/-! ## Witnesses: vectors -/

/-- FMT is int32, w6 a KS24 scale of 1.0, m1 on in its first 64 lane bytes. -/
def vecs : State :=
  (withTh (fun th => { th with fmt := 4 })).setM 1 0xFFFFFFFFFFFFFFFF
def vecTh : Thread := (vecs.cur).getD th0

theorem witness_VectorElementwiseResults : vecs.cur = some vecTh ∧ legalVDst 15 = true ∧ legalVSrc 0 = true ∧
    vecs.readVec 0 noPend = .ok (0, noPend) ∧ vecs.readVec 42 noPend = .ok (0, noPend) ∧ legalVSrc 42 = true ∧
    (∀ e ∈ vectorUnaries, e.2.2.1 (effective vecTh 11) = true) ∧ Fmt.ofCode (effective vecTh 11) = some (.flt fp32) ∧
    (∀ e ∈ vectorBinaries, e.2.2.2.1 (effective vecTh 0) = true) ∧ Fmt.ofCode (effective vecTh 0) = some (.int 32) ∧
    anyFmtOk (effective vecTh 1) = true ∧ anyFmtOk (effective vecTh 16) = true ∧ Fmt.ofCode (effective vecTh 16) = some (.flt e2m1) ∧
    legalSrc 1 = true ∧ vecs.read 1 noPend = .ok (5, noPend) ∧ Fmt.ofCode (BitVec.toNat (w := 5) 16) = some (.flt e2m1) ∧
    (vecs.writeVec 15 0).isSome = true ∧ (queues.writeVec 41 0).isSome = true := by
  and_intros <;> first | decide +kernel | exact ok_of (by decide +kernel)

theorem witness_VectorIntegerElements : vecs.cur = some vecTh ∧ (15 : Code).toNat < 16 ∧ legalVSrc 0 = true ∧ legalVSrc 42 = true ∧
    vecs.readVec 0 noPend = .ok (0, noPend) ∧ vecs.readVec 42 noPend = .ok (0, noPend) ∧ vecTh.owes (.v 15) = false ∧ 32 ∈ [8, 16, 32, 64] ∧
    Fmt.ofCode (effective vecTh 0) = some (.int 32) ∧ Fmt.ofCode (effective vecTh 2) = some (.int 8) ∧
    Fmt.ofCode (effective vecTh 5) = some (.int 64) := by
  and_intros <;> first | decide +kernel | exact ok_of (by decide +kernel)

theorem witness_VectorBitsComparesAndMasks : vecs.cur = some vecTh ∧ legalVSrc 0 = true ∧ vecs.readVec 0 noPend = .ok (0, noPend) ∧
    legalVDst 15 = true ∧ (vecs.writeVec 15 0).isSome = true ∧ legalVSrc 42 = true ∧ vecs.readVec 42 noPend = .ok (0, noPend) ∧
    (∀ j < 128, ((0 : Vec).extractLsb' (8 * j) 8) = if (vecs.laneMask true 1).getLsbD j = true then ((0 : Vec) &&& 0).extractLsb' (8 * j) 8
      else (vecs.oldVec 15).extractLsb' (8 * j) 8) ∧ anyFmtOk (effective vecTh 0) = true ∧ wideFmtOk (effective vecTh 0) = true ∧
    Fmt.ofCode (effective vecTh 0) = some (.int 32) ∧ legalNum 7 = true ∧ legalNum 0 = true := by
  and_intros <;> first | decide +kernel | exact ok_of (by decide +kernel)

theorem witness_VectorReductionsAndMoves : vecs.cur = some vecTh ∧ legalVDst 15 = true ∧ legalVSrc 0 = true ∧ legalVSrc 42 = true ∧
    vecs.readVec 0 noPend = .ok (0, noPend) ∧ vecs.readVec 42 noPend = .ok (0, noPend) ∧ (∀ e ∈ vectorReductions, e.2.2.1 (effective vecTh 0) = true) ∧
    Fmt.ofCode (effective vecTh 0) = some (.int 32) ∧ wideFmtOk (effective vecTh 0) = true ∧ legalSrc 1 = true ∧
    vecs.read 1 noPend = .ok (5, noPend) ∧ vecs.read 2 noPend = .ok (7, noPend) ∧ anyFmtOk (effective vecTh 0) = true ∧
    packOk (effective vecTh 0) (BitVec.toNat (w := 5) 13) = true ∧ Fmt.ofCode (BitVec.toNat (w := 5) 13) = some (.flt bf16) ∧
    unpackOk (effective vecTh 0) (BitVec.toNat (w := 5) 5) = true ∧ Fmt.ofCode (BitVec.toNat (w := 5) 5) = some (.int 64) ∧ legalVBoth 15 = true ∧
    legalDst 1 = true ∧ (vecs.writeVec 15 0).isSome = true ∧ (vecs.write 1 0).isSome = true := by
  and_intros <;> first | decide +kernel | exact ok_of (by decide +kernel)

/-- Lanes of which one takes part, and lanes of which none does; operands at the ends of INT4 and of FP4. -/
theorem witness_VectorReductionsAndMoves_values : ([none, some 15] : List (Option Nat)).length = 2 ^ 1 ∧ (∃ x, some x ∈ ([none, some 15] : List (Option Nat))) ∧
    (∀ x ∈ ([none, none] : List (Option Nat)), x = none) ∧ (∀ x, some x ∈ ([none, some 15] : List (Option Nat)) → x < 2 ^ (Fmt.int 4).width) ∧
    Fmt.int 4 ∈ intFmts ∧ 15 < 2 ^ (Fmt.uint 4).width ∧ (∃ l ∈ layouts, l.fmt = e2m1 ∧ 15 < 2 * l.half) := by
  refine ⟨by decide, ⟨15, by decide⟩, by decide, ?_, by decide, by decide, ⟨e2m1, 16, 2, 1, 1, 7, none, 0⟩, ?_, rfl, by decide⟩
  · intro x h
    have h' : x = 15 := by simpa using h
    subst h'
    decide
  · simp [layouts]

theorem witness_VectorFrame : (∃ t, exec (.vadd 1 0 0) vecs = .next t) ∧ (∃ t, exec (.vcmp .eq 1 0 0) vecs = .next t) ∧
    (∃ t, exec (.vext 1 0 2) vecs = .next t) := by
  and_intros <;> exact next_of (by decide +kernel)


/-! ## Witnesses: the Press and the Watermark unit -/

/-- A shape record of 07 R195 for `rows` rows of one element, one after the other, of format f. -/
def record (base rows cols f : Nat) : Nat := base + 4 * 2 ^ 32 + 2 ^ 64 + rows * 2 ^ 80 + cols * 2 ^ 96 + f * 2 ^ 112

/-- s0 is a 1 × 1 FP32 matrix at 0x20000, s1 one at 0x20004, s2 one of no rows, s3 a frame of format 1, s4 a matrix at 0x20002; v1 picks row 0
thirty-two times. -/
def presser : State :=
  let s := [record 0x40020000 1 1 11, record 0x40020004 1 1 11, record 0x40020000 0 1 11, record 0x40020000 16 16 1 + 2 * 2 ^ 119,
    record 0x40020002 1 1 11].zipIdx.foldl (fun s (x, i) => s.wsWrite (2432 + 32 * i) 32 x) base
  ({ s with spad := memPut s.spad 0x20000 (leBytes 4 0x3F800000 ++ leBytes 4 0x40000000) } : State)

def workAB : Work := pmmWork ((List.range 1).map some) false false true false (presser.getS 0) (presser.getS 1) 0 presser
def workG : Work := pmmWork (gatherRows 0 1) false false true false (presser.getS 0) (presser.getS 1) 0 presser
def freeB (w : Work) : Bool :=
  decide (th0.cnt.pr < 14) && decide ((presser.core presser.curCore).press.length < 16) &&
    presser.allSettled presser.curCore presser.curSlot && !presser.anyHeld (spadPlaces w.reads) && !presser.anyHeldW (spadPlaces w.writes) &&
    !th0.owesLocs presser.curCore (spadPlaces (w.reads ++ w.writes))

theorem free_of {w : Work} (h : freeB w = true) : presser.pressFree th0 w := by
  simp only [freeB, Bool.and_eq_true, decide_eq_true_eq, Bool.not_eq_true', and_assoc] at h; exact h

theorem witness_PressInstructionsAreAccepted : presser.cur = some th0 ∧ legalNum 7 = true ∧ legalSrc 1 = true ∧
    presser.read 1 noPend = .ok (5, noPend) ∧ namesNoFrame 0 (presser.shape 0 0) (presser.shape 1 0) = false ∧
    pairCause .a false (presser.shape 0 0) (presser.shape 1 0) false = none ∧
    presser.shapeAddrs th0 [(presser.shape 0 0, ((((List.range (presser.shape 0 0).rows).map some)).filterMap id).eraseDups),
      (presser.shape 1 0, List.range (presser.shape 1 0).rows)] false = .ok () ∧ presser.pressFree th0 workAB ∧
    presser.shapeAddrs th0 [(presser.shape 0 0, ((((List.range (presser.shape 0 0).rows).map some)).filterMap id).eraseDups),
      (presser.shape 4 0, List.range (presser.shape 4 0).rows)] false = .error (.misaligned, 0, 0x40020002) ∧
    pairCause .a false (presser.shape 0 0) (presser.shape 4 0) false = none ∧
    pairCause .a false (presser.shape 2 0) (presser.shape 1 0) false = some 1 ∧ namesNoFrame 0 (presser.shape 2 0) (presser.shape 1 0) = false ∧
    namesNoFrame 11 (presser.shape 3 11) (presser.shape 1 11) = true ∧ presser.readVec 0 noPend = .ok (0, noPend) ∧
    pairCause .gather false (presser.shape 0 0) (presser.shape 1 0) (gatherBad 0 1) = none ∧ (presser.shape 0 0).rows = 1 ∧
    presser.shapeAddrs th0 [(presser.shape 0 0, ((gatherRows 0 1).filterMap id).eraseDups),
      (presser.shape 1 0, List.range (presser.shape 1 0).rows)] false = .ok () ∧ presser.pressFree th0 workG ∧
    pairCause .gather false (presser.shape 2 0) (presser.shape 1 0) (gatherBad 0 0) = some 1 := by
  and_intros <;> first | decide +kernel | exact ok_of (by decide +kernel) | exact err_of (by decide +kernel) | exact free_of (by decide +kernel)

theorem witness_PressInstructionsAreAccepted_tiles : (presser.shape 0 0).ownCause .tile false = none ∧
    (presser.shape 2 0).ownCause .tile false = some 1 ∧
    presser.shapeAddrs th0 [(presser.shape 0 0, List.range (presser.shape 0 0).rows)] false = .ok () ∧
    presser.shapeAddrs th0 [(presser.shape 0 0, List.range (presser.shape 0 0).rows)] true = .ok () ∧
    presser.pressFree th0 (pldaWork (presser.getS 0) 0 presser) ∧ presser.pressFree th0 (pstaWork true (presser.getS 0) 0 presser) ∧
    presser.pressFree th0 (tileWork .pz 2) ∧ presser.pressFree th0 (tileWork (.pcvt false) 16) := by
  and_intros <;> first | decide +kernel | exact ok_of (by decide +kernel) | exact free_of (by decide +kernel)

/-- A PMM of the two matrices into tile 7. -/
def pressOf (started : Option Nat) (err : Option Word) (bad : Bool) : PressOp :=
  ⟨0, 0, 0, 7, workAB.req, true, true, false, 4, 28, memOf presser.spad workAB.reads, [], 0, 0, workAB.reads, [], started, 0, 0, err, bad⟩
def pressing (op : PressOp) : State := presser.modCore 0 (fun k => { k with press := [op] })

theorem witness_PressOperationsComplete : ([pressOf none none false, pressOf (some 0) none false, pressOf (some 0) (some 0x40020000) false,
      pressOf (some 0) none true].all (fun op => decide (((pressing op).core 0).press = [op] ∧ op.id = 0 ∧ (pressing op).thread 0 op.slot = some th0 ∧
        op.ream = false ∧ ((pressing op).core 0).treeStopped (pressing op).clk = false ∧ 0 + op.left ≤ (pressing op).clk ∧ op.acc < 8 ∧
        (laneUnits 0 op.acc op.req.reads).any (pressing op).poisonT.contains = false ∧ op.req.lanes ≠ []))) = true ∧
    (((pressing (pressOf none none false)).modCore 0 (fun k => { k with stopAt := some 0 })).core 0).treeStopped 0 = true ∧
    (((pressing (pressOf none none false)).modCore 0 (fun k => { k with stopAt := some 0 })).core 0).press = [pressOf none none false] := by
  and_intros <;> decide +kernel

/-- A product of 1 × 1 FP32 matrices, its one block at the ends of both parts; records within the limits of a tile, in FP32 and INT8. -/
theorem witness_PressOperationsComplete_values : (((List.range 1).map some : List (Option Nat))).length ≤ 32 ∧ (recOf (presser.getS 1) 0).cols ≤ 32 ∧
    1 ≤ (recOf (presser.getS 0) 0).cols ∧ ((recOf (presser.getS 0) 0).fmt, 4) ∈ [(11, 4), (12, 16), (13, 16), (14, 32), (15, 32), (16, 32), (1, 32),
      (2, 32), (6, 32), (7, 32)] ∧ ((recOf (presser.getS 0) 2).fmt, 32) ∈ [(11, 4), (12, 16), (13, 16), (14, 32), (15, 32), (16, 32), (1, 32),
      (2, 32), (6, 32), (7, 32)] ∧ workAB.req.blocks = 1 ∧ (recOf (presser.getS 0) 0).rows ≤ 32 ∧ (recOf (presser.getS 0) 18).fmt = 18 ∧
    (recOf (presser.getS 0) 10).fmt ≤ 10 ∧ (recOf (presser.getS 0) 16).fmt ≤ 16 ∧ elemBits 16 = 4 ∧ 8 ≤ elemBits 18 := by decide +kernel

/-- SIGD of one letter and one level with its frame at 0x20000; w9 the word as an operand, w10 one with no letter, w11 the index word 0. -/
def marker : State := regs (withTh (fun th => { th with sigd := 0x000100001101, frb := 0x20000 })) [(9, 0x000100001101), (10, 0), (11, 0)]
def markerTh : Thread := (marker.cur).getD th0
def isOkAns : WmAns → Bool
  | .ok _ _ => true
  | _ => false
theorem okAns_of {a : WmAns} (h : isOkAns a = true) : ∃ op n, a = .ok op n := by cases a <;> simp_all [isOkAns]
def isBadAns : WmAns → Bool
  | .bad _ _ _ => true
  | _ => false
theorem badAns_of {a : WmAns} (h : isBadAns a = true) : ∃ k c x, a = .bad k c x := by cases a <;> simp_all [isBadAns]
def isHoldAns : WmAns → Bool
  | .hold => true
  | _ => false
theorem holdAns_of {a : WmAns} (h : isHoldAns a = true) : a = .hold := by cases a <;> simp_all [isHoldAns]
def wm0 : WmOp := ⟨0, 0, 0, noPend, .wmz, [], [], [], none, some (0x000100001101, 0x20000), none, [], none, some 0, 0, 0⟩

/-- The Press of the core writes the frame. -/
def heldFrame : State := marker.modCore 0 (fun k => { k with press := [{ pressOf none none false with writes := [0x20000] }] })

theorem witness_WatermarkInstructionsIssue : marker.cur = some markerTh ∧ legalDst 1 = true ∧ legalSrc 9 = true ∧ legalSrc 3 = true ∧
    (∃ op n, wmAnsOf (.wmcf 1 9 3) markerTh marker = .ok op n) ∧ (∃ op n, wmAnsOf .wmz markerTh marker = .ok op n) ∧
    (∃ op n, wmAnsOf (.wmst 3 42) markerTh marker = .ok op n) ∧ (∃ op n, wmAnsOf (.wmsn 3) markerTh marker = .ok op n) ∧
    (∃ op n, wmAnsOf (.wmjn 3 3) markerTh marker = .ok op n) ∧ (∃ op n, wmAnsOf (.wmlg 3 3) markerTh marker = .ok op n) ∧
    (∃ op n, wmAnsOf (.wmrd 1 11) markerTh marker = .ok op n) ∧ (marker.core marker.curCore).wm = none ∧ (marker.core marker.curCore).wmWait = [] ∧
    ((marker.modCore 0 (fun k => { k with wm := some wm0 })).core 0).wm ≠ none ∧ (∃ k c a, wmAnsOf (.wmcf 1 10 3) markerTh marker = .bad k c a) ∧
    heldFrame.cur = some markerTh ∧ wmAnsOf .wmz markerTh heldFrame = .hold ∧ (heldFrame.core heldFrame.curCore).wm = none ∧
    (heldFrame.core heldFrame.curCore).wmWait = [] := by
  and_intros <;> first | decide +kernel | exact okAns_of (by decide +kernel) | exact badAns_of (by decide +kernel) | exact holdAns_of (by decide +kernel)

theorem witness_WatermarkInstructionsIssue_wmcf : marker.read 9 noPend = .ok (0x000100001101, noPend) ∧ marker.read 3 noPend = .ok (0x40020000, noPend) ∧
    marker.wmAddr markerTh 0x40020000 = .ok 0x20000 ∧ (Sig.of 0).ok = false ∧ (Sig.of 0x000100001101).ok = true ∧
    0x20000 + (Sig.of 0x000100001101).bytes ≤ 0x3FC00 ∧ marker.onWorkspace (0x20000, (Sig.of 0x000100001101).bytes) = false ∧
    marker.mustWait marker.curCore marker.curSlot ⟨[.sl, .ss], .thread, true, false, [], none⟩ = false ∧ 0 ∈ (Sig.of 0x000100001101).idx 1 ∧
    (Sig.of 0x000100001101).lvl = 1 ∧ marker.read 11 noPend = .ok (0, noPend) ∧ Sig.of markerTh.sigd = Sig.of 0x000100001101 ∧
    marker.frameCheck (Sig.of 0x000100001101) [(markerTh.frb.toNat, (Sig.of 0x000100001101).bytes)] false false 0 = .ok () ∧
    wordField 0 56 8 = 0 ∧ wordField 0 0 56 = 0 := by
  and_intros <;> first | decide +kernel | exact ok_of (by decide +kernel)

/-- Letters 2, levels 2, the whole frame at 0x20000 and another at 0x20100, increments at 0x20200, a work area at 0x20300; w12 the index word of
level 2's last coefficient. -/
def signer : State := regs (withTh (fun th => { th with sigd := 0x000200002202, frb := 0x20000 }))
  [(9, 0x40020100), (10, 0x40020200), (11, 0x40020300), (12, 0x200000000000003), (13, 1)]
def signerTh : Thread := (signer.cur).getD th0
def goodAns : WmAns → Bool
  | .ok op _ => op.err.isNone
  | _ => false
def spoiltAns : WmAns → Bool
  | .ok op _ => op.err == some 0x20014
  | _ => false
theorem goodAns_of {a : WmAns} (h : goodAns a = true) : ∃ op n, a = .ok op n ∧ op.err = none := by cases a <;> simp_all [goodAns]
theorem spoiltAns_of {a : WmAns} (h : spoiltAns a = true) : ∃ op n, a = .ok op n ∧ op.err = some 0x20014 := by cases a <;> simp_all [spoiltAns]

theorem witness_WatermarkInstructionsIssue_values : (∃ op n, wmAnsOf .wmz signerTh signer = .ok op n ∧ op.err = none) ∧
    (∃ op n, wmAnsOf (.wmst 10 13) signerTh signer = .ok op n ∧ op.err = none) ∧ (∃ op n, wmAnsOf (.wmst 10 42) signerTh signer = .ok op n ∧ op.err = none) ∧
    (∃ op n, wmAnsOf (.wmsn 9) signerTh signer = .ok op n ∧ op.err = none) ∧ (∃ op n, wmAnsOf (.wmjn 9 9) signerTh signer = .ok op n ∧ op.err = none) ∧
    (∃ op n, wmAnsOf (.wmlg 9 11) signerTh signer = .ok op n ∧ op.err = none) ∧ (∃ op n, wmAnsOf (.wmrd 1 12) signerTh signer = .ok op n ∧ op.err = none) ∧
    (∃ op n, wmAnsOf (.wmrd 1 12) signerTh ({ signer with poisonS := [0x20014 / 8] } : State) = .ok op n ∧ op.err = some 0x20014) ∧
    signer.read 9 noPend = .ok (0x40020100, noPend) ∧ signer.read 12 noPend = .ok (0x200000000000003, noPend) ∧ wordField 0x200000000000003 56 8 = 2 ∧
    signer.read 13 noPend = .ok (1, noPend) ∧ signer.read 42 noPend = .ok (0, noPend) := by
  and_intros <;> first | exact goodAns_of (by decide +kernel) | exact spoiltAns_of (by decide +kernel) | exact ok_of (by decide +kernel) | decide +kernel

def queued : State := marker.modCore 0 (fun k => { k with wmWait := [(0, .wmz)] })
def completing (op : WmOp) : State := marker.modCore 0 (fun k => { k with wm := some op })

theorem witness_WatermarkUnitSteps : queued.thread 0 0 = some markerTh ∧ (queued.core 0).wm = none ∧ (queued.core 0).wmWait = [(0, .wmz)] ∧
    (∃ op n, wmAnsOf .wmz markerTh ((queued.modCore 0 (fun k => { k with wmWait := [] })).at 0 0) = .ok op n) ∧
    ([wm0, { wm0 with dest := some (31, 4) }, { wm0 with done := none }, { wm0 with err := some 0x20000 }].all (fun op =>
      decide ((completing op).thread 0 0 = some markerTh ∧ ((completing op).core 0).wm = some op ∧ op.slot = 0 ∧ op.bad = none ∧ op.writes = [] ∧
        (op.done = none ∨ op.done = some (completing op).clk) ∧ (completing op).late = []) && canonicalB (completing op))) = true ∧
    (31 : Code).toNat < 32 ∧ markerTh.handler = false ∧ markerTh.owes (.w (31 : Code).toNat) = false := by
  and_intros <;> first | decide +kernel | exact okAns_of (by decide +kernel)

/-! ## Witnesses: packets, moulds, the Headbox -/

/-- Queue 0 of virtual device 0 with its ring of 4 KiB at 0x1000; the word at 0x1000 is 0; nothing is mapped from 0x2000. -/
def packer : State := base.modQueue 0 0 (fun x => { x with ring := 0x1000 })
def held (h : Hold) : State := packer.modQueue 0 0 (fun x => { x with hold := some h })
/-- A copy that has still to move the word at 0x1000. -/
def copied : State :=
  { packer with ops := [(0, ⟨0, 0, 0, .cp, 0, [.en], .thread, .copy ⟨false, [], true, [(places 8).map (fun l => (l, 0))], [], [], [], none, []⟩⟩)] }
def deep : State := packer.modQueue 0 0 (fun x => { x with chain := List.replicate 4 ⟨0x1000, 2, 1⟩ })

theorem ctx_packer : packer.ctxOf 0 0 = 0 := by decide +kernel
theorem ctx_copied : copied.ctxOf 0 0 = 0 := by decide +kernel

theorem witness_PacketsHaveTheirEffects : (packer.queue 0 0).chain = [] ∧ packer.Canonical ∧ (places 8).Nodup ∧
    packer.anyHeldW ([places 4] : List (List Loc)).flatten = false ∧ packer.anyHeldW (places 8) = false ∧
    copied.pktLocs 0 0 0x1000 8 ⟨true, true, false⟩ = .ok (places 8) ∧ copied.anyHeldW (places 8) = true ∧ packer.pktLocs 0 0 (0x1000 + BitVec.ofNat 64 (4 * 0)) 4 ⟨false, true, false⟩ = .ok (places 4) ∧
    packer.pktLocs 0 0 (0x2000 + BitVec.ofNat 64 (4 * 0)) 4 ⟨false, true, false⟩ = .error (.tfault, 0x2000) ∧
    packer.pktLocs 0 0 0x1000 8 ⟨true, true, false⟩ = .ok (places 8) ∧ packer.anyHeld (places 8) = false ∧
    packer.pktLocs 0 0 0x1000 8 ⟨false, true, false⟩ = .ok (places 8) ∧ packer.pktLocs 0 0 0x1000 8 ⟨true, false, false⟩ = .ok (places 8) ∧
    (held (.value 0x1000 .ne 0 0)).pktLocs 0 0 0x1000 8 ⟨true, false, false⟩ = .ok (places 8) ∧
    BitVec.ofNat 64 (packer.locsNat (places 8)) = 0 ∧
    ((held .fence).queue 0 0).hold = some .fence ∧ (∀ e ∈ packer.nodes, e.2.vd ≠ 0 ∨ e.2.queue ≠ 63) ∧
    (∀ e ∈ (packer.vd 0).loads, e.2.queue ≠ 63) ∧ (∃ e ∈ packer.nodes, e.2.vd = 0 ∧ e.2.queue = 0) ∧
    (packer.queue 0 0).ring.toNat + 2 ^ (packer.queue 0 0).size ≤ 0x2000 ∧ 0xFFC + 4 * 1 ≤ (packer.queue 0 0).ring.toNat ∧
    (packer.queue 0 0).ring.toNat < 0x1FFC + 4 * 1 ∧ 0x1FFC < (packer.queue 0 0).ring.toNat + 2 ^ (packer.queue 0 0).size ∧
    4 ≤ (deep.queue 0 0).chain.length ∧ (∀ f ∈ (deep.queue 0 0).chain, f.next < f.words) ∧ (0x1000 : Word).toNat % 8 = 0 ∧
    wordField ((0xF0001002 : Word32).setWidth 64) 0 8 = 2 ∧ 6 < wordField ((0xF0001002 : Word32).setWidth 64) 28 4 := by
  and_intros <;> first | (rw [State.pktLocs, ctx_packer]; exact ok_of (by decide +kernel)) | (rw [State.pktLocs, ctx_copied]; exact ok_of (by decide +kernel)) | (rw [State.pktLocs, ctx_packer]; exact err_of (by decide +kernel)) | exact ok_of (by decide +kernel) | decide +kernel | exact canonical_of (by decide +kernel)

/-- Chains of one buffer and of three, and buffers that end before the first or lie in it. -/
theorem witness_PacketsHaveTheirEffects_chain : (∀ n ∈ [0, 2], ((packer.modQueue 0 0 (fun x => { x with chain := List.replicate (n + 1) ⟨0x3000, 8, 0⟩ })).queue 0 0).chain =
      ⟨0x3000, 8, 0⟩ :: List.replicate n ⟨0x3000, 8, 0⟩ ∧ n < 3) ∧ (0 : Nat) < 8 ∧
    (packer.queue 0 0).ring.toNat + 2 ^ (packer.queue 0 0).size ≤ 0x2FF0 ∧ 0x2FF0 + 4 * 4 ≤ (0x3000 : Word).toNat ∧
    (0x3000 : Word).toNat < 0x2FF0 + 4 * 5 ∧ 0x2FF0 < (0x3000 : Word).toNat + 4 * 8 := by decide +kernel

/-- Values for which each comparison holds of the word 0, and values for which it does not. -/
theorem witness_PacketsHaveTheirEffects_wait : waitSpec .eq (0 &&& 0) 0 ∧ ¬ waitSpec .eq (0 &&& 0) 1 ∧ waitSpec .ne (0 &&& 0) 1 ∧
    ¬ waitSpec .ne (0 &&& 0) 0 ∧ waitSpec .geu (0 &&& 0) 0 ∧ ¬ waitSpec .geu (0 &&& 0) 1 ∧ waitSpec .ltu (0 &&& 0) 1 ∧ ¬ waitSpec .ltu (0 &&& 0) 0 := by
  simp [waitSpec]

/-- A mould of one node with a field of 8 bytes, and a copy node that follows it; a table of one patch for the field. -/
def mould0 : Mould := ⟨0, 0, [{ (default : NodeDesc) with threads := 1, args := List.replicate 8 0, fields := [(0, 8)] }], [⟨[], [0]⟩], []⟩
def patches0 : List Word32 := [1, 0, 0, 0, 5, 0]
def loader : State := packer.modVd 0 (fun v => { v with moulds := [(0, ⟨0x1000, 64, mould0, 0⟩)] })
def idleVd : State := { loader with nodes := [] }
def lastLoad : ReamLoad := ⟨0x1000, 0, 1, 65536 - 64, 64, 0⟩
def tests : SelfTest := ⟨0, 1, 255, 0x1000⟩
def testNode : Node := { fetchNode with test := some (tests, 7), hHi := 1 }
def testing : State := { packer with nodes := [(3, testNode)] }

theorem ctx_idle : idleVd.ctxOf 0 0 = 0 := by decide +kernel

theorem witness_QueuesMouldsAndServicesAct : (loader.vd 0).formed = true ∧ tabGet (loader.vd 0).moulds ((63 : Word32).toNat % 64) = none ∧
    tabGet (loader.vd 0).moulds ((0x80000000 : Word32).toNat % 64) = some ⟨0x1000, 64, mould0, 0⟩ ∧ (loader.replays 0 0).length < 4 ∧
    (0 : Word32)[31] = false ∧ (0x80000000 : Word32)[31] = true ∧ tableOf patches0 = (0, [⟨0, 0, 5, true⟩], true) ∧
    mouldField mould0 ⟨0, 0, 5, true⟩ ≠ none ∧ lastLoad.first ≤ lastLoad.last ∧ lastLoad.last < (idleVd.vd 0).qlen ∧
    lastLoad.roff + lastLoad.len ≤ (idleVd.vd 0).reamk * 65536 ∧ idleVd.runsOn 0 ((idleVd.vd 0).coresOf lastLoad.first lastLoad.last) = false ∧
    loader.runsOn 0 ((loader.vd 0).coresOf lastLoad.first lastLoad.last) = true ∧
    (∀ i ∈ List.range 2, reamSrc lastLoad i = 0x1000) ∧ idleVd.pktLocs 0 0 0x1000 lastLoad.len ⟨true, false, false⟩ = .ok (places 64) ∧
    tests.last < (packer.vd 0).qlen ∧ packer.pktLocs 0 0 tests.addr (32 + 8 * (tests.last + 1 - tests.first)) ⟨false, true, false⟩ = .ok (places 48) ∧
    tabGet testing.nodes 3 = some testNode ∧ testNode.vd = 0 ∧ testNode.st = .running ∧ testing.testHeld 0 testNode tests = false ∧ testing.Canonical ∧ (places 48).Nodup ∧
    ({ testing with fresh := testing.fresh + (testNode.hHi + 1 - testNode.hLo) } : State).vaLocs 0 testNode.ctx 0x1000
      (32 + 8 * (testNode.hHi + 1 - testNode.hLo)) ⟨false, true, false⟩ = .ok (places 48) ∧
    loader.replays 0 63 = [] ∧ loader.replays 0 0 ≠ [] := by
  and_intros <;> first | (rw [State.pktLocs, ctx_idle]; exact ok_of (by decide +kernel)) | (rw [State.pktLocs, ctx_packer]; exact ok_of (by decide +kernel)) | decide +kernel | exact ok_of (by decide +kernel) | exact canonical_of (by decide +kernel)

/-- A table of VER 1 at 0x1000 of one patch for node 0's field, or for a field that it has not. -/
def tabled (off : Nat) : State :=
  { loader with dram := putIa (loader.vd 0) loader.dram 0x6000 (leBytes 8 (1 + 2 ^ 32) ++ leBytes 8 off ++ leBytes 8 5) }
theorem ctx_tabled : (tabled 0).ctxOf 0 0 = 0 := by decide +kernel

theorem witness_QueuesMouldsAndServicesAct_table : tabGet ((tabled 0).vd 0).moulds ((0 : Word32).toNat % 64) = some ⟨0x1000, 64, mould0, 0⟩ ∧
    (0x1000 : PktAddr) ≠ 0 ∧ ((tabled 0).replays 0 0).length < 4 ∧ (tabled 0).pktLocs 0 0 0x1000 8 ⟨true, false, false⟩ = .ok (places 8) ∧
    (tabled 0).anyHeld (places 8) = false ∧ (tabled 0).locsNat ((places 8).take 2) = 1 ∧
    (tabled 0).pktLocs 0 0 0x1000 (8 + 16 * 1) ⟨true, false, false⟩ = .ok (places 24) ∧ (tabled 0).anyHeld (places 24) = false ∧
    tableOf ((tabled 0).wordsAt (places 24)) = (1, [⟨0, 0, 5, true⟩], true) ∧ (0 : Nat) < 1 ∧ (1 : Nat) ≤ 1 ∧
    tableOf ((tabled 1).wordsAt (places 24)) = (1, [⟨0, 1, 5, true⟩], true) ∧ mouldField mould0 ⟨0, 1, 5, true⟩ = none ∧
    (tabled 0).pktLocs 0 0 0x2000 8 ⟨true, false, false⟩ = .error (.tfault, 0x2000) ∧ copied.anyHeld (places 8) = true := by
  and_intros <;> first | (rw [State.pktLocs, ctx_tabled]; exact ok_of (by decide +kernel)) | (rw [State.pktLocs, ctx_tabled]; exact err_of (by decide +kernel)) | decide +kernel

/-- The load in work. -/
theorem witness_QueuesMouldsAndServicesAct_load : ∃ s : State, tabGet (s.vd 0).loads 9 = some ⟨lastLoad, 0, 0⟩ ∧ lastLoad.roff + lastLoad.len ≤ 2 ^ 19 ∧
    s.Canonical ∧ s.loadHeld 0 ⟨lastLoad, 0, 0⟩ = false ∧ (s.vd 0).loadsUpTo 9 = [(9, ⟨lastLoad, 0, 0⟩)] ∧
    s.vaLocs 0 0 0x1000 lastLoad.len ⟨true, false, false⟩ = .ok (places 64) := by
  refine ⟨idleVd.modVd 0 (fun v => { v with loads := [(9, ⟨lastLoad, 0, 0⟩)] }), ?_⟩
  and_intros <;> first | decide +kernel | exact ok_of (by decide +kernel) | exact canonical_of (by decide +kernel)

/-- With nothing in flight no byte is held. -/
theorem held_none {s : State} (ho : s.ops = []) (hc : s.cores.all (fun x => x.2.heldKeys.isEmpty) = true) (ls : List Loc) : s.anyHeld ls = false := by
  simp only [List.all_eq_true, List.isEmpty_iff] at hc
  have hh : ∀ l : Loc, s.cores.any (fun x => x.2.heldKeys.contains l.key) = false := fun l => by
    rw [List.any_eq_false]; intro x hx; simp [hc x hx]
  rw [State.anyHeld, List.any_eq_false]
  intro l _
  simp only [State.held, ho, List.any_nil, hh, Bool.or_false, Bool.and_false, Bool.false_eq_true, not_false_eq_true]

/-- With sixty-four moulds loaded every image is refused. -/
theorem witness_QueuesMouldsAndServicesAct_mload : ∃ (s : State) (e : Nat), (s.vd 0).formed = true ∧ s.anyHeld (s.mouldLocs 0 0x2000) = false ∧
    s.checkMould 0 0x2000 = .error e := by
  let full : State := loader.modVd 0 (fun v => { v with moulds := (List.range 64).map (fun h => (h, ⟨0x1000, 64, mould0, 0⟩)) })
  have hf : (full.vd 0).moulds.length ≥ 64 := by decide +kernel
  suffices h : ∃ e, full.checkMould 0 0x2000 = .error e by obtain ⟨e, h⟩ := h; exact ⟨full, e, by decide +kernel, held_none (by decide +kernel) (by decide +kernel) _, h⟩
  unfold State.checkMould
  simp only [hf, if_true]
  split
  · exact ⟨_, rfl⟩
  · split
    · exact ⟨_, rfl⟩
    · split
      · exact ⟨_, rfl⟩
      · split
        · exact ⟨_, rfl⟩
        · split <;> exact ⟨_, rfl⟩

/-- Service 7 for the devices 1 to 2, with one token of burst 3 at rate 1, its template of one packet at 0x1800 and an argument of 16 bytes. -/
def entry0 : BitVec 256 := BitVec.ofNat 256 (1 * 2 ^ 48 + 2 * 2 ^ 64 + 7 * 2 ^ 80 + 2 ^ 128 + 3 * 2 ^ 136 + 2 ^ 144 + 16 * 2 ^ 173 + 6 * 2 ^ 184 + 0x1800 * 2 ^ 192)
def template0 : List Word32 := [0x06006003, 0x80000000, 0, 0, 0, 0]
def server : State :=
  let s := loader.modVd 0 (fun v => { v with service := v.service.set 63 entry0, tokens := v.tokens.set 63 1, bind := [(1, 2), (3, 2)] })
  { s with dram := putIa (s.vd 0) s.dram 0x6800 (Machine.wordBytes [0x8000000006006003]) }
def asks (op : Option Nat) (dev : Nat) : HeadboxReq := ⟨dev, 2, 0, 7, 0, List.replicate 16 0, op⟩
/-- Its template's places. -/
def tmplAt : List Loc := (places 2072).drop 2048
/-- The words of a PULL register's write. -/
def pullWords : List Word32 := [0x06004003, BitVec.ofNat 32 (0 % 64), (0x10000 : Word).extractLsb' 16 32, ((0x10000 : Word).extractLsb' 48 16).signExtend 32]
def ringOf (s : State) (ws : List Word32) : List (Word × List Loc × Word32) := (s.ringPlaces 0 0 ws).getD []
theorem ctx_server : server.ctxOf 0 0 = 0 := by decide +kernel

theorem witness_QueuesMouldsAndServicesAct_ring : (server.queue 0 0).words = 1024 ∧
    ((0 % 1024 + 1024 - 0 % 1024) % 1024 + 1023 + 1 : Nat) ≤ 1024 ∧ server.pktLocs 0 0 ((server.queue 0 0).ring + 0) 4 ⟨false, true, false⟩ = .ok (places 4) ∧
    (places 4).Nodup ∧ server.Canonical ∧ wordField 0x10000 0 16 = 0 ∧
    tabGet (server.vd 0).moulds 0 = some ⟨0x1000, 64, mould0, 0⟩ ∧ mould0.queue = 0 ∧
    server.ringPlaces 0 0 pullWords = some (ringOf server pullWords) ∧ server.ringHeld (ringOf server pullWords) = false ∧
    (base.ringPlaces 0 0 pullWords) = none := by
  and_intros <;> first | (rw [State.pktLocs, ctx_server]; exact ok_of (by decide +kernel)) | decide +kernel | exact ok_of (by decide +kernel) | exact canonical_of (by decide +kernel)

theorem witness_QueuesMouldsAndServicesAct_headbox : (server.vd 0).svcFind (asks none 3) = none ∧ (asks none 3).op = none ∧ (asks (some 4) 3).op = some 4 ∧
    ([1, 2].all (fun d => decide ((server.vd 0).svcFind (asks none d) = some 63))) = true ∧ (server.vd 0).service[(63 : Fin 64)] = entry0 ∧
    server.bound 0 1 2 = true ∧ server.bound 0 3 2 = true ∧ server.bound 0 2 2 = false ∧ (asks none 1).dstVd = 0 ∧
    server.behind (.headboxRequest 0 (asks none 1)) = false ∧
    ({ server with inbox := [.headboxRequest 0 (asks none 1)] } : State).behind (.headboxRequest 0 (asks none 1)) = true ∧
    (asks none 1).payload.length ≤ svcArglen entry0 ∧ (asks none 1).payload.length % 16 = 0 ∧ server.template 0 entry0 = some tmplAt ∧
    server.anyHeld tmplAt = false ∧ templateOk entry0 (server.wordsAt tmplAt) ((asks none 1).payload.length / 16) = true ∧
    (server.vd 0).tokens[(63 : Fin 64)] ≠ 0 ∧ svcRate entry0 ≠ 0 ∧ svcQueue entry0 = 0 ∧
    (server.pktRead 0 0 (svcTmpl entry0) tmplAt).ringPlaces 0 0 (servicePacket (server.wordsAt tmplAt) (asks none 1).payload) =
      some (ringOf (server.pktRead 0 0 (svcTmpl entry0) tmplAt) (servicePacket (server.wordsAt tmplAt) (asks none 1).payload)) ∧
    (server.pktRead 0 0 (svcTmpl entry0) tmplAt).ringHeld
      (ringOf (server.pktRead 0 0 (svcTmpl entry0) tmplAt) (servicePacket (server.wordsAt tmplAt) (asks none 1).payload)) = false := by
  and_intros <;> first | decide +kernel

/-! ## A save area: one leaf of 1 GiB at virtual address 2^30 -/

/-- Virtual device 0 with room for intermediate addresses below 2^31, the leaf at index 1 of the second table, the save area of context 0 at 2^30
just large enough, and node 0 with no image. -/
def saver : State :=
  let v := { base.vd 0 with s2lim := 32768, ctxs := [(0, ⟨0x1000, 0, 0x40000000, BitVec.ofNat 64 (0x10000 + 2 * 0x61000), 0, 0, 0⟩)] }
  { base with
    vds := base.vds.set 0 v
    dram := putIa v base.dram 0x2008 (leBytes 8 0x4000003B)
    nodes := [(0, { fetchNode with codeLen := 0, imgLen := 0, hHi := 1 })] }

def saveNode : Node := { fetchNode with codeLen := 0, imgLen := 0, hHi := 1 }

/-- What the translation of the save area rests on. -/
def Area (st : State) : Prop :=
  st.vd 0 = saver.vd 0 ∧ st.tlb = [] ∧ st.images 0 = [(0, 0, 0)] ∧
    memBytes st.dram (2 ^ 33) 8 = leBytes 8 0x2001 ∧ memBytes st.dram (2 * 2 ^ 33 + 8) 8 = leBytes 8 0x4000003B

theorem bit1 : (0x2001 : Word)[1] = false := by decide
theorem leaf1 : (0x4000003B : Word)[1] = true := by decide
theorem leaf_allows (need : Need) : leafAllows 0x4000003B need = true := by
  obtain ⟨r, w, x⟩ := need
  revert r w x; decide

theorem canonical_low {a : Word} (h : a.toNat < 2 ^ 47) : canonical a = true := by
  have h' : (a.extractLsb' 0 48 : BitVec 48).toNat = a.toNat := by
    rw [BitVec.extractLsb'_toNat]; simp; omega
  simp only [canonical, beq_iff_eq]
  apply BitVec.eq_of_toNat_eq
  rw [BitVec.signExtend_eq_setWidth_of_msb_false (by rw [BitVec.msb_eq_decide, h']; simp; omega), BitVec.toNat_setWidth, h']
  omega

theorem channel_some (n : Nat) : ∃ ch, [0, 1, 2, 3, 4, 5, 6, 7][n % 8]? = some ch :=
  ⟨_, List.getElem?_eq_getElem (show n % 8 < [0, 1, 2, 3, 4, 5, 6, 7].length from Nat.mod_lt _ (by decide))⟩

theorem channel_get {n ch : Nat} (h : [0, 1, 2, 3, 4, 5, 6, 7][n % 8]? = some ch) : ch = n % 8 := by
  have hn : n % 8 < 8 := Nat.mod_lt _ (by decide)
  generalize n % 8 = m at h hn ⊢
  match m, hn with
  | 0, _ | 1, _ | 2, _ | 3, _ | 4, _ | 5, _ | 6, _ | 7, _ => simp at h; omega

/-- The intermediate address of a DRAM key of eight channels. -/
def backTo (k : Nat) : Nat := (k % 2 ^ 33 / 4096 * 8 + k / 2 ^ 33) * 4096 + k % 4096

theorem area_key {x : Nat} (h : x < 2 ^ 31) (h' : 2 ^ 30 ≤ x) : ∃ k, (saver.vd 0).iaKey x = some k ∧ backTo k = x := by
  have hl : (saver.vd 0).s2lim = 32768 := by decide +kernel
  have hb : (saver.vd 0).s2base = 0 := by decide +kernel
  have hc : (saver.vd 0).channels = [0, 1, 2, 3, 4, 5, 6, 7] := by decide +kernel
  generalize saver.vd 0 = v at hl hb hc ⊢
  obtain ⟨ch, hch⟩ := channel_some (x >>> 12)
  have hn : [0, 1, 2, 3, 4, 5, 6, 7].length = 8 := rfl
  have hs : x >>> 12 = x / 4096 := Nat.shiftRight_eq_div_pow x 12
  have h1 : v.stage2 x = some x := by rw [Vd.stage2, hl, hb, if_pos (by omega), Nat.mul_zero, Nat.zero_add]
  have h2 : v.dramKey x = some (ch * 2 ^ 33 + (x >>> 12) / 8 * 4096 + x % 4096) := by rw [Vd.dramKey, hc, hn, hch]
  exact ⟨ch * 2 ^ 33 + (x >>> 12) / 8 * 4096 + x % 4096, by rw [Vd.iaKey, h1]; exact h2, by have := channel_get hch; rw [backTo, hs] at *; omega⟩

theorem area_walk {st : State} (h : Area st) {a : Nat} (h1 : 2 ^ 30 ≤ a) (h2 : a < 2 ^ 30 + 2 ^ 29) :
    (st.vd 0).walk st.dram 0 a = some (0x4000003B, 2) := by
  obtain ⟨hv, -, -, hr, hl⟩ := h
  have hc : (saver.vd 0).ctx st.dram 0 = some ⟨0x1000, 0, 0x40000000, BitVec.ofNat 64 (0x10000 + 2 * 0x61000), 0, 0, 0⟩ := by
    have : tabGet (saver.vd 0).ctxs 0 = some ⟨0x1000, 0, 0x40000000, BitVec.ofNat 64 (0x10000 + 2 * 0x61000), 0, 0, 0⟩ := by decide +kernel
    simp [Vd.ctx, this]
  have k1 : (saver.vd 0).iaKey 0x1000 = some (2 ^ 33) := by decide +kernel
  have k2 : (saver.vd 0).iaKey 0x2008 = some (2 * 2 ^ 33 + 8) := by decide +kernel
  have i1 : (a >>> 39) % 512 = 0 := by rw [Nat.shiftRight_eq_div_pow]; omega
  have i2 : (a >>> 30) % 512 = 1 := by rw [Nat.shiftRight_eq_div_pow]; omega
  have e1 : (saver.vd 0).entryAt st.dram 0x1000 0 = some 0x2001 := by
    simp only [Vd.entryAt, Nat.mul_zero, Nat.add_zero, k1, Option.map_some, hr]; decide
  have e2 : (saver.vd 0).entryAt st.dram 0x2000 1 = some 0x4000003B := by
    simp only [Vd.entryAt, Nat.mul_one, Nat.reduceAdd, k2, Option.map_some, hl]; decide
  have p1 : pteOk 1 0x2001 = true := by decide
  have p2 : pteOk 2 0x4000003B = true := by decide
  have a1 : pteAddr 0x2001 = 0x2000 := by decide
  simp only [Vd.walk, hv, hc, Vd.walkFrom, Nat.reduceMul, Nat.reduceAdd, Nat.reduceSub, i1, i2, e1, e2, p1, p2, bit1, leaf1, a1, Bool.not_true, if_false, if_true,
    Bool.false_eq_true]

theorem area_translate {st : State} (h : Area st) {a : Word} (need : Need) (h1 : 2 ^ 30 ≤ a.toNat) (h2 : a.toNat < 2 ^ 30 + 2 ^ 29) :
    ∃ k, st.translate 0 0 a need = .ok k ∧ backTo k = a.toNat := by
  have hm : a.toNat % 2 ^ 48 = a.toNat := by omega
  have hw := area_walk h h1 h2
  obtain ⟨k, hk, hk'⟩ := area_key (x := 2 ^ 30 + a.toNat % 2 ^ 30) (by omega) (by omega)
  refine ⟨k, ?_, by omega⟩
  have hp : pteAddr 0x4000003B = 2 ^ 30 := by decide
  have hb : pageBits 2 0x4000003B = 30 := by decide
  have hal := leaf_allows need
  have hi : st.inImage 0 k = false := by
    simp [State.inImage, h.2.2.1, List.range_succ]
  have ht : st.tlb = [] := h.2.1
  have hf : (saver.vd 0).formed = true := by decide +kernel
  simp only [State.translate, hm, State.leaf, State.leaves, hw, ht, List.filter_nil, List.map_nil]
  simp only [h.1, hf, Bool.not_true, Vd.byLeaf, hp, hb, hk, hal, if_true, hi, Bool.and_false, Bool.false_eq_true, if_false]

theorem mapM_ok {α β ε : Type} {P : β → Prop} (g : β → Nat) (k : α → Nat) (f : α → Except ε β) (l : List α)
    (h : ∀ a ∈ l, ∃ b, f a = .ok b ∧ P b ∧ g b = k a) : ∃ bs, l.mapM f = .ok bs ∧ bs.map g = l.map k ∧ ∀ b ∈ bs, P b := by
  induction l with
  | nil => exact ⟨[], rfl, rfl, by simp⟩
  | cons a t ih =>
    obtain ⟨b, hb, pb, gb⟩ := h a (by simp)
    obtain ⟨bs, hbs, hl, hp⟩ := ih (fun x hx => h x (by simp [hx]))
    refine ⟨b :: bs, ?_, by simp [hl, gb], ?_⟩
    · rw [List.mapM_cons, hb, hbs]; rfl
    · intro x hx
      rcases List.mem_cons.mp hx with rfl | hx
      · exact pb
      · exact hp x hx

theorem area_locs {st : State} (h : Area st) (off n : Nat) (need : Need) (hn : off + n ≤ 2 ^ 29) :
    ∃ ls, st.vaLocs 0 0 (0x40000000 + BitVec.ofNat 64 off) n need = .ok ls ∧ ls.Nodup ∧ ∀ l ∈ ls, l.glob = true := by
  obtain ⟨ls, hls, hk, hp⟩ := mapM_ok (P := fun l : Loc => l.glob = true) (fun l : Loc => backTo l.key) (fun i => 2 ^ 30 + off + i) (fun i =>
      let a : Word := 0x40000000 + BitVec.ofNat 64 off + BitVec.ofNat 64 i
      if !canonical a then Except.error (Xlat.tfault, a)
      else match st.translate 0 0 a need with
        | .ok k => .ok ⟨true, k⟩
        | x => .error (x, a)) (List.range n) (by
    intro i hi
    have hi := List.mem_range.mp hi
    have ha : (0x40000000 + BitVec.ofNat 64 off + BitVec.ofNat 64 i : Word).toNat = 2 ^ 30 + off + i := by
      rw [BitVec.toNat_add, BitVec.toNat_add, BitVec.toNat_ofNat, BitVec.toNat_ofNat, show (0x40000000 : Word).toNat = 2 ^ 30 from rfl]; omega
    obtain ⟨k, hk, hk'⟩ := area_translate h (a := 0x40000000 + BitVec.ofNat 64 off + BitVec.ofNat 64 i) need (by omega) (by omega)
    exact ⟨⟨true, k⟩, by simp only [canonical_low (show (0x40000000 + BitVec.ofNat 64 off + BitVec.ofNat 64 i : Word).toNat < 2 ^ 47 by omega), hk, Bool.not_true, Bool.false_eq_true, if_false], rfl, by rw [hk', ha]⟩)
  have hm : (ls.map (fun l : Loc => backTo l.key)).Nodup := by
    rw [hk]
    exact List.pairwise_map.mpr (List.nodup_range.imp (fun h e => h (by omega)))
  exact ⟨ls, hls, (List.pairwise_map.mp hm).imp (fun h e => h (congrArg (fun l : Loc => backTo l.key) e)), hp⟩

theorem readImage_some {st : State} (n : Node) (sv : Saved) (ls : List Loc)
    (h : st.vaLocs n.vd n.ctx sv.image Config.spadBytes ⟨false, false, false⟩ = .ok ls) : ∃ x, st.readImage n sv = some x := by
  unfold State.readImage
  rw [h]
  exact ⟨_, rfl⟩

/-- The image of a core is read back from the area. -/
theorem area_readImage {st : State} (h : Area st) (n : Node) (sv : Saved) (off : Nat) (ho : off ≤ 2 ^ 20) (hn : n.vd = 0) (hc : n.ctx = 0)
    (hs : sv.image = 0x40000000 + BitVec.ofNat 64 off) : ∃ x, st.readImage n sv = some x := by
  obtain ⟨ls, hls, -⟩ := area_locs h off Config.spadBytes ⟨false, false, false⟩ (by have : Config.spadBytes ≤ 2 ^ 20 := (by decide); omega)
  exact readImage_some n sv ls (by rw [hn, hc, hs]; exact hls)

/-- No byte of the area is reached where its first page is missing. -/
theorem area_gone {st : State} {vd : Fin 8} {ctx : Nat} {va : Word} {need : Need} (n : Nat) (hc : canonical (va + 0) = true)
    (h : st.translate vd ctx (va + 0) need = .tfault) : ∃ e, st.vaLocs vd ctx va (n + 1) need = .error e := by
  refine ⟨(.tfault, va + 0), ?_⟩
  rw [State.vaLocs, List.range_succ_eq_map, List.mapM_cons]
  simp only [show (BitVec.ofNat 64 0 : Word) = 0 from rfl, hc, h, Bool.not_true, Bool.false_eq_true, if_false]
  rfl

/-- With nothing in flight no write is held. -/
theorem heldW_none {s : State} (ho : s.ops = []) (hc : s.cores.all (fun x => x.2.heldKeys.isEmpty && x.2.readKeys.isEmpty) = true) (ls : List Loc) :
    s.anyHeldW ls = false := by
  simp only [List.all_eq_true, List.isEmpty_iff, Bool.and_eq_true] at hc
  have hh : ∀ l : Loc, s.cores.any (fun x => x.2.heldKeys.contains l.key) = false := fun l => by
    rw [List.any_eq_false]; intro x hx; simp [(hc x hx).1]
  have hr : ∀ l : Loc, s.cores.any (fun x => x.2.readKeys.contains l.key) = false := fun l => by
    rw [List.any_eq_false]; intro x hx; simp [(hc x hx).2]
  rw [State.anyHeldW, List.any_eq_false]
  intro l _
  simp only [State.held, State.readHeld, ho, List.any_nil, hh, hr, Bool.or_false, Bool.and_false, Bool.false_eq_true, not_false_eq_true]

theorem padTo_length (n : Nat) (bs : List Byte) : (padTo n bs).length = n := by simp [padTo]

/-- Nothing of an image is left to write once its handler has passed its last line. -/
theorem imagePieces_done (st : State) (node c : Nat) (sv : Saved) (skip : Nat → Bool) : st.imagePieces node c sv skip imageLines imageLines = [] := by
  have hc : ∀ p : Nat × List Byte, (clip (128 * imageLines) (128 * imageLines) p).2 = [] := fun p => by
    rw [clip]; dsimp only; rw [Nat.sub_eq_zero_of_le (Nat.le_max_left _ _), List.take_zero]
  rw [State.imagePieces, Nat.sub_self]
  simp only [List.range_zero, List.map_nil, List.filter_nil, List.nil_append]
  rw [if_neg (by decide), List.filter_eq_nil_iff]
  intro p hp
  obtain ⟨q, -, rfl⟩ := List.mem_map.mp hp
  simp [hc q]

theorem saveLines_done {st : State} {node core : Nat} {sv : Saved} (h : tabGet st.saved (savedKey node core) = some sv) (hl : sv.lines = imageLines)
    (hs : st.poisonS = []) (ht : st.poisonT = []) (hp : st.poisonP = []) : ∃ x, st.saveLines node imageLines core = some { st with saved := x } := by
  have hn : ∀ k, st.newBad core sv k imageLines = [] := fun k => by simp [State.newBad, State.imageBad, hs, ht, hp]
  unfold State.saveLines
  simp only [h, hl, hn, imagePieces_done, List.foldlM_nil]
  exact ⟨_, rfl⟩


/-! ## Witnesses: nodes, the Deckle, recovery -/

/-- Node 5 is Ready with four threads whose workspaces end below the argument block; the cores are free, or node 0 holds core 0. -/
def node5 : Node := { fetchNode with
  st := .ready
  launched := false
  hHi := 1
  desc := { fetchNode.desc with hHi := 1, threads := 4, wp := 0x3CC00, prio := 1 } }
def waiting5 (n : Node) : State := { base with cores := [], nodes := [(5, n)] }
def mill5 : Node := { node5 with copy := some ([0x301, 0x1000, 0x1080, 0, 1, 0, 0].flatMap (leBytes 8)) }
def test5 : Node := { node5 with test := some (tests, 0) }
def launch5 : State := waiting5 { node5 with st := .running }
def asks5 : State := { base with nodes := [(0, { fetchNode with hHi := 1 }), (5, node5)] }

theorem witness_NodesDispatchLaunchAndDisplace : tabGet (waiting5 node5).nodes 5 = some node5 ∧
    ([node5, mill5, test5].all (fun n => (waiting5 n).hollander 0 == [.dispatch 5] && dispatchesUpTo 5 ((waiting5 n).hollander 0) == [5])) = true ∧
    node5.copy = none ∧ node5.test = none ∧ ((waiting5 node5).nodeCores node5).any (waiting5 node5).deadCore = false ∧
    (waiting5 node5).freeStream 0 = some 0 ∧ test5.copy = none ∧ test5.test = some (tests, 0) ∧
    ((waiting5 test5).nodeCores test5).any (waiting5 test5).deadCore = false ∧
    (({ waiting5 node5 with failmap := [1] } : State).nodeCores node5).any ({ waiting5 node5 with failmap := [1] } : State).deadCore = true ∧
    ({ waiting5 node5 with failmap := [1] } : State).hollander 0 = [.dispatch 5] ∧ node5.st.over = false ∧
    mill5.copy = some ([0x301, 0x1000, 0x1080, 0, 1, 0, 0].flatMap (leBytes 8)) ∧
    (CopyDescr.ofBytes ([0x301, 0x1000, 0x1080, 0, 1, 0, 0].flatMap (leBytes 8))).checked ((waiting5 mill5).vd mill5.vd) none =
      .ok [⟨true, 0x1000, true, 0x1080, 1, 0x1000⟩] ∧ tabGet launch5.nodes 5 = some { node5 with st := .running } ∧ node5.launched = false ∧
    node5.hHi < 4096 ∧ node5.desc.threads ≤ 4 ∧ node5.desc.wp % 1024 = 0 ∧ node5.desc.wp + 0xC00 * node5.desc.threads ≤ 0x3FC00 ∧ launch5.Canonical ∧
    node5.hLo ≤ 1 ∧ 1 ≤ node5.hHi ∧ 3 < node5.desc.threads ∧ asks5.hollander 0 = [.displace 5] ∧ asks5.blockers 5 node5 (asks5.nodeCores node5) = [0] ∧
    tabGet asks5.nodes 0 = some { fetchNode with hHi := 1 } ∧ fetchNode.ladder = .running ∧ fetchNode.ctx = node5.ctx := by
  and_intros <;> first | decide +kernel | exact ok_of (by decide +kernel) | exact canonical_of (by decide +kernel)

/-- Node 0 on stream 31 with the records given; the thread of core 0 in the state given. -/
def stream0 : Stream := ⟨0, 0, 0, [], [], false, false, [], none, 0⟩
def streamed (ws : List Word32) (t : Stream) (r : Run) : State :=
  let s := withTh (fun th => { th with run := r })
  { s with
    clk := 512
    nodes := [(0, { fetchNode with hHi := 1, stream := some 31, desc := { fetchNode.desc with hHi := 1, deckle := ws } })]
    streams := [(31, t)] }
def entryOf (k : Rec) : Entry := ⟨3, k, 255, [0], false, 0, false, true⟩

theorem witness_DeckleStreamsRun : stream0.ended = false ∧ stream0.buf.length < 64 ∧
    ([BitVec.ofNat 32 (0x10000000 + 255), BitVec.ofNat 32 (0x20000000 + 255), BitVec.ofNat 32 (0x28000000 + 255), 0, 0x40000000] : List Word32).all
      (fun w => decide (tabGet (streamed [w] stream0 .ready).streams 31 = some stream0 ∧
        ((streamed [w] stream0 .ready).node 0).desc.deckle.drop stream0.pos = w :: [])) = true ∧
    ((streamed [BitVec.ofNat 32 (0x30001000 + 255), BitVec.ofNat 32 (0 + 4096 * 1)] stream0 .ready).node 0).desc.deckle.drop stream0.pos =
      BitVec.ofNat 32 (0x30001000 + 255) :: [BitVec.ofNat 32 (0 + 4096 * 1)] ∧
    ((streamed [] stream0 .ready).node 0).hLo ≤ 0 ∧ 1 ≤ ((streamed [] stream0 .ready).node 0).hHi ∧ 0 ∈ tabKeys (streamed [] stream0 .ready).nodes ∧
    Sys2Proof.Machine.groupsFit ((streamed [] stream0 .ready).node 0) (tabSet stream0.groups 255 { ((tabGet stream0.groups 255).getD ⟨[], 0⟩) with
      members := (List.range (1 + 1 - 0)).map (0 + ·) }) = true ∧
    4 ≤ wordField ((0x40000000 : Word32).setWidth 64) 28 4 ∧ ((streamed [] stream0 .ready).node 0).st.over = false := by
  decide +kernel

theorem witness_DeckleStreamsRun_arrival : (∀ t ∈ [{ stream0 with buf := [entryOf .fire] }, stream0, { stream0 with ended := true }],
      tabGet (streamed [] t .waiting).streams 31 = some t ∧ ((streamed [] t .waiting).core 0).bound = some t.node ∧
      ((streamed [] t .waiting).node t.node).stream = some 31 ∧ (streamed [] t .waiting).arrives 0 t.node = true ∧
      ((streamed [] t .waiting).core 0).matched = none ∧ ((streamed [] t .waiting).core 0).early = false ∧
      (∀ x ∈ ((streamed [] t .waiting).core 0).threads, x.2.handler = false)) ∧
    ({ stream0 with buf := [entryOf .fire] } : Stream).oldest 0 = some (entryOf .fire) ∧ stream0.oldest 0 = none ∧
    (streamed [] stream0 .waiting).thread 0 0 = some { th0 with run := .waiting } ∧ th0.node = stream0.node := by
  decide +kernel

theorem witness_DeckleStreamsRun_firing : (entryOf .fire).due = true ∧ entryOf .fire ∈ ({ stream0 with buf := [entryOf .fire] } : Stream).buf ∧
    (∀ r ∈ [Run.waiting, .blocked .start], tabGet ({ stream0 with firing := [(0, [0])] } : Stream).firing 0 = some [0] ∧
      (streamed [] { stream0 with firing := [(0, [0])] } r).thread 0 0 = some { th0 with run := r } ∧
      ((streamed [] { stream0 with firing := [(0, [0])] } r).core 0).bound = some 0) ∧
    ({ stream0 with buf := [{ entryOf (.phase false) with probing := true }] } : Stream).phase = some { entryOf (.phase false) with probing := true } ∧
    ({ stream0 with buf := [entryOf (.phase true)], idle := some 0 } : Stream).phase = some (entryOf (.phase true)) ∧
    (entryOf (.phase true)).idl = true ∧ 0 + 512 ≤ (streamed [] { stream0 with buf := [entryOf (.phase true)], idle := some 0 } .ready).clk ∧
    ((streamed [] { stream0 with buf := [entryOf (.phase true)], idle := some 0 } .waiting).modCore 0 (fun k => { k with matched := some (31, 3) })).complete 31
      { stream0 with buf := [entryOf (.phase true)], idle := some 0 } (entryOf (.phase true)) = true := by
  decide +kernel

/-- Every thread of the quire is parked on a word of the scratchpad, and the stream has ended. -/
theorem witness_DeckleStreamsRun_deadlock : (streamed [] { stream0 with ended := true } (.parked false 0x400)).deadlocked 0 = true := by decide +kernel

/-- The node with its ladder as given; its stopped thread on its core, which has stopped and settled. -/
def onLadder (l : Ladder) : Node := { saveNode with ladder := l, victims := [0], resumeAt := some 8, killAt := some 9 }
def laddered (l : Ladder) (at' : Option Nat) : State :=
  let s := (saver.modCur (fun th => { th with stopped := at'.isSome })).modCore 0 (fun k => { k with stopAt := at', stopClk := 8, settled := 8 })
  { s with nodes := [(0, onLadder l)], clk := 8 }
def ctx0 : Ctx := ⟨0x1000, 0, 0x40000000, BitVec.ofNat 64 (0x10000 + 2 * 0x61000), 0, 0, 0⟩
def small : State :=
  (laddered .stopping (some 8)).modVd 0 (fun v => { v with ctxs := [(0, { ctx0 with savelen := BitVec.ofNat 64 (0x10000 + 2 * 0x61000 - 1) })] })

theorem witness_LadderAndRecoveryAct : tabGet base.nodes 0 = some { fetchNode with hHi := 1 } ∧ tabGet (base.vd 0).ctxSt 0 = none ∧
    base.boundCores 0 ≠ [] ∧ ({ fetchNode with hHi := 1 } : Node).ladder = .running ∧
    tabGet (laddered .soft none).nodes 0 = some (onLadder .soft) ∧ (onLadder .soft).st.live = true ∧
    (((laddered .soft none).boundCores 0).all (fun c => ((laddered .soft none).core c).stopAt.isNone)) = true ∧ 0 ∈ (laddered .soft none).boundCores 0 ∧
    0 ∈ (laddered .stopping (some 8)).boundCores 0 ∧ ((laddered .stopping (some 8)).core 0).stopAt = some (laddered .stopping (some 8)).clk ∧
    (((laddered .stopping (some 8)).thread 0 0).map (·.node)) = some 0 ∧
    (laddered .stopping (some 8)).saveReady 0 (onLadder .stopping) = true ∧ tabGet ((laddered .stopping (some 8)).vd 0).ctxs 0 = some ctx0 ∧
    0x10000 + ((laddered .stopping (some 8)).vd 0).qlen * 0x61000 ≤ ctx0.savelen.toNat ∧ (laddered .stopping (some 8)).Canonical ∧
    (((laddered .stopping (some 8)).thread 0 0).map (fun th => decide (th.wp + 2816 ≤ 2 ^ 18))) = some true ∧
    small.saveReady 0 (onLadder .stopping) = true ∧ tabGet (small.vd 0).ctxs 0 = some { ctx0 with savelen := BitVec.ofNat 64 (0x10000 + 2 * 0x61000 - 1) } ∧
    (BitVec.ofNat 64 (0x10000 + 2 * 0x61000 - 1) : Word).toNat < 0x10000 + (small.vd 0).qlen * 0x61000 ∧
    ([Ladder.stopping, .saving].all (fun l => decide ((onLadder l).killAt = some 9 ∧ (onLadder l).st.live = true ∧
      ¬ 9 ≤ (laddered l none).clk ∧ 9 ≤ ({ laddered l none with clk := 9 } : State).clk))) = true := by
  and_intros <;> first | decide +kernel | exact canonical_of (by decide +kernel)

/-- Core 0 is on its way to offset 0x10000 of the area, all of its lines written. -/
def savedCore : Saved := ⟨saver.core 0, imageLines, 0x40000000 + BitVec.ofNat 64 0x10000, [], []⟩
def saving (a : Word) : State :=
  let s := (laddered .saving none).modVd 0 (fun v => { v with ctxs := [(0, { ctx0 with savea := a })] })
  { s with saved := [(savedKey 0 0, savedCore)] }

theorem area_saved {st : State} (h : Area st) (x : Tab Saved) : Area { st with saved := x } := h

theorem saving_area : Area (saving 0x40000000) := by
  unfold Area
  and_intros <;> decide +kernel

theorem heldW_saved {st : State} (ho : st.ops = []) (hc : st.cores.all (fun x => x.2.heldKeys.isEmpty && x.2.readKeys.isEmpty) = true) (x : Tab Saved)
    (ls : List Loc) : ({ st with saved := x } : State).anyHeldW ls = false :=
  heldW_none (s := { st with saved := x }) ho hc ls

theorem gone_saved {st : State} {a : Word} (hc : canonical (a + 0) = true) (ht : st.translate 0 0 (a + 0) ⟨false, true, false⟩ = .tfault) (x : Tab Saved)
    (bs : List Byte) (h : bs.length = 0xFFFF + 1) : ({ st with saved := x } : State).writeVa 0 0 a bs = none := by
  obtain ⟨e, he⟩ := area_gone (st := { st with saved := x }) (vd := 0) (ctx := 0) (va := a) (need := ⟨false, true, false⟩) 0xFFFF hc ht
  rw [State.writeVa, h, he]

theorem ends_saved {st : State} {sv : Saved} (h : tabGet st.saved (savedKey 0 0) = some sv) (hl : sv.lines = imageLines)
    (hs : st.poisonS = []) (ht : st.poisonT = []) (hp : st.poisonP = []) :
    ∃ x, [0].foldlM (fun (st : State) core => st.saveLines 0 imageLines core) st = some { st with saved := x } := by
  obtain ⟨x, hx⟩ := saveLines_done h hl hs ht hp
  exact ⟨x, by rw [List.foldlM_cons, hx]; rfl⟩

/-- The end of a save where the header has its pages, and where it has not. -/
theorem witness_LadderAndRecoveryAct_save : ∃ u ls, tabGet (saving 0x40000000).nodes 0 = some (onLadder .saving) ∧
    (onLadder .saving).ladder = .saving ∧ tabGet ((saving 0x40000000).vd 0).ctxs 0 = some ctx0 ∧
    (onLadder .saving).victims.foldlM (fun (st : State) core => st.saveLines 0 imageLines core) (saving 0x40000000) = some u ∧
    u.vaLocs 0 0 ctx0.savea 0x10000 ⟨false, true, false⟩ = .ok ls ∧ u.anyHeldW ls = false ∧ ls.Nodup ∧ (saving 0x40000000).Canonical := by
  have hs : tabGet (saving 0x40000000).saved (savedKey 0 0) = some savedCore := by decide +kernel
  obtain ⟨x, hx⟩ := ends_saved hs (by decide +kernel) (by decide +kernel) (by decide +kernel) (by decide +kernel)
  obtain ⟨ls, hl, hn, -⟩ := area_locs (area_saved saving_area x) 0 0x10000 ⟨false, true, false⟩ (by decide)
  have ho : (saving 0x40000000).ops = [] := by decide +kernel
  have hc : (saving 0x40000000).cores.all (fun x => x.2.heldKeys.isEmpty && x.2.readKeys.isEmpty) = true := by decide +kernel
  have hv : (onLadder .saving).victims = [0] := by decide +kernel
  exact ⟨_, ls, by decide +kernel, by decide +kernel, by decide +kernel, by rw [hv]; exact hx, hl, heldW_saved ho hc x ls, hn,
    canonical_of (by decide +kernel)⟩

theorem witness_LadderAndRecoveryAct_wait : ∃ u, tabGet (saving 0x8000).nodes 0 = some (onLadder .saving) ∧
    tabGet ((saving 0x8000).vd 0).ctxs 0 = some { ctx0 with savea := 0x8000 } ∧
    (onLadder .saving).victims.foldlM (fun (st : State) core => st.saveLines 0 imageLines core) (saving 0x8000) = some u ∧
    u.writeVa 0 0 0x8000 (u.vdHeader 0 0) = none := by
  have hs : tabGet (saving 0x8000).saved (savedKey 0 0) = some savedCore := by decide +kernel
  obtain ⟨x, hx⟩ := ends_saved hs (by decide +kernel) (by decide +kernel) (by decide +kernel) (by decide +kernel)
  have ht : (saving 0x8000).translate 0 0 (0x8000 + 0) ⟨false, true, false⟩ = .tfault := by decide +kernel
  have hv : (onLadder .saving).victims = [0] := by decide +kernel
  exact ⟨_, by decide +kernel, by decide +kernel, by rw [hv]; exact hx, gone_saved (by decide) ht x _ (padTo_length _ _)⟩

/-- Core 0 is saved, and its restore may begin or is under way. -/
def away (r : List Nat) : Node := { saveNode with st := .displaced, ladder := .saved, restoring := r }
def parted (r : List Nat) : State := { saver with nodes := [(0, away r)], saved := [(savedKey 0 0, savedCore)], cores := [] }

theorem parted_area : Area (parted [0]) := by
  unfold Area
  and_intros <;> decide +kernel

theorem witness_LadderAndRecoveryAct_restore : Hol.restore 0 ∈ (parted []).hollander 0 ∧ tabGet (parted []).nodes 0 = some (away []) ∧
    tabGet (parted [0]).nodes 0 = some (away [0]) ∧ (away [0]).restoring = [0] ∧ (away [0]).ladder = .saved ∧ savedCore.core.early = false ∧
    tabGet (parted [0]).saved (savedKey 0 0) = some savedCore ∧ (parted [0]).Canonical ∧ (parted [0]).savedCores 0 = [0] ∧
    (parted [0]).coreHeld 0 = false ∧
    (∃ x, (parted [0]).readImage (away [0]) savedCore = some x) := by
  and_intros <;> first | decide +kernel | exact canonical_of (by decide +kernel) | exact area_readImage parted_area _ _ 0x10000 (by decide) rfl rfl rfl

def report (k : Nat) (st mc : Word) : FaultRec := ⟨k, 0, 0, 0, 0, st, 0, 0, 0, 0, 0, 0, mc, 0, false⟩
def awaits (r : Bool) : State := withTh (fun th => { th with handler := true, awaiting := true, tstat := 0x1000_0009_0000, bank := th.bank.set 31 (if r then 1 else 0) })
/-- The router of row 0 passes no message of the class of fault records. -/
def walled : State := { base with fw := [(0, ⟨0x18, true⟩)] }

theorem witness_LadderAndRecoveryAct_recovery : ((base.modVd 0 (fun v => { v with policy := [0] })).vd (report 1 0x40000 0).vd).policy.contains
      (report 1 0x40000 0).ctx = true ∧ walled.reaches 5 ((walled.vd 0).qbase + (report 1 0x40000 0).h) false = false ∧
    base.reaches 5 ((base.vd 0).qbase + (report 1 0x40000 0).h) false = true ∧ 2 < (report 7 0 0x20000).rkind ∧
    4 ≤ wordField (report 1 0x40000 0).tstat 16 8 ∧ wordField (report 1 0x90000 0).tstat 16 8 ≤ 9 ∧ (report 7 0 0x20000).alone = false ∧
    wordField (report 7 0 0x20000).mc 16 2 = 2 ∧ 0x41C0 ≤ wordField (report 7 0 0x241C0).mc 0 16 ∧ wordField (report 7 0 0x241C0).mc 16 2 = 2 ∧
    (base.vd 0).fsid[11] = false ∧ ((base.modVd 0 (fun v => { v with fsid := 0x805 })).vd 0).fsid[11] = true ∧
    wordField ((base.modVd 0 (fun v => { v with fsid := 0x805 })).vd 0).fsid 0 10 ≠ base.devid ∧
    ([false, true].all (fun r => decide ((awaits r).actionWaits 0 0 0 = false ∧ (awaits r).reaches 4 0 true = true ∧
      (((awaits r).cur).map (fun th => (th.awaiting, th.noted, th.gang))) = some (true, r, GangRole.none) ∧ (awaits r).anyHeld (drainLocs 0) = false ∧
      ((awaits r).thread 0 0).isSome = true ∧ ((awaits r).node 0).vd = 0 ∧ ((awaits r).core 0).stopAt = none))) = true ∧
    ({ fetchNode with hHi := 1 } : Node).st.over = false ∧ base.killWaits 0 = false ∧ (∀ c ∈ base.boundCores 0, base.reaches 4 c true = true) ∧ ({ fetchNode with hHi := 1 } : Node).vd = 0 ∧
    ({ fetchNode with hHi := 1 } : Node).ctx < 256 ∧
    ((base.modVd 0 (fun v => { v with en := true, busy := true })).vd 0).busy = true ∧
    ((base.modVd 0 (fun v => { v with en := true, busy := true })).vd 0).en = true ∧ (base.vd 0).busy = false := by
  and_intros <;> decide +kernel

/-- A queue of context 0 and one of none; a peer in device 5 with a primitive sent to it, and a thread that is parked. -/
def peers : State :=
  let s := (withTh (fun th => { th with run := .parked false 0x400 })).modVd 0 (fun v => { v with bind := [(5, 2), (0, 1)], ctxs := [(0, ⟨0x1000, 1, 0, 0, 0, 0, 0⟩)] })
  { s with ops := [(0, ⟨0, 0, 0, .cr, 0, [.xr], .system, .fab ⟨.get, 5, 8, false, 0x40020000, 0, none, 0, .none, [], true⟩⟩)], nextOp := 1 }

theorem witness_LadderAndRecoveryAct_peers : peers.queueCtx 0 0 = some 0 ∧ peers.queueCtx 0 63 ≠ some 0 ∧ (∃ b ∈ (peers.vd 0).bind, b.1 = 5) ∧
    (∃ b ∈ (peers.vd 0).bind, b.1 = peers.devid) ∧ (peers.contexts 0).any (peers.abortHeld 0) = false ∧
    (0, (⟨0, 0, 0, .cr, 0, [.xr], .system, .fab ⟨.get, 5, 8, false, 0x40020000, 0, none, 0, .none, [], true⟩⟩ : Op)) ∈ peers.ops ∧
    0 ∈ tabKeys peers.cores ∧ peers.thread 0 0 = some { th0 with run := .parked false 0x400 } ∧ (peers.node 0).vd = 0 := by
  and_intros <;> decide +kernel

/-! ## Witnesses: errors, isolation, the platform -/

def event (b src : Nat) (c : McClass) (ps : List DataUnit) : McEvent := ⟨b, src, c, some 0x80, some (5 * 2 ^ 40), some 7, ps⟩
def units3 : List DataUnit := [.dram 0x80, .spad 4095 0x3FFFF, .ream 4095 0x7FFFF]
def striking : State := completing wm0

/-- Virtual device 0 at an instant of its life; its channels and its slots of the frame. -/
def vdAt (en busy : Bool) (qbase qlen : Nat) : State :=
  { State.reset with
    vds := State.reset.vds.set 0 { Vd.reset with
      en := en, busy := busy, qbase := qbase, qlen := qlen, chmask := 0xFF, vways := 1, s2lim := 98304 * 8 }
    cal := State.reset.cal.set 63 0
    devReady := true }
def inv (done : Bool) : State := base.modVd 0 (fun v => { v with invDone := done })

theorem witness_ErrorsAndIsolationAct : (∀ b ∈ [0, 0x41A0, 0x41C0, 0x41DF], bankListed b = true ∧ (base.bank b).status[63] = false) ∧
    ([(0x41DF, 11, McClass.contained), (0x3080, 3, .corrected), (0x41A0, 8, .contained), (0x41A0, 1, .fatal)].all (fun e =>
      mcListed e.1 e.2.1 e.2.2 && e.2.1 != 9 && e.2.1 != 4 && e.2.1 != 5)) = true ∧ mcListed 0x40C0 9 .contained = true ∧
    base.bankCores 0x40C0 = [] ∧ (event 0x40C0 9 .contained []).vd = some 7 ∧
    (event 0x41DF 11 .contained units3).cls = .contained ∧ DataUnit.dram 0x80 ∈ (event 0x41DF 11 .contained units3).poison ∧
    DataUnit.spad 4095 0x3FFFF ∈ (event 0x41DF 11 .contained units3).poison ∧ DataUnit.ream 4095 0x7FFFF ∈ (event 0x41DF 11 .contained units3).poison ∧
    0 ∈ tabKeys striking.cores ∧ coreBank 0 = (event 0 4 .contained []).bank ∧ mcListed 0 4 .contained = true ∧ (striking.core 0).wm = some wm0 ∧
    0 ∈ tabKeys (pressing (pressOf (some 0) none false)).cores ∧ mcListed 0 5 .contained = true ∧
    (0x8000000000000000 : Word)[63] = true ∧ (0 : Word)[63] = false ∧
    ([(0, 1), (0, 4096), (4095, 1), (4096, 1), (0, 0)].all (fun x => decide (((vdAt false false x.1 x.2).vd 0).en = false ∧
      ((vdAt false false x.1 x.2).vd 0).busy = false ∧ (vdAt false false x.1 x.2).devReady = true))) = true ∧ 4096 < 4096 + 1 ∧
    ([(0, 1), (0, 4096), (4095, 1)].all (fun x => decide (1 ≤ ((vdAt false false x.1 x.2).vd 0).qlen ∧
      ((vdAt false false x.1 x.2).vd 0).qbase + ((vdAt false false x.1 x.2).vd 0).qlen ≤ 4096 ∧ 8 ≤ ((vdAt false false x.1 x.2).vd 0).channels.length ∧
      ((vdAt false false x.1 x.2).vd 0).vways ≠ 0 ∧ 0 ∈ (vdAt false false x.1 x.2).cal.toList ∧ 1 ≤ ((vdAt false false x.1 x.2).vd 0).s2lim ∧
      ((vdAt false false x.1 x.2).vd 0).s2base + ((vdAt false false x.1 x.2).vd 0).s2lim ≤ 98304 * ((vdAt false false x.1 x.2).vd 0).channels.length ∧
      ((vdAt false false x.1 x.2).vd 0).dsq ≤ 32 ∧ ((vdAt false false x.1 x.2).vd 0).walkq ≤ 16 ∧ ((vdAt false false x.1 x.2).vd 0).tlbq ≤ 32 ∧
      (((List.range 7).map (fun i => Fin.ofNat 8 (i + 1))).all (fun w => !((vdAt false false x.1 x.2).vd w).en)) = true))) = true ∧
    ([(true, true), (true, false), (false, true)].all (fun x => ((vdAt x.1 x.2 0 1).vd 0).en == x.1 && ((vdAt x.1 x.2 0 1).vd 0).busy == x.2)) = true ∧
    ((vdAt true false 0 1).vd 0).chmask.getLsbD 7 = true ∧ ((vdAt true false 0 1).vd 0).chmask.getLsbD 8 = false ∧
    ((inv true).vd 0).invDone = true ∧ ((inv false).vd 0).invDone = false ∧ ((inv false).vd 0).invOps = none ∧
    ((inv false).ops.all (fun e => !e.2.owesGlobal)) = true := by
  and_intros <;> decide +kernel

/-- Virtual device 0 changed, and beside it virtual device 3, formed over core 0. -/
def forming (f : Vd → Vd) : State := (vdAt false false 0 1).modVd 0 f
def beside : State := { vdAt false false 0 1 with vds := (vdAt false false 0 1).vds.set 3 { Vd.reset with en := true, qlen := 1, chmask := 0xFF00, vways := 2 } }

theorem witness_ErrorsAndIsolationAct_form : ∀ k, FormPasses (vdAt false false 0 1) 0 k
  | 0 => trivial
  | 1 | 2 | 3 | 4 | 5 | 6 | 7 => by simp only [FormPasses]; decide +kernel
  | _ + 8 => trivial

/-- Each check as the first that fails. -/
theorem witness_ErrorsAndIsolationAct_formErr : ¬ FormPasses (forming (fun v => { v with qlen := 0 })) 0 1 ∧
    FormPasses beside 0 1 ∧ ¬ FormPasses beside 0 2 ∧
    ¬ FormPasses (forming (fun v => { v with chmask := 0x7F })) 0 3 ∧ FormPasses (forming (fun v => { v with chmask := 0x7F })) 0 1 ∧
    FormPasses (forming (fun v => { v with chmask := 0x7F })) 0 2 ∧ ¬ FormPasses (forming (fun v => { v with vways := 0 })) 0 4 ∧
    ¬ FormPasses { forming id with cal := State.reset.cal } 0 5 ∧ FormPasses { forming id with cal := State.reset.cal } 0 4 ∧
    ¬ FormPasses (forming (fun v => { v with s2base := 1 })) 0 6 ∧ FormPasses (forming (fun v => { v with s2base := 1 })) 0 5 ∧
    ¬ FormPasses (forming (fun v => { v with dsq := 33 })) 0 7 ∧ FormPasses (forming (fun v => { v with dsq := 33 })) 0 6 := by
  simp only [FormPasses]
  and_intros <;> decide +kernel

/-- Two virtual devices that wait for a spare slot at a link: the one with more tokens has it. -/
def sharing : State :=
  let on : Vd := { Vd.reset with en := true, spare := true }
  { State.reset with vds := (State.reset.vds.set 0 on).set 3 on, links := [(9, ⟨(Vector.replicate 8 1).set 3 2, 2⟩)] }
theorem witness_ErrorsAndIsolationAct_spare : sharing.spareWinner (sharing.link 9) (fun v => v == 0 || v == 3) = some (3 : Fin 8).val ∧
    tabGet sharing.links 9 = some ⟨(Vector.replicate 8 1).set 3 2, 2⟩ := by
  and_intros <;> decide +kernel

def linked : State := { base with devid := 1, route := [(2, 0x8005)], ports := [(5, { Port.reset with up := true }), (6, { Port.reset with up := true, retries := 8 })] }
def frameTo (dev : Nat) (good : Bool) : Frame := ⟨dev, 3, good⟩
def booting (x : Option (List Nat × List Nat)) (st : DevSt) (fw : Nat) : State := { State.reset with boot := x, devSt := st, fwstat := fw }

theorem witness_PlatformActs : (base.vd 0).formed = true ∧ (base.vd 7).formed = false ∧
    ((List.range 8).all (fun j => (base.vd 0).iaKey ((0x6FF8 : Word).toNat + j) == some ((((base.vd 0).iaKey 0x6FF8).getD 0) + j) &&
      !base.inImage 0 ((((base.vd 0).iaKey 0x6FF8).getD 0) + j))) = true ∧
    (∃ k, (base.vd 0).iaKey 0x5000 = some k ∧ base.inImage 0 k = true ∧ base.anyHeldW [⟨true, k⟩] = false) ∧
    base.anyHeldW ((List.range 8).map (fun j => ⟨true, (((base.vd 0).iaKey 0x6FF8).getD 0) + j⟩)) = false ∧ (linked.port 5).up = true ∧
    (frameTo 1 true).dest = linked.devid ∧ (frameTo 2 true).dest ≠ linked.devid ∧ linked.portTo 2 = some 5 ∧ linked.lanePaused 5 3 = false ∧
    (frameTo 1 true).good = true ∧ (frameTo 1 false).good = false ∧ (linked.port 5).retries = 0 ∧ (linked.port 5).retries < 8 ∧ 8 ≤ (linked.port 6).retries ∧
    (linked.port 6).up = true ∧ 95 < 96 ∧ 3 < 4 ∧ (booting none .ready 0).fwstat ≠ 1 ∧ (booting none .recovery 1).fwstat = 1 ∧
    (booting none .booting 0).devSt = .booting ∧ (booting none .booting 0).boot = none ∧ (booting (some ([4095], [95])) .booting 0).boot = some ([4095], [95]) ∧
    (booting none .recovery 0).devSt = .recovery ∧ (booting none .ready 0).devSt ≠ .recovery ∧
    ((vdAt false false 0 1).vd 0).en = false ∧ ((vdAt true false 0 1).vd 0).en = true ∧ ((vdAt true false 0 1).vd 0).formed = true ∧ (booting none .recovery 0).devSt = .recovery ∧ ((8 : Nat) ≠ 8 ∨ (0 : Nat) ≠ 0x0F5000) ∧
    (1 : Word)[0] = true ∧ (0 : Word)[0] = false ∧ (booting none .booting 0).devReady = false ∧ (booting none .booting 0).devSt ≠ .recovery ∧
    0x9000 ≤ 0x9000 ∧ 0x9000 % 8 = 0 := by
  and_intros <;> first | decide +kernel | exact ⟨_, rfl, by decide +kernel, by decide +kernel⟩

/-- The signatures and the rollback counters that the spec leaves open fall under one of the clauses of the firmware check and of bring-up. -/
theorem witness_PlatformActs_firmware (s : State) : (Config.signatureOk s.staged.1 = false ∨ Config.signatureOk s.staged.2 = false) ∨
    (Config.signatureOk s.staged.1 = true ∧ Config.signatureOk s.staged.2 = true ∧ (Config.imageRollback s.staged.1 < s.fused ∨
      s.fused ≤ Config.imageRollback s.staged.1 ∧ (tableOk s.staged.2 = false ∨ tableOk s.staged.2 = true))) := by
  cases Config.signatureOk s.staged.1 <;> cases Config.signatureOk s.staged.2 <;> cases tableOk s.staged.2 <;> simp <;> omega

theorem witness_PlatformActs_bringUp (s : State) : checkStaged s.fused s.flash.1 s.flash.2 ≠ 2 ∨ checkStaged s.fused s.flash.1 s.flash.2 = 2 := by omega

/-! ## Single steps: the spec's own examples -/

/-- One instruction leaves x in w5. -/
def w5 (i : Instr) (s : State) (x : Word) : Bool :=
  match exec i s with
  | .next t => decide (t.getW 5 = x)
  | _ => false

/-- 05 R132: DIV of −7 by 2 gives −3, REM −1; DIVU by 0 gives all ones. -/
theorem test_div : w5 (.div 5 1 2) (regs base [(1, BitVec.ofInt 64 (-7)), (2, 2)]) (BitVec.ofInt 64 (-3)) = true := by decide +kernel
theorem test_rem : w5 (.rem 5 1 2) (regs base [(1, BitVec.ofInt 64 (-7)), (2, 2)]) (BitVec.ofInt 64 (-1)) = true := by decide +kernel
theorem test_divu_zero : w5 (.divu 5 1 2) (regs base [(2, 0)]) 0xFFFFFFFFFFFFFFFF = true := by decide +kernel
/-- 05 R132: DIV of the smallest number by −1 wraps. -/
theorem test_div_wraps : w5 (.div 5 1 2) (regs base [(1, 0x8000000000000000), (2, BitVec.ofInt 64 (-1))]) 0x8000000000000000 = true := by decide +kernel
/-- 05 R131: the source is the destination. -/
theorem test_add_wraps : w5 (.add 5 5 1) (regs base [(1, 1), (5, 0xFFFFFFFFFFFFFFFF)]) 0 = true := by decide +kernel

/-- 04 R119: the table of conversions of 0x4053_3333, and of 0x3C23_D70A to E4M3, under rn, rz and rp. -/
theorem test_conversions : [(12, [0x429A, 0x4299, 0x429A]), (13, [0x4053, 0x4053, 0x4054]), (14, [0x45, 0x45, 0x46]), (15, [0x43, 0x42, 0x43]),
      (16, [0x5, 0x5, 0x6])].all (fun e => e.2 == [RMode.rn, .rz, .rp].map (fun m =>
        ((Fmt.ofCode e.1).map (fun f => (convElem (.flt fp32) f false ⟨m, 1⟩ 0x40533333).1)).getD 0)) = true ∧
    [RMode.rn, .rz, .rp].map (fun m => (convElem (.flt fp32) (.flt e4m3) false ⟨m, 1⟩ 0x3C23D70A).1) = [0x05, 0x05, 0x06] := by decide +kernel

/-- 04 R120: −2.5 to INT8 under rn, rz, rp and rm; 300.0 to INT8 and −1.0 to UINT8. -/
theorem test_to_integers : [RMode.rn, .rz, .rp, .rm].map (fun m => (convElem (.flt fp32) (.int 8) false ⟨m, 1⟩ 0xC0200000).1) = [0xFE, 0xFE, 0xFE, 0xFD] ∧
    (convElem (.flt fp32) (.int 8) false ⟨.rn, 1⟩ 0x43960000).1 = 127 ∧ (convElem (.flt fp32) (.uint 8) false ⟨.rn, 1⟩ 0xBF800000).1 = 0 := by
  decide +kernel

/-- 04 R121: the INT32 value 16,777,217 to FP32 under rn, rz and rp. -/
theorem test_from_integer : [RMode.rn, .rz, .rp].map (fun m => (convElem (.int 32) (.flt fp32) false ⟨m, 1⟩ 16777217).1) =
    [0x4B800000, 0x4B800000, 0x4B800001] := by decide +kernel

/-- 04 R123: 0x4053_3333 as a KS24 scale. -/
theorem test_ks24 : toKs24 .rn 0 (fp32.decode 0x40533333) = 0x80A666 := by decide +kernel

/-- 06 R180: 0x3C00 times 1.5 in FP16, and 448 times 2 in E4M3. -/
theorem test_scaled : fp16.round .rn 0 (scaled (fp16.decode 0x3C00) (ks24Val 0x7F8000)) = 0x3E00 ∧
    e4m3.round .rn 0 (scaled (e4m3.decode 0x7E) (ks24Val 0x800000)) = 0x7E := by decide +kernel

/-- 04 R128: the lane of −1 holds 4094, 4095 and 4096. -/
theorem test_xi_lane : xiLane 4094 4095 4096 = xiAdd 0 (-1) ∧ xiValue (xiLane 4094 4095 4096) = -1 := by decide +kernel

/-- 06 R181: the reciprocal of 3.0 in FP32 and FP16, as element 0 of VRCP. -/
def v1First (i : Instr) (s : State) : Nat :=
  match exec i s with
  | .next t => ((t.getV 1).extractLsb' 0 32).toNat
  | _ => 0
theorem test_vrcp : v1First (.vrcp 1 0) ((withTh (fun th => { th with fmt := 11 })).setV 0 0x40400000) = 0x3EAAAAAC ∧
    v1First (.vrcp 1 0) ((withTh (fun th => { th with fmt := 12 })).setV 0 0x4200) % 65536 = 0x3555 := by decide +kernel

end Sys2Proof.Tests
end

section
/-!
PROOFS. Operands (01 R14): what a read of each code gives, what a write to each code changes, and what a retirement changes.
-/
namespace Sys2Proof.Machine

/-! ## Reads -/

/-- The code of a peek of load-data queue q; the pop's is four above it. -/
theorem toNat_queueCode {q : Nat} (hq : q < 4) :
    (BitVec.ofNat 6 (32 + q)).toNat = 32 + q ∧ (BitVec.ofNat 6 (36 + q)).toNat = 36 + q := by
  simp only [BitVec.toNat_ofNat]
  omega

theorem State.read_queue {s : State} {th : Thread} {r : Code} {q : Nat} {x : Word} {p : Pend} (h : s.cur = some th) (hr : 32 ≤ r.toNat)
    (hr' : r.toNat < 40) (hq : r.toNat % 4 = q) (hx : (arrived (th.lqOf q))[p.at q]? = some x) :
    s.read r p = .ok (x, if r.toNat < 36 then p else p.setIfInBounds q (p.at q + 1)) := by
  simp [State.read, h, show ¬ r.toNat < 32 by omega, hr', hq, hx]

theorem State.read_queue_waits {s : State} {th : Thread} {r : Code} {q : Nat} {p : Pend} (h : s.cur = some th) (hr : 32 ≤ r.toNat)
    (hr' : r.toNat < 40) (hq : r.toNat % 4 = q) (hx : (arrived (th.lqOf q))[p.at q]? = none) :
    s.read r p = .error (.lq q (p.at q + 1)) := by
  simp [State.read, h, show ¬ r.toNat < 32 by omega, hr', hq, hx]

/-- Settles O10: each clause is the branch of Read for its codes. -/
theorem readOfAScalarCode : Obligations.ReadOfAScalarCode := by
  intro s th r p hc
  refine ⟨fun hr ho => by simp [State.read_w hc hr, ho], fun q x hq hx => ?_, fun q hq hx => ?_, State.read_zero hc (by decide) p⟩
  · obtain ⟨h1, h2⟩ := toNat_queueCode hq
    exact ⟨by simpa [h1, show 32 + q < 36 by omega] using State.read_queue (r := BitVec.ofNat 6 (32 + q)) hc (by omega) (by omega) (by omega) hx,
      by simpa [h2, show ¬ 36 + q < 36 by omega] using State.read_queue (r := BitVec.ofNat 6 (36 + q)) hc (by omega) (by omega) (by omega) hx⟩
  · obtain ⟨h1, h2⟩ := toNat_queueCode hq
    exact ⟨State.read_queue_waits hc (by omega) (by omega) (by omega) hx, State.read_queue_waits hc (by omega) (by omega) (by omega) hx⟩

/-! ## Writes -/

/-- A second entry under a key replaces the first. -/
theorem tabSet_tabSet_same {α : Type} (t : Tab α) (k : Nat) (v w : α) : tabSet (tabSet t k v) k w = tabSet t k w := by
  induction t with
  | nil => simp [tabSet]
  | cons e t ih =>
    obtain ⟨j, x⟩ := e
    rcases Nat.lt_trichotomy k j with h | h | h
    · simp [tabSet, h]
    · simp [tabSet, h]
    · simp [tabSet, show ¬ k < j by omega, show k ≠ j by omega, ih]

theorem State.wsKey_of_cur {s : State} {th : Thread} (h : s.cur = some th) (off : Nat) : s.wsKey off = spadKey s.curCore (th.wp + off) := by
  simp [State.wsKey, h]

/-- A read of workspace bytes gives the number that was written there. -/
theorem State.wsRead_wsWrite_same (s : State) (off n v : Nat) : (s.wsWrite off n v).wsRead off n = v % 256 ^ n :=
  leNat_memBytes_put (s.wsKey off) n v

/-- Workspace bytes beside those written read as before. -/
theorem State.wsRead_wsWrite_other {s : State} {th : Thread} (h : s.cur = some th) {off n o m : Nat} (v : Nat)
    (ho : o + m ≤ off ∨ off + n ≤ o) : (s.wsWrite off n v).wsRead o m = s.wsRead o m := by
  have hk : (s.wsWrite off n v).wsKey o = s.wsKey o := rfl
  refine congrArg leNat (memBytes_put_outside s.spad (s.wsKey off) (leBytes n v) ((s.wsWrite off n v).wsKey o) m ?_)
  rw [hk, State.wsKey_of_cur h, State.wsKey_of_cur h, leBytes_length]
  simp only [spadKey]
  omega

/-- A w register outside handler mode is eight bytes of the workspace; in handler mode it is one of the handler bank (17 R363). -/
theorem State.setW_of_thread {s : State} {th : Thread} (h : s.cur = some th) (hh : th.handler = false) (i : Nat) (x : Word) :
    s.setW i x = s.wsWrite (8 * i) 8 x.toNat := by simp [State.setW, h, hh]

theorem State.setW_in_handler {s : State} {th : Thread} (h : s.cur = some th) (hh : th.handler = true) (i : Nat) (x : Word) :
    s.setW i x = s.setCur { th with bank := th.bank.setIfInBounds i x } := by simp [State.setW, h, hh]

theorem State.getW_of_thread {s : State} {th : Thread} (h : s.cur = some th) (hh : th.handler = false) (i : Nat) :
    s.getW i = BitVec.ofNat 64 (s.wsRead (8 * i) 8) := by simp [State.getW, h, hh]

theorem State.getW_in_handler {s : State} {th : Thread} (h : s.cur = some th) (hh : th.handler = true) (i : Nat) :
    s.getW i = (th.bank[i]?).getD 0 := by simp [State.getW, h, hh]

theorem State.getW_setW_same {s : State} {th : Thread} (h : s.cur = some th) {i : Nat} (hi : i < 32) (x : Word) : (s.setW i x).getW i = x := by
  cases hh : th.handler with
  | false =>
    rw [State.setW_of_thread h hh, State.getW_of_thread (th := th) (by simpa using h) hh, State.wsRead_wsWrite_same]
    exact BitVec.eq_of_toNat_eq (by simpa using x.isLt)
  | true =>
    rw [State.setW_in_handler h hh, State.getW_in_handler (State.cur_setCur h { th with bank := th.bank.setIfInBounds i x }) hh]
    simp [hi]

theorem State.getW_setW_other {s : State} {th : Thread} (h : s.cur = some th) {i j : Nat} (hj : j ≠ i) (x : Word) :
    (s.setW i x).getW j = s.getW j := by
  cases hh : th.handler with
  | false =>
    rw [State.setW_of_thread h hh, State.getW_of_thread (th := th) (by simpa using h) hh, State.getW_of_thread h hh,
      State.wsRead_wsWrite_other h _ (by omega)]
  | true =>
    rw [State.setW_in_handler h hh, State.getW_in_handler (State.cur_setCur h { th with bank := th.bank.setIfInBounds i x }) hh,
      State.getW_in_handler h hh, Vector.getElem?_setIfInBounds_ne (Ne.symm hj)]

/-- A write to a code below 32 is one of a w register. -/
theorem State.write_w {s u : State} {d : Code} {x : Word} (hd : d.toNat < 32) (hw : s.write d x = some u) : u = s.setW d.toNat x := by
  obtain ⟨th, -, ⟨-, -, e⟩ | ⟨h, -, -, -, -⟩ | ⟨h, -⟩⟩ := State.write_some hw
  · exact e
  · omega
  · omega

/-- A write to code 40 or 41 pushes the value on that store-data queue. -/
theorem State.write_queue {s u : State} {th : Thread} {d : Code} {x : Word} (h : s.cur = some th) (hd : 40 ≤ d.toNat) (hd' : d.toNat < 42)
    (hw : s.write d x = some u) : u = s.setCur (th.sqAppend (d.toNat - 40) [x]) := by
  obtain ⟨a, ha, ⟨hlt, -, -⟩ | ⟨-, -, -, -, e⟩ | ⟨hge, -⟩⟩ := State.write_some hw
  · omega
  · rw [h] at ha; cases ha; exact e
  · omega

/-- A write to code 42 changes nothing. -/
theorem State.write_discard {s u : State} {d : Code} {x : Word} (hd : 42 ≤ d.toNat) (hw : s.write d x = some u) : u = s := by
  obtain ⟨th, -, ⟨h, -, -⟩ | ⟨-, h, -, -, -⟩ | ⟨-, e⟩⟩ := State.write_some hw
  · omega
  · omega
  · exact e

theorem Thread.sqOf_sqAppend_same (th : Thread) {j : Nat} (hj : j < 2) (xs : List Word) : (th.sqAppend j xs).sqOf j = th.sqOf j ++ xs := by
  simp [Thread.sqOf, Thread.sqAppend, hj]

theorem Thread.sqOf_sqAppend_other (th : Thread) {j k : Nat} (h : k ≠ j) (xs : List Word) : (th.sqAppend j xs).sqOf k = th.sqOf k := by
  simp only [Thread.sqOf, Thread.sqAppend]
  rw [Vector.getElem?_setIfInBounds_ne (Ne.symm h)]

theorem State.cur_write_queue {s u : State} {th : Thread} {d : Code} {x : Word} (h : s.cur = some th) (hd : 40 ≤ d.toNat) (hd' : d.toNat < 42)
    (hw : s.write d x = some u) : u.cur.map (·.sqOf (d.toNat - 40)) = some (th.sqOf (d.toNat - 40) ++ [x]) := by
  rw [State.write_queue h hd hd' hw, State.cur_setCur h, Option.map_some, Thread.sqOf_sqAppend_same _ (by omega)]

/-- Outside the bytes written the scratchpad reads as before. -/
theorem State.memRead_wsWrite_outside {s : State} {th : Thread} (h : s.cur = some th) {off n k : Nat} (v : Nat) (hk : ¬ s.wsBytes th off n k) :
    memRead (s.wsWrite off n v).spad k = memRead s.spad k := by
  refine memRead_put_outside s.spad _ k _ ?_
  rw [State.wsKey_of_cur h, leBytes_length]
  unfold State.wsBytes at hk
  omega

/-- The words that stay poisoned are those that the write does not replace whole (17 R383). -/
theorem State.mem_poisonS_wsWrite {s : State} {th : Thread} (h : s.cur = some th) (off n v u : Nat) :
    u ∈ (s.wsWrite off n v).poisonS ↔
      u ∈ s.poisonS ∧ ¬ (spadKey s.curCore (th.wp + off) ≤ 8 * u ∧ 8 * u + 8 ≤ spadKey s.curCore (th.wp + off) + n) := by
  simp only [State.wsWrite, State.wsKey_of_cur h, List.mem_filter, Bool.not_eq_true', decide_eq_false_iff_not]

/-! ## Retirement -/

/-- Two changes of the current thread are one. -/
theorem State.modCur_modCur {s : State} {th : Thread} (h : s.cur = some th) (f g : Thread → Thread) :
    (s.modCur f).modCur g = s.modCur (fun th => g (f th)) := by
  have hf : ((s.core s.curCore).setThread s.curSlot (some (f th))).thread s.curSlot = some (f th) := Core.thread_setThread_same h _
  have hs : s.thread s.curCore s.curSlot = some th := h
  have hm : ∀ k : Thread → Thread, s.modCur k = s.setCore s.curCore ((s.core s.curCore).setThread s.curSlot (some (k th))) := by
    intro k
    simp [State.modCur, State.modThread, hs, State.setThread, State.modCore]
  rw [hm f, hm]
  simp only [State.modCur, State.modThread, State.thread, State.setCore_curCore, State.setCore_curSlot, State.core_setCore_same, hf,
    State.setThread, State.modCore]
  simp only [State.setCore, tabSet_tabSet_same, Core.setThread]
  simp [Vector.setIfInBounds]

theorem Thread.lqOf_retire (th : Thread) (p : Pend) (n : Nat) {q : Nat} (hq : q < 4) :
    (th.retire p n).lqOf q = (th.lqOf q).drop (p.at q) := by
  simp [Thread.lqOf, Thread.retire, Pend.at, hq]

theorem State.retireTo_eq {s : State} {th : Thread} (h : s.cur = some th) (p : Pend) (n : Nat) (x : Word) :
    s.retireTo p x = (s.retire p n).modCur (fun c => { c with pc := x }) := by
  rw [State.retire, State.modCur_modCur h]
  rfl

/-- Settles O11: a write is one of three (`State.write_some`), and a retirement is one change of the current thread. -/
theorem writesAndRetirement : Obligations.WritesAndRetirement := by
  refine ⟨fun s u th d x _ hc hw => ⟨fun hd => ?_, fun hd hh => ?_, fun hd hh => ?_, ?_, ?_, ?_⟩, fun s th p n hc => ?_⟩
  · rw [State.write_w hd hw]
    exact ⟨State.getW_setW_same hc hd x, fun i _ hi => State.getW_setW_other hc hi x⟩
  · rw [State.write_w hd hw, State.setW_of_thread hc hh]
    refine ⟨rfl, fun k => State.memRead_wsWrite_outside hc _, fun w => ?_⟩
    rw [State.mem_poisonS_wsWrite hc]
    exact and_congr_right fun _ => by omega
  · rw [State.write_w hd hw, State.setW_in_handler hc hh]
    rfl
  · rintro rfl
    exact State.cur_write_queue hc (by decide) (by decide) hw
  · rintro rfl
    exact State.cur_write_queue hc (by decide) (by decide) hw
  · rintro rfl
    exact State.write_discard (by decide) hw
  · exact ⟨th.retire p n, State.cur_retire hc p n, rfl, rfl, fun q hq => Thread.lqOf_retire th p n hq, rfl, by simp, by simp, by simp,
      State.retireTo_eq hc p n⟩

/-! ## Frames of the scalar instructions -/

/-- A change of the current thread changes its core alone. -/
theorem State.modCur_cores (s : State) (f : Thread → Thread) : ∃ cs, s.modCur f = { s with cores := cs } := by
  unfold State.modCur State.modThread
  split
  · exact ⟨_, rfl⟩
  · exact ⟨_, rfl⟩

/-- A change of the current thread leaves the rest of its core alone. -/
theorem State.core_modCur_rest (s : State) (f : Thread → Thread) (l : Vector (Option Thread) 4) :
    { (s.modCur f).core s.curCore with slots := l } = { s.core s.curCore with slots := l } := by
  unfold State.modCur State.modThread
  split
  · rfl
  · simp [State.setThread, Core.setThread]

theorem State.core_modCur_other (s : State) (f : Thread → Thread) {c : Nat} (h : c ≠ s.curCore) : (s.modCur f).core c = s.core c := by
  unfold State.modCur State.modThread
  split
  · rfl
  · exact State.core_modCore_other s _ h

theorem Framed.refl (s : State) (ks : Nat → Prop) : Framed s s ks :=
  ⟨fun _ _ => rfl, fun _ => .inl Iff.rfl, rfl, fun _ _ => rfl, rfl, fun _ _ => rfl⟩

/-- The current core and slot are as before. -/
theorem Framed.current {s t : State} {ks : Nat → Prop} (h : Framed s t ks) : t.curCore = s.curCore ∧ t.curSlot = s.curSlot :=
  have hcore := congrArg State.curCore h.rest
  have hslot := congrArg State.curSlot h.rest
  ⟨hcore, hslot⟩

/-- A change of the current thread keeps a frame. -/
theorem Framed.modCur {s t : State} {ks : Nat → Prop} (h : Framed s t ks) (f : Thread → Thread) : Framed s (t.modCur f) ks := by
  obtain ⟨hcore, hslot⟩ := h.current
  obtain ⟨cs, e⟩ := t.modCur_cores f
  refine ⟨by simpa using h.spad, by simpa using h.poison, ?_, fun c hc => ?_, ?_, fun j hj => ?_⟩
  · rw [e]; exact h.rest
  · rw [State.core_modCur_other t f (by omega), h.cores c hc]
  · rw [← hcore, State.core_modCur_rest, hcore]; exact h.core
  · rw [← h.slots j hj]
    exact State.thread_modThread_other t f (.inr (by omega))

theorem Framed.setCur {s : State} {th : Thread} (h : s.cur = some th) (x : Thread) (ks : Nat → Prop) : Framed s (s.setCur x) ks := by
  have hs : s.thread s.curCore s.curSlot = some th := h
  have e : s.setCur x = s.modCur (fun _ => x) := by simp [State.modCur, State.modThread, hs, State.setCur]
  rw [e]
  exact (Framed.refl s ks).modCur _

/-- A workspace write is framed by its bytes. -/
theorem Framed.wsWrite {s : State} {th : Thread} (h : s.cur = some th) (off n v : Nat) : Framed s (s.wsWrite off n v) (s.wsBytes th off n) := by
  refine ⟨fun k => State.memRead_wsWrite_outside h v, fun u => ?_, rfl, fun _ _ => rfl, rfl, fun _ _ => rfl⟩
  have hm := State.mem_poisonS_wsWrite h off n v u
  by_cases hu : spadKey s.curCore (th.wp + off) ≤ 8 * u ∧ 8 * u + 8 ≤ spadKey s.curCore (th.wp + off) + n
  · refine .inr ⟨by simp [hm, hu], fun i hi => ?_⟩
    unfold State.wsBytes
    omega
  · exact .inl (by simp [hm, hu])

theorem Framed.mono {s t : State} {ks ls : Nat → Prop} (h : Framed s t ks) (hk : ∀ k, ks k → ls k) : Framed s t ls :=
  ⟨fun k hl => h.spad k fun hs => hl (hk k hs), fun u => (h.poison u).imp id fun ⟨hn, hu⟩ => ⟨hn, fun i hi => hk _ (hu i hi)⟩,
    h.rest, h.cores, h.core, h.slots⟩

theorem PopsOnly.refl (a : Thread) : PopsOnly a a := fun _ => ⟨0, rfl⟩

theorem PopsOnly.trans {a b c : Thread} (h : PopsOnly a b) (k : PopsOnly b c) : PopsOnly a c := fun q => by
  obtain ⟨n, hn⟩ := h q
  obtain ⟨m, hm⟩ := k q
  exact ⟨n + m, by rw [hm, hn, List.drop_drop]⟩

/-- Entries leave the four queues at their heads; there is no other queue. -/
theorem PopsOnly.retire (a : Thread) (p : Pend) (n : Nat) : PopsOnly a (a.retire p n) := fun q => by
  by_cases hq : q < 4
  · exact ⟨p.at q, Thread.lqOf_retire a p n hq⟩
  · exact ⟨0, by simp [Thread.lqOf, hq]⟩

/-- Before it retires an instruction that writes nothing has changed nothing. -/
theorem RetiredScalar.refl {s : State} {th : Thread} (h : s.cur = some th) (d : Code) : RetiredScalar false s s d :=
  ⟨th, th, h, h, .refl s _, rfl, .refl th, fun _ => rfl, fun _ => rfl, fun _ _ => rfl, fun _ => rfl, fun _ => rfl⟩

/-- A change of the current thread that pops load-data queues, moves the pc, ends a wait and, where the instruction rounds, steps the
generator is one of those that retirement may make. -/
theorem RetiredScalar.modCur {rounds : Bool} {s t : State} {d : Code} (h : RetiredScalar rounds s t d) {f : Thread → Thread}
    (hf : ∀ b, { f b with pc := b.pc, run := b.run, lq := b.lq, seed := b.seed } = b) (hq : ∀ b, PopsOnly b (f b))
    (hr : rounds = false → ∀ b, (f b).seed = b.seed) : RetiredScalar rounds s (t.modCur f) d := by
  obtain ⟨a, b, ha, hb, hfr, hrest, hpops, hseed, hbank, hbanks, h0, h1⟩ := h
  have hf := hf b
  have ebank := congrArg Thread.bank hf
  have esq := congrArg Thread.sq hf
  simp only at ebank esq
  refine ⟨a, f b, ha, State.cur_modCur hb f, hfr.modCur f, ?_, hpops.trans (hq b), fun e => by rw [hr e, hseed e],
    by rwa [ebank], by rwa [ebank], ?_, ?_⟩
  · have e := congrArg (fun c : Thread => { c with pc := a.pc, run := a.run, lq := a.lq, sq := a.sq, bank := a.bank, seed := a.seed }) hf
    exact Eq.trans e hrest
  · simpa only [Thread.sqOf, esq] using h0
  · simpa only [Thread.sqOf, esq] using h1

theorem RetiredScalar.retire {rounds : Bool} {s t : State} {d : Code} (h : RetiredScalar rounds s t d) (p : Pend) (n : Nat) :
    RetiredScalar rounds s (t.retire p n) d := h.modCur (fun _ => rfl) (fun b => .retire b p n) (fun _ _ => rfl)

theorem RetiredScalar.retireTo {rounds : Bool} {s t : State} {d : Code} (h : RetiredScalar rounds s t d) (p : Pend) (x : Word) :
    RetiredScalar rounds s (t.retireTo p x) d := h.modCur (fun _ => rfl) (fun b => PopsOnly.retire b p 0) (fun _ _ => rfl)

theorem RetiredScalar.setSeed {rounds : Bool} {s t : State} {d : Code} (h : RetiredScalar rounds s t d) (r : Rnd) :
    RetiredScalar true s (t.setSeed r) d := by
  obtain ⟨a, b, ha, hb, hfr, hrest, hpops, -, hregs⟩ := h
  exact RetiredScalar.modCur (rounds := true) (f := fun th => { th with seed := r.seed }) ⟨a, b, ha, hb, hfr, hrest, hpops, by simp, hregs⟩ (fun _ => rfl)
    (fun b => .refl b) (by simp)

/-- A write to a destination code changes that register, that queue, or nothing. -/
theorem RetiredScalar.of_write {s u : State} {d : Code} {x : Word} (hd : d.toNat < 32 ∨ 40 ≤ d.toNat) (hw : s.write d x = some u) :
    RetiredScalar false s u d := by
  obtain ⟨th, hc, ⟨hlt, -, rfl⟩ | ⟨hge, hlt, -, -, rfl⟩ | ⟨-, rfl⟩⟩ := State.write_some hw
  · cases hh : th.handler with
    | false =>
      rw [State.setW_of_thread hc hh]
      exact ⟨th, th, hc, hc, (Framed.wsWrite hc _ _ _).mono fun k hk => ⟨hlt, hh, hk⟩, rfl, .refl th, fun _ => rfl, fun _ => rfl,
        fun _ _ => rfl, fun _ => rfl, fun _ => rfl⟩
    | true =>
      rw [State.setW_in_handler hc hh]
      exact ⟨th, _, hc, State.cur_setCur hc _, .setCur hc _ _, rfl, .refl _, fun _ => rfl, by simp [hh],
        fun i hi => Vector.getElem?_setIfInBounds_ne (Ne.symm hi), fun _ => rfl, fun _ => rfl⟩
  · have hq : ∀ k : Nat, k < 2 → d ≠ BitVec.ofNat 6 (40 + k) → k ≠ d.toNat - 40 := fun k hk hne he =>
      hne (BitVec.eq_of_toNat_eq (by rw [BitVec.toNat_ofNat]; omega))
    exact ⟨th, _, hc, State.cur_setCur hc _, .setCur hc _ _, rfl, .refl _, fun _ => rfl, fun _ => rfl, fun _ _ => rfl,
      fun h0 => Thread.sqOf_sqAppend_other th (hq 0 (by omega) h0) _, fun h1 => Thread.sqOf_sqAppend_other th (hq 1 (by omega) h1) _⟩
  · exact .refl hc d

end Sys2Proof.Machine
end

section
/-!
PROOFS. Frames of the scalar instructions: for each shape that they share, a next state is a wait, a trap, or a retirement after one write.
-/
namespace Sys2Proof.Machine

theorem Ends.of_wait {s t : State} {P : Prop} {w : Why} (h : t = s.modCur (fun th => { th with run := .blocked w })) : Ends s t P := .inl ⟨w, h⟩

theorem Ends.of_trap {s t : State} {P : Prop} {k : Trap} {code : Nat} {addr : Word} (h : trap k code addr s = .next t) : Ends s t P :=
  .inr (.inl ⟨k, code, addr, .inl (trap_next.mp h)⟩)

theorem Ends.of_trapCode {s t : State} {P : Prop} {k : Trap} {addr : Word} (h : trapCode k addr s = .next t) : Ends s t P :=
  .inr (.inl ⟨k, 0, addr, .inr (by simpa [trapCode, eq_comm] using h)⟩)

theorem Ends.of_effect {s t : State} {P : Prop} (h : P) : Ends s t P := .inr (.inr h)

theorem Ends.of_block {s t : State} {P : Prop} {w : Why} (h : block w s = .next t) : Ends s t P := .of_wait (block_next.mp h)

/-- A checked instruction ends as its continuation does, or in the illegal-operand trap. -/
theorem Ends.of_checked {ok : Bool} {s t : State} {P : Prop} {k : Thread → Out} (h : checked ok s k = .next t)
    (hk : ∀ th, s.cur = some th → ok = true → k th = .next t → Ends s t P) : Ends s t P := by
  obtain ⟨th, hc, ⟨hok, e⟩ | ⟨-, e⟩⟩ := checked_next.mp h
  · exact hk th hc hok e
  · exact .inr (.inl ⟨_, _, _, .inl e⟩)

theorem Ends.of_reading {α : Type} {r : Except Why (α × Pend)} {s t : State} {P : Prop} {k : α → Pend → Out} (h : reading r s k = .next t)
    (hk : ∀ x p, k x p = .next t → Ends s t P) : Ends s t P := by
  obtain ⟨x, p, -, e⟩ | ⟨w, -, e⟩ := reading_next.mp h
  · exact hk x p e
  · exact .of_wait e

/-- A scalar code that a write may name: none of the load-data queues. -/
theorem writable_of_legalDst {d : Code} (h : legalDst d = true) : d.toNat < 32 ∨ 40 ≤ d.toNat := by
  simp only [legalDst, Bool.or_eq_true, decide_eq_true_eq, beq_iff_eq] at h
  omega

theorem writable_of_legalBoth {d : Code} (h : legalBoth d = true) : d.toNat < 32 ∨ 40 ≤ d.toNat := by
  simp only [legalBoth, Bool.or_eq_true, decide_eq_true_eq, beq_iff_eq] at h
  omega

section
variable {s t : State} {d a b c : Code}

theorem writing_ends {x : Word} {p : Pend} {n : Nat} (hd : d.toNat < 32 ∨ 40 ≤ d.toNat) (h : writing (s.write d x) p n s = .next t) :
    Ends s t (RetiredScalar false s t d) := by
  obtain ⟨u, hu, rfl⟩ | ⟨-, e⟩ := writing_next.mp h
  · exact .of_effect ((RetiredScalar.of_write hd hu).retire p n)
  · exact .of_wait e

theorem writingSeed_ends {x : Word} {r : Rnd} {p : Pend} {n : Nat} (hd : d.toNat < 32 ∨ 40 ≤ d.toNat)
    (h : writingSeed (s.write d x) r p n s = .next t) : Ends s t (RetiredScalar true s t d) := by
  cases hw : s.write d x with
  | none => exact .of_block (w := .retry) (by simpa [writingSeed, hw] using h)
  | some u =>
    simp only [writingSeed, hw, Host.Outcome.next.injEq] at h
    exact .of_effect (h ▸ ((RetiredScalar.of_write hd hw).setSeed r).retire p n)

/-- A transfer after a write ends in the trap of its target or at it (05 R166). -/
theorem transfer_ends {u : State} {th : Thread} {p : Pend} {x : Word} (hu : RetiredScalar false s u d) (h : transfer p x th s u = .next t) :
    Ends s t (RetiredScalar false s t d) := by
  unfold transfer at h
  split at h
  · cases h
    exact .of_effect (hu.retireTo p x)
  · exact .of_trap h

theorem scalar2_ends {f : Word → Word → Word} (h : scalar2 d a b f s = .next t) : Ends s t (RetiredScalar false s t d) :=
  .of_checked h fun _ _ ok h => .of_reading h fun _ _ h => .of_reading h fun _ _ h => by
    simp only [Bool.and_eq_true] at ok
    exact writing_ends (writable_of_legalDst ok.1.1) h

theorem scalar1_ends {n : Nat} {f : Word → Word} (h : scalar1 n d a f s = .next t) : Ends s t (RetiredScalar false s t d) :=
  .of_checked h fun _ _ ok h => .of_reading h fun _ _ h => by
    simp only [Bool.and_eq_true] at ok
    exact writing_ends (writable_of_legalDst ok.1) h

theorem scalar0_ends {n : Nat} {x : Word} (h : scalar0 n d x s = .next t) : Ends s t (RetiredScalar false s t d) :=
  .of_checked h fun _ _ ok h => writing_ends (writable_of_legalDst ok) h

theorem scalar3_ends {f : Word → Word → Word → Word} (h : scalar3 d a b f s = .next t) : Ends s t (RetiredScalar false s t d) :=
  .of_checked h fun _ _ ok h => .of_reading h fun _ _ h => .of_reading h fun _ _ h => .of_reading h fun _ _ h => by
    simp only [Bool.and_eq_true] at ok
    exact writing_ends (writable_of_legalBoth ok.1.1) h

theorem execBfi_ends {pos len : BitVec 6} (h : execBfi d a pos len s = .next t) : Ends s t (RetiredScalar false s t d) :=
  .of_checked h fun _ _ ok h => .of_reading h fun _ _ h => .of_reading h fun _ _ h => by
    simp only [Bool.and_eq_true] at ok
    exact writing_ends (writable_of_legalBoth ok.1) h

theorem fps1_ends {n : Nat} {f : Rnd → Word → Word × Rnd} (h : fps1 n d a s f = .next t) : Ends s t (RetiredScalar true s t d) :=
  .of_checked h fun _ _ ok h => .of_reading h fun _ _ h => by
    simp only [Bool.and_eq_true] at ok
    exact writingSeed_ends (writable_of_legalDst ok.1) h

theorem fps2_ends {n : Nat} {f : Rnd → Word → Word → Word × Rnd} (h : fps2 n d a b s f = .next t) : Ends s t (RetiredScalar true s t d) :=
  .of_checked h fun _ _ ok h => .of_reading h fun _ _ h => .of_reading h fun _ _ h => by
    simp only [Bool.and_eq_true] at ok
    exact writingSeed_ends (writable_of_legalDst ok.1.1) h

theorem fps3_ends {n : Nat} {f : Rnd → Word → Word → Word → Word × Rnd} (h : fps3 n d a b c s f = .next t) :
    Ends s t (RetiredScalar true s t d) :=
  .of_checked h fun _ _ ok h => .of_reading h fun _ _ h => .of_reading h fun _ _ h => .of_reading h fun _ _ h => by
    simp only [Bool.and_eq_true] at ok
    exact writingSeed_ends (writable_of_legalDst ok.1.1.1) h

theorem withEa_ends {ok x : Bool} {off : BitVec 12} {P : Prop} {k : BitVec 32 → Pend → Out} (h : withEa ok x a b off s k = .next t)
    (hk : ∀ ea p, ok = true → k ea p = .next t → Ends s t P) : Ends s t P :=
  .of_checked h fun _ _ hok h => .of_reading h fun _ _ h => .of_reading h fun _ p h => by
    simp only [Bool.and_eq_true] at hok
    exact hk _ p hok.1.1 h

theorem ldwForm_ends {x : Bool} {n : Nat} {off : BitVec 12} (h : ldwForm x n d a b off s = .next t) : Ends s t (RetiredScalar false s t d) :=
  withEa_ends h fun ea p ok h => by
    obtain ⟨th, -, h⟩ := withThread_next.mp h
    simp only at h
    split at h
    · exact .of_trap h
    split at h
    · exact .of_trap h
    split at h
    · exact .of_block h
    split at h
    · exact .of_trap h
    · exact writing_ends (writable_of_legalDst ok) h

theorem execRdsr_ends {num : BitVec 12} (h : execRdsr d num s = .next t) : Ends s t (RetiredScalar false s t d) := by
  obtain ⟨th, -, h⟩ := withThread_next.mp h
  split at h
  · exact .of_trap h
  · refine .of_checked h fun th _ ok h => ?_
    split at h
    · exact .of_trap h
    · exact writing_ends (writable_of_legalDst ok) h

theorem branch_ends {cd : Cond} {n : Nat} {dest : Word → Word} (h : branch cd a b n dest s = .next t) : Ends s t (RetiredScalar false s t 42) :=
  .of_checked h fun _ hc _ h => .of_reading h fun _ _ h => .of_reading h fun _ p h => by
    split at h
    · exact transfer_ends (.refl hc 42) h
    · cases h
      exact .of_effect ((RetiredScalar.refl hc 42).retire p n)

theorem execLoop_ends {d8 : BitVec 8} (h : execLoop a d8 s = .next t) : Ends s t (RetiredScalar false s t a) :=
  .of_checked h fun _ _ ok h => .of_reading h fun x p h => by
    cases hw : s.write a (x - 1) with
    | none =>
      simp only [hw] at h
      exact .of_block h
    | some u =>
      have hu : RetiredScalar false s u a := .of_write (.inl (of_decide_eq_true ok)) hw
      simp only [hw] at h
      split at h
      · exact transfer_ends hu h
      · cases h
        exact .of_effect (hu.retire p 1)

theorem execJ_ends {d24 : BitVec 24} (h : execJ d24 s = .next t) : Ends s t (RetiredScalar false s t 42) := by
  obtain ⟨th, hc, h⟩ := withThread_next.mp h
  exact transfer_ends (.refl hc 42) h

theorem execCall_ends {d24 : BitVec 24} (h : execCall d24 s = .next t) : Ends s t (RetiredScalar false s t 31) := by
  obtain ⟨th, -, h⟩ := withThread_next.mp h
  cases hw : s.write 31 (th.pc + 4) with
  | none =>
    simp only [hw] at h
    exact .of_block h
  | some u =>
    simp only [hw] at h
    exact transfer_ends (.of_write (.inl (by decide)) hw) h

/-- A landing pad lets its transfer through, or the thread takes a trap (05 R140, R142). -/
theorem pad_ends {th : Thread} (hc : s.cur = some th) {p : Pend} {x : Word} {want : Word32} {code : Nat} (h : pad p x want code th s = .next t) :
    Ends s t (RetiredScalar false s t 42) := by
  unfold pad at h
  split at h
  · exact .of_trapCode h
  split at h
  · cases h
    exact .of_effect ((RetiredScalar.refl hc 42).retireTo p x)
  · exact .of_trap h

theorem execRet_ends (h : execRet a s = .next t) : Ends s t (RetiredScalar false s t 42) :=
  .of_checked h fun _ hc _ h => .of_reading h fun _ _ h => by
    split at h
    · exact .of_trap h
    · exact pad_ends hc h

theorem execJmpt_ends (h : execJmpt a b s = .next t) : Ends s t (RetiredScalar false s t 42) :=
  .of_checked h fun _ hc _ h => .of_reading h fun _ _ h => .of_reading h fun _ _ h => by
    simp only at h
    split at h
    · exact .of_trap h
    split at h
    · exact .of_trap h
    split at h
    · exact .of_trap h
    split at h
    · exact .of_block h
    · exact .of_trap h
    split at h
    · exact .of_trap h
    split at h
    · exact .of_trap h
    split at h
    · exact .of_block h
    · exact .of_trap h
    split at h
    · exact .of_trap h
    · exact pad_ends hc h

end

/-! ## The shape of each scalar instruction -/

theorem exec_binary (d a b : Code) : ∀ e ∈ binaries ++ setcs, ∃ f, ∀ s, exec (e.1 d a b) s = scalar2 d a b f s := by
  simp only [binaries, setcs, List.map_cons, List.map_nil, List.cons_append, List.nil_append, List.forall_mem_cons, List.not_mem_nil,
    false_imp_iff, implies_true, and_true]
  and_intros <;> exact ⟨_, fun _ => rfl⟩

theorem exec_unary (d a : Code) (imm : BitVec 12) (lit : Word) (n : BitVec 6) (m : BitVec 7) (pos len : BitVec 6) :
    ∀ e ∈ unaries imm lit n m pos len, ∃ f, ∀ s, exec (e.2.1 d a) s = scalar1 e.1 d a f s := by
  simp only [unaries, List.forall_mem_cons, List.not_mem_nil, false_imp_iff, implies_true, and_true]
  and_intros <;> exact ⟨_, fun _ => rfl⟩

theorem exec_floatBinary (d a b : Code) (pr : FPred) (fmto : BitVec 5) : ∀ e ∈ floatBinaries pr,
    (∃ f, ∀ s, exec (e.1 d a b) s = fps2 1 d a b s f) ∧ ∃ f, ∀ s, exec (e.2.1 d a b fmto) s = fps2 3 d a b s f := by
  simp only [floatBinaries, List.forall_mem_cons, List.not_mem_nil, false_imp_iff, implies_true, and_true]
  exact ⟨⟨⟨fadd fp32, fun _ => rfl⟩, fadd (scalarFmt fmto), fun _ => rfl⟩, ⟨⟨fsub fp32, fun _ => rfl⟩, fsub (scalarFmt fmto), fun _ => rfl⟩,
    ⟨⟨fmul fp32, fun _ => rfl⟩, fmul (scalarFmt fmto), fun _ => rfl⟩, ⟨⟨fdiv fp32, fun _ => rfl⟩, fdiv (scalarFmt fmto), fun _ => rfl⟩,
    ⟨⟨fmin fp32, fun _ => rfl⟩, fmin (scalarFmt fmto), fun _ => rfl⟩, ⟨⟨fmax fp32, fun _ => rfl⟩, fmax (scalarFmt fmto), fun _ => rfl⟩,
    ⟨fcmp pr fp32, fun _ => rfl⟩, fcmp pr (scalarFmt fmto), fun _ => rfl⟩

theorem exec_floatUnary (d a : Code) (fmto : BitVec 5) : ∀ e ∈ floatUnaries,
    (∃ f, ∀ s, exec (e.1 d a) s = fps1 1 d a s f) ∧ ∃ f, ∀ s, exec (e.2.1 d a fmto) s = fps1 3 d a s f := by
  simp only [floatUnaries, List.forall_mem_cons, List.not_mem_nil, false_imp_iff, implies_true, and_true]
  exact ⟨⟨⟨fsqrt fp32, fun _ => rfl⟩, fsqrt (scalarFmt fmto), fun _ => rfl⟩, ⟨fcls fp32, fun _ => rfl⟩, fcls (scalarFmt fmto), fun _ => rfl⟩

theorem exec_ffma (d a b c : Code) (fmto : BitVec 5) (s : State) : exec (.ffma d a b c fmto) s = fps3 3 d a b c s (fun r x y z =>
    roundWord (scalarFmt fmto) r (Ext.add r.mode (Ext.mul (floatOf (scalarFmt fmto) x) (floatOf (scalarFmt fmto) y)) (floatOf (scalarFmt fmto) z))) :=
  rfl

theorem exec_fcvt (d a : Code) (fmto fmtd : BitVec 5) (s : State) : exec (.fcvt d a fmto fmtd) s = fps1 3 d a s (fcvt fmto fmtd) := rfl

theorem exec_bc (cd : Cond) (a b : Code) (d8 : BitVec 8) (s : State) : exec (.bc cd a b d8) s = branch cd a b 1 (fun pc => target pc d8) s := rfl

theorem exec_b (cd : Cond) (a b : Code) (d32 : Word32) (s : State) : exec (.b cd a b d32) s = branch cd a b 3 (fun pc => target pc d32) s := rfl

/-- Settles O15: each instruction has one of the shapes above. -/
theorem scalarFrames : Obligations.ScalarFrames := by
  refine ⟨?_, ?_, ?_⟩
  · intro s t d a b imm lit n m pos len i hi h
    rcases hi with hi | hi | hi
    · obtain ⟨e, he, rfl⟩ := List.mem_map.mp hi
      obtain ⟨f, hf⟩ := exec_binary d a b e he
      exact scalar2_ends (hf s ▸ h)
    · obtain ⟨e, he, rfl⟩ := List.mem_map.mp hi
      obtain ⟨f, hf⟩ := exec_unary d a imm lit n m pos len e he
      exact scalar1_ends (hf s ▸ h)
    · simp only [List.mem_cons, List.not_mem_nil, or_false] at hi
      rcases hi with rfl | rfl | rfl | rfl | rfl | rfl | rfl
      · exact scalar3_ends h
      · exact execBfi_ends h
      · exact scalar0_ends h
      · exact scalar0_ends h
      · exact ldwForm_ends h
      · exact ldwForm_ends h
      · exact execRdsr_ends h
  · intro s t d a b c pr fmto fmtd i hi h
    rcases hi with hi | hi | hi
    · obtain ⟨e, he, hi⟩ := List.mem_flatMap.mp hi
      obtain ⟨⟨f, hf⟩, g, hg⟩ := exec_floatBinary d a b pr fmto e he
      simp only [List.mem_cons, List.not_mem_nil, or_false] at hi
      rcases hi with rfl | rfl
      · exact fps2_ends (hf s ▸ h)
      · exact fps2_ends (hg s ▸ h)
    · obtain ⟨e, he, hi⟩ := List.mem_flatMap.mp hi
      obtain ⟨⟨f, hf⟩, g, hg⟩ := exec_floatUnary d a fmto e he
      simp only [List.mem_cons, List.not_mem_nil, or_false] at hi
      rcases hi with rfl | rfl
      · exact fps1_ends (hf s ▸ h)
      · exact fps1_ends (hg s ▸ h)
    · simp only [List.mem_cons, List.not_mem_nil, or_false] at hi
      rcases hi with rfl | rfl
      · exact fps3_ends ((exec_ffma d a b c fmto s).symm.trans h)
      · exact fps1_ends ((exec_fcvt d a fmto fmtd s).symm.trans h)
  · intro s t cd a b d8 d24 d32
    refine ⟨fun i hi h => ?_, fun h => execLoop_ends h, fun h => execCall_ends h⟩
    simp only [List.mem_cons, List.not_mem_nil, or_false] at hi
    rcases hi with rfl | rfl | rfl | rfl | rfl
    · exact branch_ends ((exec_bc cd a b d8 s).symm.trans h)
    · exact branch_ends ((exec_b cd a b d32 s).symm.trans h)
    · exact execJ_ends h
    · exact execRet_ends h
    · exact execJmpt_ends h

end Sys2Proof.Machine
end

section
/-!
PROOFS. Operand codes and operands (01 R14): a coded form with an illegal code traps before it reads; one whose effective format is not accepted traps
too; else it waits for the first of its operands that is not there.
-/
namespace Sys2Proof.Machine

/-- An answer waits, as its thread does, for the first of some operands that is not there (01 R14). -/
def WaitsFor (s : State) (reads : List (Bool × Code)) (p : Pend) (o : Out) : Prop := ∀ w, s.lacks reads p w → o = .next (s.waiting w)

/-- An answer is that of a coded form whose codes are legal or not, whose format is accepted or not, and which reads some operands. -/
structure Answers (s : State) (legal accepts : Bool) (reads : List (Bool × Code)) (o : Out) : Prop where
  illegal : legal = false → o = .next (s.trapCur .illegalOperand 0 0)
  refused : legal = true → accepts = false → o = .next (s.trapCur .illegalInstruction 0 0)
  waits   : legal = true → accepts = true → WaitsFor s reads noPend o

/-! ## Operands -/

theorem WaitsFor.nil (s : State) (p : Pend) (o : Out) : WaitsFor s [] p o := fun _ h => h.elim

/-- A read gives its value to what follows, or the thread waits for it. -/
theorem reading_waits {α : Type} {r : Except Why (α × Pend)} {s : State} {k : α → Pend → Out} {w : Why}
    (h : r = .error w ∨ ∃ x q, r = .ok (x, q) ∧ k x q = .next (s.waiting w)) : reading r s k = .next (s.waiting w) := by
  rcases h with rfl | ⟨x, q, rfl, h⟩
  · rfl
  · exact h

theorem WaitsFor.read {s : State} {c : Code} {r : List (Bool × Code)} {p : Pend} {k : Word → Pend → Out} (h : ∀ x q, WaitsFor s r q (k x q)) :
    WaitsFor s ((false, c) :: r) p (reading (s.read c p) s k) := fun w hw =>
  reading_waits (hw.imp id fun ⟨x, q, hr, hl⟩ => ⟨x, q, hr, h x q w hl⟩)

theorem WaitsFor.readVec {s : State} {c : Code} {r : List (Bool × Code)} {p : Pend} {k : Vec → Pend → Out} (h : ∀ x q, WaitsFor s r q (k x q)) :
    WaitsFor s ((true, c) :: r) p (reading (s.readVec c p) s k) := fun w hw =>
  reading_waits (hw.imp id fun ⟨x, q, hr, hl⟩ => ⟨x, q, hr, h x q w hl⟩)

/-- The operand that b names, by the vector scheme: none of a literal (06 R171). -/
def BSrc.reads : BSrc → List (Bool × Code)
  | .code c => [(true, c)]
  | .lit _ => []

theorem WaitsFor.readB {s : State} {b : BSrc} {n : Nat} {r : List (Bool × Code)} {p : Pend} {k : Vec → Pend → Out}
    (h : ∀ x q, WaitsFor s r q (k x q)) : WaitsFor s (b.reads ++ r) p (reading (s.readB b n p) s k) := by
  cases b with
  | code c => exact .readVec h
  | lit x => exact h _ p

/-- The same by the scalar scheme (06 R180). -/
def BSrc.scalarReads : BSrc → List (Bool × Code)
  | .code c => [(false, c)]
  | .lit _ => []

theorem WaitsFor.readScalarB {s : State} {b : BSrc} {p : Pend} {k : Word → Pend → Out} :
    WaitsFor s b.scalarReads p (reading (s.readScalarB b p) s k) := by
  cases b with
  | code c => exact .read fun _ _ => .nil s _ _
  | lit x => exact .nil s _ _

/-! ## Checks -/

theorem checked_answers {s : State} {th : Thread} (hc : s.cur = some th) {ok : Bool} {reads : List (Bool × Code)} {k : Thread → Out}
    (hk : WaitsFor s reads noPend (k th)) : Answers s ok true reads (checked ok s k) := by
  refine ⟨?_, fun _ => nofun, ?_⟩
  · rintro rfl
    simp [checked, withThread_cur hc, trap]
  · rintro rfl -
    rwa [checked_true hc]

/-- Every accepted format is one of the sixteen of elements (03 R84). -/
theorem fmt_of_anyFmtOk {n : Nat} (h : anyFmtOk n = true) : ∃ f, Fmt.ofCode n = some f := by
  have hall : ∀ m ≤ 16, 1 ≤ m → (Fmt.ofCode m).isSome = true := by decide
  simp only [anyFmtOk, Bool.and_eq_true, decide_eq_true_eq] at h
  exact Option.isSome_iff_exists.mp (hall n h.2 h.1)

theorem withFmt_answers {s : State} {th : Thread} (hc : s.cur = some th) {ok : Bool} {fmto : BitVec 5} {okF : Nat → Bool}
    (hF : ∀ n, okF n = true → anyFmtOk n = true) {reads : List (Bool × Code)} {k : Thread → Fmt → Out}
    (hk : ∀ f, WaitsFor s reads noPend (k th f)) : Answers s ok (okF (effective th fmto)) reads (withFmt ok fmto okF s k) := by
  refine ⟨?_, ?_, ?_⟩
  · rintro rfl
    simp [withFmt, checked, withThread_cur hc, trap]
  · rintro rfl h
    simp [withFmt, checked_true hc, h, trap]
  · rintro rfl h
    obtain ⟨f, hf⟩ := fmt_of_anyFmtOk (hF _ h)
    simp only [withFmt, checked_true hc, h, if_true, hf]
    exact hk f

theorem anyFmtOk_of_intFmtOk (n : Nat) (h : intFmtOk n = true) : anyFmtOk n = true := by
  simp only [intFmtOk, anyFmtOk, Bool.and_eq_true, decide_eq_true_eq] at h ⊢
  omega

theorem anyFmtOk_of_arithFmtOk (n : Nat) (h : arithFmtOk n = true) : anyFmtOk n = true := by
  simp only [arithFmtOk, anyFmtOk, Bool.and_eq_true, decide_eq_true_eq] at h ⊢
  omega

theorem anyFmtOk_of_wideFmtOk (n : Nat) (h : wideFmtOk n = true) : anyFmtOk n = true := by
  simp only [wideFmtOk, anyFmtOk, Bool.and_eq_true, Bool.or_eq_true, decide_eq_true_eq] at h ⊢
  omega

/-! ## The shapes of the instructions -/

section
variable {s : State} {th : Thread} (hc : s.cur = some th) {d a b c : Code}
include hc

theorem scalar0_answers {n : Nat} {x : Word} : Answers s (legalDst d) true [] (scalar0 n d x s) := checked_answers hc (.nil s _ _)

theorem scalar1_answers {n : Nat} {f : Word → Word} : Answers s (legalDst d && legalSrc a) true [(false, a)] (scalar1 n d a f s) :=
  checked_answers hc (.read fun _ _ => .nil s _ _)

theorem scalar2_answers {f : Word → Word → Word} :
    Answers s (legalDst d && legalSrc a && legalSrc b) true [(false, a), (false, b)] (scalar2 d a b f s) :=
  checked_answers hc (.read fun _ _ => .read fun _ _ => .nil s _ _)

theorem scalar3_answers {f : Word → Word → Word → Word} :
    Answers s (legalBoth d && legalSrc a && legalSrc b) true [(false, a), (false, b), (false, d)] (scalar3 d a b f s) :=
  checked_answers hc (.read fun _ _ => .read fun _ _ => .read fun _ _ => .nil s _ _)

theorem fps1_answers {n : Nat} {f : Rnd → Word → Word × Rnd} : Answers s (legalDst d && legalSrc a) true [(false, a)] (fps1 n d a s f) :=
  checked_answers hc (.read fun _ _ => .nil s _ _)

theorem fps2_answers {n : Nat} {f : Rnd → Word → Word → Word × Rnd} :
    Answers s (legalDst d && legalSrc a && legalSrc b) true [(false, a), (false, b)] (fps2 n d a b s f) :=
  checked_answers hc (.read fun _ _ => .read fun _ _ => .nil s _ _)

theorem fps3_answers {n : Nat} {f : Rnd → Word → Word → Word → Word × Rnd} :
    Answers s (legalDst d && legalSrc a && legalSrc b && legalSrc c) true [(false, a), (false, b), (false, c)] (fps3 n d a b c s f) :=
  checked_answers hc (.read fun _ _ => .read fun _ _ => .read fun _ _ => .nil s _ _)

theorem vec1_answers {n : Nat} (okF : Nat → Bool) (hF : ∀ n, okF n = true → anyFmtOk n = true) (v : VX) {f : Fmt → Rnd → Nat → Nat × Rnd} :
    Answers s (legalVDst d && legalVSrc a) (okF (effective th v.fmto)) [(true, a)] (vec1 n okF d a v s f) :=
  withFmt_answers hc hF fun _ => .readVec fun _ _ => .nil s _ _

theorem vec2_answers {n : Nat} (okF : Nat → Bool) (hF : ∀ n, okF n = true → anyFmtOk n = true) (y : BSrc) (v : VX)
    {f : Fmt → Rnd → Nat → Nat → Nat × Rnd} :
    Answers s (legalVDst d && legalVSrc a && y.legal) (okF (effective th v.fmto)) ((true, a) :: y.reads) (vec2 n okF d a y v s f) :=
  withFmt_answers hc hF fun _ => .readVec fun _ _ => List.append_nil y.reads ▸ .readB fun _ _ => .nil s _ _

theorem vec3_answers {n : Nat} (y : BSrc) (v : VX) {f : Fmt → Rnd → Nat → Nat → Nat → Nat × Rnd} :
    Answers s (legalVDst d && legalVSrc a && y.legal && legalVSrc c) (anyFmtOk (effective th v.fmto)) ((true, a) :: (y.reads ++ [(true, c)]))
      (vec3 n anyFmtOk d a y c v s f) :=
  withFmt_answers hc (fun _ h => h) fun _ => .readVec fun _ _ => .readB fun _ _ => .readVec fun _ _ => .nil s _ _

theorem vecReduce_answers {n : Nat} (okF : Nat → Bool) (hF : ∀ n, okF n = true → anyFmtOk n = true) (v : VX)
    {f : Fmt → Rnd → List (Option Nat) → Nat × Rnd} :
    Answers s (legalVDst d && legalVSrc a) (okF (effective th v.fmto)) [(true, a)] (vecReduce n okF d a v s f) :=
  withFmt_answers hc hF fun _ => .readVec fun _ _ => .nil s _ _

theorem vecBits_answers {n : Nat} (y : BSrc) (v : VX) {f : Vec → Vec → Vec} :
    Answers s (legalVDst d && legalVSrc a && y.legal) true ((true, a) :: y.reads) (vecBits n d a y v s f) :=
  checked_answers hc (.readVec fun _ _ => List.append_nil y.reads ▸ .readB fun _ _ => .nil s _ _)

theorem vecScale_answers {n : Nat} (y : BSrc) (v : VX) :
    Answers s (legalVDst d && legalVSrc a && (match y with
      | .code c => legalSrc c
      | .lit _ => true)) (anyFmtOk (effective th v.fmto)) ((true, a) :: y.scalarReads) (vecScale n d a y v s) :=
  withFmt_answers hc (fun _ h => h) fun _ => .readVec fun _ _ => .readScalarB

theorem execVcvt_answers (v : VX) (fd : BitVec 5) :
    Answers s (legalVDst d && legalVSrc a) (anyFmtOk (effective th v.fmto)) [(true, a)] (execVcvt d a v fd s) :=
  withFmt_answers hc (fun _ h => h) fun _ => .readVec fun _ _ => .nil s _ _

theorem vecCompare_answers {n : Nat} (pr : VPred) (y : BSrc) (v : VX) :
    Answers s (legalNum d && legalVSrc a && y.legal) (wideFmtOk (effective th v.fmto)) ((true, a) :: y.reads) (vecCompare n pr d a y v s) :=
  withFmt_answers hc anyFmtOk_of_wideFmtOk fun _ => .readVec fun _ _ => List.append_nil y.reads ▸ .readB fun _ _ => .nil s _ _

theorem vecSelect_answers {n : Nat} (y : BSrc) (v : VX) :
    Answers s (legalVDst d && legalVSrc a && y.legal) (anyFmtOk (effective th v.fmto)) ((true, a) :: y.reads) (vecSelect n d a y v s) :=
  withFmt_answers hc (fun _ h => h) fun _ => .readVec fun _ _ => List.append_nil y.reads ▸ .readB fun _ _ => .nil s _ _

theorem vecPermute_answers {n : Nat} (y : BSrc) (v : VX) :
    Answers s (legalVDst d && legalVSrc a && y.legal) (wideFmtOk (effective th v.fmto)) ((true, a) :: y.reads) (vecPermute n d a y v s) :=
  withFmt_answers hc anyFmtOk_of_wideFmtOk fun _ => .readVec fun _ _ => List.append_nil y.reads ▸ .readB fun _ _ => .nil s _ _

theorem vecBroadcast_answers {n : Nat} (v : VX) :
    Answers s (legalVDst d && legalSrc a) (anyFmtOk (effective th v.fmto)) [(false, a)] (vecBroadcast n d a v s) :=
  withFmt_answers hc (fun _ h => h) fun _ => .read fun _ _ => .nil s _ _

theorem vecIota_answers {n : Nat} (v : VX) : Answers s (legalVDst d) (anyFmtOk (effective th v.fmto)) [] (vecIota n d v s) :=
  withFmt_answers hc (fun _ h => h) fun _ => .nil s _ _

theorem execVpck_answers (v : VX) (fd : BitVec 5) :
    Answers s (legalVDst d && legalVSrc a && legalVSrc b) (anyFmtOk (effective th v.fmto) && packOk (effective th v.fmto) fd.toNat)
      [(true, a), (true, b)] (execVpck d a b v fd s) :=
  withFmt_answers hc (okF := fun f => anyFmtOk f && packOk f fd.toNat) (fun _ h => (Bool.and_eq_true_iff.mp h).1) fun _ =>
    .readVec fun _ _ => .readVec fun _ _ => .nil s _ _

theorem execVupk_answers (v : VX) (fd : BitVec 5) :
    Answers s (legalVDst d && legalVSrc a && legalSrc b) (anyFmtOk (effective th v.fmto) && unpackOk (effective th v.fmto) fd.toNat)
      [(true, a), (false, b)] (execVupk d a b v fd s) :=
  withFmt_answers hc (okF := fun f => anyFmtOk f && unpackOk f fd.toNat) (fun _ h => (Bool.and_eq_true_iff.mp h).1) fun _ =>
    .readVec fun _ _ => .read fun _ _ => .nil s _ _

theorem vecInsert_answers {n : Nat} (fmto : BitVec 5) :
    Answers s (legalVBoth d && legalSrc a && legalSrc b) (anyFmtOk (effective th fmto)) [(false, a), (false, b), (true, d)]
      (vecInsert n d a b fmto s) :=
  withFmt_answers hc (fun _ h => h) fun _ => .read fun _ _ => .read fun _ _ => .readVec fun _ _ => .nil s _ _

theorem vecExtract_answers {n : Nat} (fmto : BitVec 5) :
    Answers s (legalDst d && legalVSrc a && legalSrc b) (anyFmtOk (effective th fmto)) [(true, a), (false, b)] (vecExtract n d a b fmto s) :=
  withFmt_answers hc (fun _ h => h) fun _ => .readVec fun _ _ => .read fun _ _ => .nil s _ _

theorem vecMove_answers {n : Nat} (v : VX) : Answers s (legalVDst d && legalVSrc a) true [(true, a)] (vecMove n d a v s) :=
  checked_answers hc (.readVec fun _ _ => .nil s _ _)

theorem maskOp_answers {ok : Bool} {x : BitVec 128} : Answers s (ok && legalNum d) true [] (maskOp ok d x s) := checked_answers hc (.nil s _ _)

end

/-! ## Memory forms -/

/-- The operands of an address under LEN 0b00 or LEN 0b10 (03 R77). -/
def addressReads (x : Bool) (a b : Code) : List (Bool × Code) := if x = true then addrReads a b else [(false, a), (false, b)]

theorem addrLegal_eq (x : Bool) (a b : Code) : (legalSrc a && legalIdx x b) = addrLegal x a b := by
  have h : (b.toNat == 63) = decide (b = 63) := by
    rw [Bool.eq_iff_iff, beq_iff_eq, decide_eq_true_eq]
    exact ⟨fun e => BitVec.eq_of_toNat_eq e, fun e => by rw [e]; rfl⟩
  rw [legalIdx, addrLegal, h]

section
variable {s : State} {th : Thread} (hc : s.cur = some th) {d a b c : Code}

/-- Everything that follows an address waits for the address first (05 R158, 11 R264). -/
theorem WaitsFor.address {x : Bool} {rest : List (Bool × Code)} {k : Word → Word → Pend → Out}
    (h : ∀ y z q, WaitsFor s rest q (k y z q)) : WaitsFor s (addressReads x a b ++ rest) noPend
      (reading (s.read a noPend) s (fun y p => reading (if x then s.readIdx b p else s.read b p) s (k y))) := by
  cases x with
  | false => exact .read fun y _ => .read (h y)
  | true =>
    refine .read fun y q => ?_
    by_cases hb : b = 63
    · subst hb
      exact h y 0 q
    · have hn : b.toNat ≠ 63 := fun e => hb (BitVec.eq_of_toNat_eq e)
      simp only [if_true, State.readIdx, hn, hb, if_false]
      exact .read (h y)

include hc

theorem withEa_answers {ok x : Bool} {off : BitVec 12} {rest : List (Bool × Code)} {k : BitVec 32 → Pend → Out}
    (h : ∀ ea q, WaitsFor s rest q (k ea q)) : Answers s (ok && addrLegal x a b) true (addressReads x a b ++ rest) (withEa ok x a b off s k) := by
  rw [← addrLegal_eq, ← Bool.and_assoc]
  exact checked_answers hc (.address fun _ _ q => h _ q)

theorem withVa_answers {ok x : Bool} {off : BitVec 12} {rest : List (Bool × Code)} {k : Word → Pend → Out}
    (h : ∀ va q, WaitsFor s rest q (k va q)) : Answers s (ok && addrLegal x a b) true (addressReads x a b ++ rest) (withVa ok x a b off s k) := by
  rw [← addrLegal_eq, ← Bool.and_assoc]
  exact checked_answers hc (.address fun _ _ q => h _ q)

/-- An address without an index, which reads code 42 in its place, reads a alone. -/
theorem Answers.of_zero_index {ok : Bool} {rest : List (Bool × Code)} {o : Out}
    (h : Answers s (ok && addrLegal false a 42) true (addressReads false a 42 ++ rest) o) : Answers s (ok && legalSrc a) true ((false, a) :: rest) o := by
  have he : addrLegal false a 42 = legalSrc a := Bool.and_true _
  rw [he] at h
  refine ⟨h.illegal, h.refused, fun hl ha w hw => h.waits hl ha w (hw.imp id fun ⟨y, q, hr, hl⟩ => ⟨y, q, hr, .inr ⟨0, q, ?_, hl⟩⟩)⟩
  exact State.read_zero hc (by decide) q

omit hc in
/-- The source of a vector store: a store-data queue waits by itself (02 R43), any other code is read. -/
theorem WaitsFor.vectorSource {p : Pend} {o : Out} {k : Vec → Pend → Out} :
    WaitsFor s (if isSq d = true then [] else [(true, d)]) p (if isSq d then o else reading (s.readVec d p) s k) := by
  cases isSq d with
  | true => exact .nil s p o
  | false => exact .readVec fun _ _ => .nil s _ _

theorem ldForm_answers {x : Bool} {n : Nat} {w : LoadWidth} {off : BitVec 12} :
    Answers s (legalDst d && addrLegal x a b) true (addressReads x a b ++ []) (ldForm x n w d a b off s) :=
  withEa_answers hc fun _ _ => .nil s _ _

theorem stForm_answers {x : Bool} {n : Nat} {w : StoreWidth} {off : BitVec 12} :
    Answers s (legalSrc d && addrLegal x a b) true (addressReads x a b ++ [(false, d)]) (stForm x n w d a b off s) :=
  withEa_answers hc fun _ _ => .read fun _ _ => .nil s _ _

theorem ldqForm_answers {x : Bool} {n : Nat} {w : LoadWidth} {off : BitVec 12} :
    Answers s (isLq d && addrLegal x a b) true (addressReads x a b ++ []) (ldqForm x n w d a b off s) :=
  withEa_answers hc fun _ _ => .nil s _ _

theorem stqForm_answers {x : Bool} {n : Nat} {w : StoreWidth} {off : BitVec 12} :
    Answers s (isSq d && addrLegal x a b) true (addressReads x a b ++ []) (stqForm x n w d a b off s) :=
  withEa_answers hc fun _ _ => .nil s _ _

theorem vldForm_answers {x : Bool} {n : Nat} {off : BitVec 12} {me : Bool} {msk : BitVec 3} :
    Answers s (legalVld d && addrLegal x a b) true (addressReads x a b ++ []) (vldForm x n d a b off me msk s) :=
  withEa_answers hc fun _ _ => .nil s _ _

theorem vstForm_answers {x : Bool} {n : Nat} {off : BitVec 12} {me : Bool} {msk : BitVec 3} :
    Answers s (legalVst d && addrLegal x a b) true (addressReads x a b ++ (if isSq d = true then [] else [(true, d)]))
      (vstForm x n d a b off me msk s) :=
  withEa_answers hc fun _ _ => .vectorSource

theorem ldwForm_answers {x : Bool} {n : Nat} {off : BitVec 12} :
    Answers s (legalDst d && addrLegal x a b) true (addressReads x a b ++ []) (ldwForm x n d a b off s) :=
  withEa_answers hc fun _ _ => .nil s _ _

theorem ldgForm_answers {x : Bool} {n : Nat} {w : LoadWidth} {off : BitVec 12} {ox : OX} :
    Answers s (legalDst d && addrLegal x a b) true (addressReads x a b ++ []) (ldgForm x n w d a b off ox s) :=
  withVa_answers hc fun _ _ => .nil s _ _

theorem stgForm_answers {x : Bool} {n : Nat} {w : StoreWidth} {off : BitVec 12} {ox : OX} :
    Answers s (legalSrc d && addrLegal x a b) true (addressReads x a b ++ [(false, d)]) (stgForm x n w d a b off ox s) :=
  withVa_answers hc fun _ _ => .read fun _ _ => .nil s _ _

theorem vldgForm_answers {x : Bool} {n : Nat} {off : BitVec 12} {ox : OX} {me : Bool} {msk : BitVec 3} :
    Answers s (legalVld d && addrLegal x a b) true (addressReads x a b ++ []) (vldgForm x n d a b off ox me msk s) :=
  withVa_answers hc fun _ _ => .nil s _ _

theorem vstgForm_answers {x : Bool} {n : Nat} {off : BitVec 12} {ox : OX} {me : Bool} {msk : BitVec 3} :
    Answers s (legalVst d && addrLegal x a b) true (addressReads x a b ++ (if isSq d = true then [] else [(true, d)]))
      (vstgForm x n d a b off ox me msk s) :=
  withVa_answers hc fun _ _ => .vectorSource

theorem hintForm_answers {flush x : Bool} {n : Nat} {off : BitVec 12} :
    Answers s (true && addrLegal x a b) true (addressReads x a b ++ []) (hintForm flush x n a b off s) :=
  withVa_answers hc fun _ _ => .nil s _ _

/-- AMCAS reads d after a and b (11 R270). -/
theorem atomicForm_answers {n w : Nat} (op : AtomicOp) {off : BitVec 12} {ox : OX} :
    Answers s ((if op = .cas then legalBoth d else legalDst d) && legalSrc a && legalSrc b) true
      ([(false, a), (false, b)] ++ (if op = .cas then [(false, d)] else [])) (atomicForm n w op d a b off ox s) := by
  refine checked_answers hc (.read fun _ _ => .read fun _ q => ?_)
  unfold State.readCas
  split
  · exact .read fun _ _ => .nil s _ _
  · exact .nil s _ _

end

/-! ## The Watermark unit -/

/-- The unit reads the operands of an instruction before it looks at anything else (08 R223). -/
theorem wmRead_waits {r : Except Why (Word × Pend)} {k : Word → Pend → WmAns} {w : Why}
    (h : r = .error w ∨ ∃ x q, r = .ok (x, q) ∧ k x q = .wait w) : wmRead r k = .wait w := by
  rcases h with rfl | ⟨x, q, rfl, h⟩
  · rfl
  · exact h

section
variable {s : State} {th : Thread} (hc : s.cur = some th) {a b : Code} {ok : Bool} {req : WmReq}
include hc

theorem wmIssue_waits {w : Why} (h : wmAnsOf req th s = .wait w) : wmIssue req s = .next (s.waiting w) := by
  simp [wmIssue, withThread_cur hc, h, block, State.waiting]

theorem wm1_answers {k : Word → Pend → WmAns} (h : wmAnsOf req th s = wmRead (s.read a noPend) k) :
    Answers s ok true [(false, a)] (checked ok s (fun _ => wmIssue req s)) :=
  checked_answers hc fun _ hw => wmIssue_waits hc (h ▸ wmRead_waits (hw.imp id fun ⟨_, _, _, hl⟩ => hl.elim))

theorem wm2_answers {k : Word → Word → Pend → WmAns}
    (h : wmAnsOf req th s = wmRead (s.read a noPend) (fun x p => wmRead (s.read b p) (k x))) :
    Answers s ok true [(false, a), (false, b)] (checked ok s (fun _ => wmIssue req s)) :=
  checked_answers hc fun _ hw => wmIssue_waits hc (h ▸ wmRead_waits (hw.imp id fun ⟨x, q, hr, hl⟩ =>
    ⟨x, q, hr, wmRead_waits (hl.imp id fun ⟨_, _, _, hn⟩ => hn.elim)⟩))

end

/-! ## The lists of coded forms -/

section
variable {s : State} {th : Thread} (hc : s.cur = some th) (d a b c : Code)
include hc

theorem codedIntegers_answer (imm : BitVec 12) (lit : Word) (n : BitVec 6) (m : BitVec 7) (pos len : BitVec 6) :
    ∀ e ∈ codedIntegers d a b imm lit n m pos len, Answers s e.legal e.accepts e.reads (exec e.instr s) := by
  have hbin : ∀ e ∈ binaries ++ setcs,
      Answers s (legalDst d && legalSrc a && legalSrc b) true [(false, a), (false, b)] (exec (e.1 d a b) s) := fun e he => by
    obtain ⟨f, hf⟩ := exec_binary d a b e he
    exact hf s ▸ scalar2_answers hc
  have hun : ∀ e ∈ unaries imm lit n m pos len, Answers s (legalDst d && legalSrc a) true [(false, a)] (exec (e.2.1 d a) s) := fun e he => by
    obtain ⟨f, hf⟩ := exec_unary d a imm lit n m pos len e he
    exact hf s ▸ scalar1_answers hc
  have hbfi : Answers s (legalBoth d && legalSrc a) true [(false, a), (false, d)] (execBfi d a pos len s) :=
    checked_answers hc (.read fun _ _ => .read fun _ _ => .nil s _ _)
  simp only [codedIntegers, List.forall_mem_append, List.forall_mem_map, List.forall_mem_cons, List.not_mem_nil, false_imp_iff, implies_true, and_true,
    Coded.plain]
  exact ⟨⟨List.forall_mem_append.mp hbin, hun⟩, scalar3_answers hc, hbfi, scalar0_answers hc, scalar0_answers hc⟩

theorem codedControl_answer (cd : Cond) (d8 : BitVec 8) (d32 : Word32) :
    ∀ e ∈ codedControl d a b cd d8 d32, Answers s e.legal e.accepts e.reads (exec e.instr s) := by
  have one (k : Thread → Word → Pend → Out) :
      Answers s (legalSrc a) true [(false, a)] (checked (legalSrc a) s (fun th => reading (s.read a noPend) s (k th))) :=
    checked_answers hc (.read fun _ _ => .nil s _ _)
  have two (k : Thread → Word → Word → Pend → Out) : Answers s (legalSrc a && legalSrc b) true [(false, a), (false, b)]
      (checked (legalSrc a && legalSrc b) s (fun th => reading (s.read a noPend) s (fun x p => reading (s.read b p) s (k th x)))) :=
    checked_answers hc (.read fun _ _ => .read fun _ _ => .nil s _ _)
  have hloop : Answers s (decide (a.toNat < 32)) true [(false, a)] (execLoop a d8 s) := checked_answers hc (.read fun _ _ => .nil s _ _)
  have hspawn : Answers s (legalDst d && legalSrc a && legalSrc b) true [(false, a), (false, b)] (execSpawn d a b s) :=
    checked_answers hc (.read fun _ _ => .read fun _ _ => .nil s _ _)
  simp only [codedControl, List.forall_mem_cons, List.not_mem_nil, false_imp_iff, implies_true, and_true, Coded.plain]
  exact ⟨two _, two _, hloop, one _, two _, hspawn, one _, two _, two _, one _⟩

theorem codedFloats_answer (pr : FPred) (fmto fmtd : BitVec 5) :
    ∀ e ∈ codedFloats d a b c pr fmto fmtd, Answers s e.legal e.accepts e.reads (exec e.instr s) := by
  simp only [codedFloats, List.forall_mem_append, List.forall_mem_flatMap, List.forall_mem_map, List.forall_mem_cons, List.not_mem_nil, false_imp_iff,
    implies_true, and_true, Coded.plain]
  refine ⟨⟨fun e he => ?_, fun e he => ?_⟩, ?_, ?_⟩
  · obtain ⟨⟨f, hf⟩, g, hg⟩ := exec_floatBinary d a b pr fmto e he
    exact ⟨hf s ▸ fps2_answers hc, hg s ▸ fps2_answers hc⟩
  · obtain ⟨⟨f, hf⟩, g, hg⟩ := exec_floatUnary d a fmto e he
    exact ⟨hf s ▸ fps1_answers hc, hg s ▸ fps1_answers hc⟩
  · exact exec_ffma d a b c fmto s ▸ fps3_answers hc
  · exact exec_fcvt d a fmto fmtd s ▸ fps1_answers hc

theorem atomics_answer (off : BitVec 12) (ox : OX) : ∀ e ∈ atomics, ∀ i ∈ [e.2.2.1 d a b, e.2.2.2 d a b off ox],
    Answers s ((if e.1 = .cas then legalBoth d else legalDst d) && legalSrc a && legalSrc b) true
      ([(false, a), (false, b)] ++ (if e.1 = .cas then [(false, d)] else [])) (exec i s) := by
  have shape : ∀ e ∈ atomics, exec (e.2.2.1 d a b) s = atomicForm 1 e.2.1 e.1 d a b 0 OX.plain s ∧
      exec (e.2.2.2 d a b off ox) s = atomicForm 3 e.2.1 e.1 d a b off ox s := by
    simp only [atomics, List.forall_mem_cons, List.not_mem_nil, false_imp_iff, implies_true, and_true]
    and_intros <;> rfl
  intro e he
  obtain ⟨h1, h2⟩ := shape e he
  simp only [List.forall_mem_cons, List.not_mem_nil, false_imp_iff, implies_true, and_true, h1, h2]
  exact ⟨atomicForm_answers hc e.1, atomicForm_answers hc e.1⟩

theorem codedMemory_answer (w : LoadWidth) (sw : StoreWidth) (off : BitVec 12) (ox : OX) (me : Bool) (msk : BitVec 3) :
    ∀ e ∈ codedMemory d a b w sw off ox me msk, Answers s e.legal e.accepts e.reads (exec e.instr s) := by
  simp only [codedMemory, List.forall_mem_append, List.forall_mem_flatMap, List.forall_mem_map, Coded.plain]
  refine ⟨⟨?_, ?_⟩, atomics_answer hc d a b off ox⟩
  · simp only [List.forall_mem_cons, List.not_mem_nil, false_imp_iff, implies_true, and_true]
    exact ⟨ldForm_answers hc, ldForm_answers hc, stForm_answers hc, stForm_answers hc, ldqForm_answers hc, ldqForm_answers hc, stqForm_answers hc,
      stqForm_answers hc, vldForm_answers hc, vldForm_answers hc, vstForm_answers hc, vstForm_answers hc, ldwForm_answers hc, ldwForm_answers hc,
      ldgForm_answers hc, ldgForm_answers hc, stgForm_answers hc, stgForm_answers hc, vldgForm_answers hc, vldgForm_answers hc,
      vstgForm_answers hc, vstgForm_answers hc, hintForm_answers hc, hintForm_answers hc, hintForm_answers hc, hintForm_answers hc⟩
  · simp only [List.forall_mem_cons, List.not_mem_nil, false_imp_iff, implies_true, and_true]
    exact ⟨.of_zero_index hc (ldForm_answers hc), .of_zero_index hc (stForm_answers hc), .of_zero_index hc (ldgForm_answers hc),
      .of_zero_index hc (stgForm_answers hc)⟩

theorem codedWatermark_answer : ∀ e ∈ codedWatermark d a b, Answers s e.legal e.accepts e.reads (exec e.instr s) := by
  simp only [codedWatermark, List.forall_mem_cons, List.not_mem_nil, false_imp_iff, implies_true, and_true, Coded.plain]
  exact ⟨wm2_answers hc rfl, wm2_answers hc rfl, wm1_answers hc rfl, wm2_answers hc rfl, wm2_answers hc rfl, wm1_answers hc rfl⟩

omit hc in
/-- A literal is a legal operand. -/
theorem Answers.of_and_true {ok acc : Bool} {r : List (Bool × Code)} {o : Out} (h : Answers s (ok && true) acc r o) : Answers s ok acc r o :=
  Bool.and_true ok ▸ h

omit hc in
theorem Answers.of_and_true_and {ok ok' acc : Bool} {r : List (Bool × Code)} {o : Out} (h : Answers s (ok && true && ok') acc r o) :
    Answers s (ok && ok') acc r o := Bool.and_true ok ▸ h

theorem vectorUnaries_answer (vx : VX) : ∀ e ∈ vectorUnaries,
    Answers s (legalVDst d && legalVSrc a) (e.2.2.1 (effective th 0)) [(true, a)] (exec (e.1 d a) s) ∧
    Answers s (legalVDst d && legalVSrc a) (e.2.2.1 (effective th vx.fmto)) [(true, a)] (exec (e.2.1 d a vx) s) := by
  simp only [vectorUnaries, List.forall_mem_cons, List.not_mem_nil, false_imp_iff, implies_true, and_true]
  exact ⟨⟨vec1_answers hc anyFmtOk (fun _ h => h) .none, vec1_answers hc anyFmtOk (fun _ h => h) vx⟩,
      ⟨vec1_answers hc anyFmtOk (fun _ h => h) .none, vec1_answers hc anyFmtOk (fun _ h => h) vx⟩,
      ⟨vec1_answers hc arithFmtOk anyFmtOk_of_arithFmtOk .none, vec1_answers hc arithFmtOk anyFmtOk_of_arithFmtOk vx⟩,
      ⟨vec1_answers hc arithFmtOk anyFmtOk_of_arithFmtOk .none, vec1_answers hc arithFmtOk anyFmtOk_of_arithFmtOk vx⟩,
      ⟨vec1_answers hc arithFmtOk anyFmtOk_of_arithFmtOk .none, vec1_answers hc arithFmtOk anyFmtOk_of_arithFmtOk vx⟩,
      vec1_answers hc arithFmtOk anyFmtOk_of_arithFmtOk .none, vec1_answers hc arithFmtOk anyFmtOk_of_arithFmtOk vx⟩

theorem vectorReductions_answer (vx : VX) : ∀ e ∈ vectorReductions,
    Answers s (legalVDst d && legalVSrc a) (e.2.2.1 (effective th 0)) [(true, a)] (exec (e.1 d a) s) ∧
    Answers s (legalVDst d && legalVSrc a) (e.2.2.1 (effective th vx.fmto)) [(true, a)] (exec (e.2.1 d a vx) s) := by
  simp only [vectorReductions, List.forall_mem_cons, List.not_mem_nil, false_imp_iff, implies_true, and_true]
  exact ⟨⟨vecReduce_answers hc anyFmtOk (fun _ h => h) .none (f := redSum), vecReduce_answers hc anyFmtOk (fun _ h => h) vx (f := redSum)⟩,
    ⟨vecReduce_answers hc intFmtOk anyFmtOk_of_intFmtOk .none (f := redSat), vecReduce_answers hc intFmtOk anyFmtOk_of_intFmtOk vx (f := redSat)⟩,
    ⟨vecReduce_answers hc anyFmtOk (fun _ h => h) .none (f := redRank true), vecReduce_answers hc anyFmtOk (fun _ h => h) vx (f := redRank true)⟩,
    vecReduce_answers hc anyFmtOk (fun _ h => h) .none (f := redRank false), vecReduce_answers hc anyFmtOk (fun _ h => h) vx (f := redRank false)⟩

theorem vectorBinaries_answer (lit : Word) (vx : VX) : ∀ e ∈ vectorBinaries,
    Answers s (legalVDst d && legalVSrc a && legalVSrc b) (e.2.2.2.1 (effective th 0)) [(true, a), (true, b)] (exec (e.1 d a b) s) ∧
    Answers s (legalVDst d && legalVSrc a && legalVSrc b) (e.2.2.2.1 (effective th vx.fmto)) [(true, a), (true, b)] (exec (e.2.1 d a b vx) s) ∧
    Answers s (legalVDst d && legalVSrc a && true) (e.2.2.2.1 (effective th vx.fmto)) [(true, a)] (exec (e.2.2.1 d a lit vx) s) := by
  simp only [vectorBinaries, List.forall_mem_cons, List.not_mem_nil, false_imp_iff, implies_true, and_true]
  exact ⟨⟨vec2_answers hc anyFmtOk (fun _ h => h) (.code b) .none, vec2_answers hc anyFmtOk (fun _ h => h) (.code b) vx, vec2_answers hc anyFmtOk (fun _ h => h) (.lit lit) vx⟩,
      ⟨vec2_answers hc anyFmtOk (fun _ h => h) (.code b) .none, vec2_answers hc anyFmtOk (fun _ h => h) (.code b) vx, vec2_answers hc anyFmtOk (fun _ h => h) (.lit lit) vx⟩,
      ⟨vec2_answers hc anyFmtOk (fun _ h => h) (.code b) .none, vec2_answers hc anyFmtOk (fun _ h => h) (.code b) vx, vec2_answers hc anyFmtOk (fun _ h => h) (.lit lit) vx⟩,
      ⟨vec2_answers hc anyFmtOk (fun _ h => h) (.code b) .none, vec2_answers hc anyFmtOk (fun _ h => h) (.code b) vx, vec2_answers hc anyFmtOk (fun _ h => h) (.lit lit) vx⟩,
      ⟨vec2_answers hc anyFmtOk (fun _ h => h) (.code b) .none, vec2_answers hc anyFmtOk (fun _ h => h) (.code b) vx, vec2_answers hc anyFmtOk (fun _ h => h) (.lit lit) vx⟩,
      ⟨vec2_answers hc intFmtOk anyFmtOk_of_intFmtOk (.code b) .none, vec2_answers hc intFmtOk anyFmtOk_of_intFmtOk (.code b) vx, vec2_answers hc intFmtOk anyFmtOk_of_intFmtOk (.lit lit) vx⟩,
      ⟨vec2_answers hc intFmtOk anyFmtOk_of_intFmtOk (.code b) .none, vec2_answers hc intFmtOk anyFmtOk_of_intFmtOk (.code b) vx, vec2_answers hc intFmtOk anyFmtOk_of_intFmtOk (.lit lit) vx⟩,
      vec2_answers hc intFmtOk anyFmtOk_of_intFmtOk (.code b) .none, vec2_answers hc intFmtOk anyFmtOk_of_intFmtOk (.code b) vx, vec2_answers hc intFmtOk anyFmtOk_of_intFmtOk (.lit lit) vx⟩

theorem vectorBitwise_answer (lit : Word) (vx : VX) : ∀ e ∈ vectorBitwise,
    Answers s (legalVDst d && legalVSrc a && legalVSrc b) true [(true, a), (true, b)] (exec (e.1 d a b) s) ∧
    Answers s (legalVDst d && legalVSrc a && legalVSrc b) true [(true, a), (true, b)] (exec (e.2.1 d a b vx) s) ∧
    Answers s (legalVDst d && legalVSrc a && true) true [(true, a)] (exec (e.2.2.1 d a lit vx) s) := by
  simp only [vectorBitwise, List.forall_mem_cons, List.not_mem_nil, false_imp_iff, implies_true, and_true]
  exact ⟨⟨vecBits_answers hc (.code b) .none, vecBits_answers hc (.code b) vx, vecBits_answers hc (.lit lit) vx⟩,
      ⟨vecBits_answers hc (.code b) .none, vecBits_answers hc (.code b) vx, vecBits_answers hc (.lit lit) vx⟩,
      vecBits_answers hc (.code b) .none, vecBits_answers hc (.code b) vx, vecBits_answers hc (.lit lit) vx⟩

theorem codedBits_answer (lit : Word) (vx : VX) : ∀ e ∈ codedBits d a b lit vx, Answers s e.legal e.accepts e.reads (exec e.instr s) := by
  have hmask (ok : Bool) (x : BitVec 128) : Answers s (legalNum d && ok) true [] (maskOp ok d x s) :=
    Bool.and_comm ok (legalNum d) ▸ maskOp_answers hc
  have hbit := vectorBitwise_answer hc d a b lit vx
  simp only [Bool.and_true, Bool.and_assoc] at hbit
  simp only [codedBits, List.forall_mem_append, List.forall_mem_flatMap, List.forall_mem_cons, List.not_mem_nil, false_imp_iff, implies_true, and_true, Coded.plain, Bool.and_assoc]
  exact ⟨hbit, vecMove_answers hc .none, vecMove_answers hc vx, hmask _ _, hmask _ _, hmask _ _⟩

theorem codedVectors_answer (lit : Word) (vx : VX) (pr : VPred) (fd : BitVec 5) :
    ∀ e ∈ codedVectors th d a b c lit vx pr fd, Answers s e.legal e.accepts e.reads (exec e.instr s) := by
  simp only [codedVectors, List.forall_mem_append, List.forall_mem_flatMap, List.forall_mem_cons, List.not_mem_nil, false_imp_iff, implies_true, and_true]
  have hbin := vectorBinaries_answer hc d a b lit vx
  simp only [Bool.and_true] at hbin
  refine ⟨⟨⟨vectorUnaries_answer hc d a vx, vectorReductions_answer hc d a vx⟩, hbin⟩, ?_⟩
  exact ⟨vec3_answers hc (.code b) vx, (vec3_answers hc (.lit lit) vx).of_and_true_and, vecScale_answers hc (.code b) .none, vecScale_answers hc (.code b) vx,
    (vecScale_answers hc (.lit lit) vx).of_and_true, execVcvt_answers hc vx fd, vecCompare_answers hc pr (.code b) .none,
    vecCompare_answers hc pr (.code b) vx, (vecCompare_answers hc pr (.lit lit) vx).of_and_true, vecSelect_answers hc (.code b) vx,
    (vecSelect_answers hc (.lit lit) vx).of_and_true, vecPermute_answers hc (.code b) .none, vecPermute_answers hc (.code b) vx,
    (vecPermute_answers hc (.lit lit) vx).of_and_true, vecBroadcast_answers hc .none, vecBroadcast_answers hc vx, vecIota_answers hc .none,
    vecIota_answers hc vx, execVpck_answers hc vx fd, execVupk_answers hc vx fd, vecInsert_answers hc 0, vecInsert_answers hc vx.fmto,
    vecExtract_answers hc 0, vecExtract_answers hc vx.fmto⟩

end

/-- Settles O12: every form of the seven lists answers by its codes, its format and its operands. -/
theorem illegalCodesTrapAndMissingOperandsWait : Obligations.IllegalCodesTrapAndMissingOperandsWait := by
  intro s th d a b c imm off lit n m pos len cd d8 d32 fp vp fmto fmtd vx ox w sw me msk hc e he
  have answers : Answers s e.legal e.accepts e.reads (exec e.instr s) := by
    simp only [List.mem_append] at he
    rcases he with (((((he | he) | he) | he) | he) | he) | he
    · exact codedIntegers_answer hc d a b imm lit n m pos len e he
    · exact codedControl_answer hc d a b cd d8 d32 e he
    · exact codedFloats_answer hc d a b c fp fmto fmtd e he
    · exact codedVectors_answer hc d a b c lit vx vp fmtd e he
    · exact codedBits_answer hc d a b lit vx e he
    · exact codedMemory_answer hc d a b w sw off ox me msk e he
    · exact codedWatermark_answer hc d a b e he
  exact ⟨answers.illegal, answers.refused, fun y hl ha hy => answers.waits hl ha y hy⟩

end Sys2Proof.Machine
end

section
/-!
PROOFS. The host's window (19 R392): what an access reads and writes.
-/
namespace Sys2Proof.Machine

/-- The places of n bytes of DRAM, byte j at key `ks j`. -/
def windowLocs (ks : Nat → Nat) (n : Nat) : List Loc := (List.range n).map (fun j => ⟨true, ks j⟩)

theorem windowLocs_length (ks : Nat → Nat) (n : Nat) : (windowLocs ks n).length = n := by simp [windowLocs]

theorem Vd.iaLocs_eq_window {v : Vd} {ia n : Nat} {ks : Nat → Nat} (h : ∀ j < n, v.iaKey (ia + j) = some (ks j)) :
    v.iaLocs ia n = (windowLocs ks n).map some := by
  rw [Vd.iaLocs, windowLocs, List.map_map]
  refine List.map_congr_left fun j hj => ?_
  rw [h j (List.mem_range.mp hj)]
  rfl

theorem State.anyHeld_of_anyHeldW {s : State} {ls : List Loc} (h : s.anyHeldW ls = false) : s.anyHeld ls = false := by
  simp only [State.anyHeldW, State.anyHeld, List.any_eq_false, Bool.or_eq_true, not_or] at h ⊢
  exact fun l hl => (h l hl).1

/-- A message that leaves besides. -/
theorem CachesOnly.sends {s t : State} (h : CachesOnly s t) (m : Sent) :
    CachesOnly { s with outbox := s.outbox ++ [m] } { t with outbox := t.outbox ++ [m] } := by
  obtain ⟨hr, hc⟩ := h
  refine ⟨?_, hc⟩
  have ho := congrArg State.outbox hr
  cases s; cases t; simp_all

/-- Of bytes that have places, those are written whose places are not refused. -/
theorem filterMap_zip_some {α β : Type} (P : α → Bool) (ls : List α) (bs : List β) :
    ((ls.map some).zip bs).filterMap (fun (l, b) => l.bind (fun x => if P x then none else some (x, b))) =
      (ls.zip bs).filter (fun w => !P w.1) := by
  induction ls generalizing bs with
  | nil => rfl
  | cons x xs ih =>
    cases bs with
    | nil => rfl
    | cons b bs => cases hP : P x <;> simp [hP, ih]

theorem filterMap_id_none {α : Type} (n : Nat) : (List.replicate n (none : Option α)).filterMap id = [] :=
  List.filterMap_eq_nil_iff.mpr fun _ h => List.eq_of_mem_replicate h

/-- Of bytes that have no places, none is written. -/
theorem filterMap_zip_none {α β γ : Type} (f : α → β → Option γ) (n : Nat) (bs : List β) :
    ((List.replicate n (none : Option α)).zip bs).filterMap (fun x => x.1.bind (fun y => f y x.2)) = [] :=
  List.filterMap_eq_nil_iff.mpr fun w h => by
    rw [List.eq_of_mem_replicate (List.of_mem_zip h).1]
    rfl

/-- Bytes and their places in the window, of those that no running mould's image holds (03 R71). -/
def State.windowWrites (s : State) (vd : Fin 8) (ks : Nat → Nat) (data : List Byte) : List (Loc × Byte) :=
  ((windowLocs ks data.length).zip data).filter (fun w => !s.inImage vd w.1.key)

theorem mem_windowZip {ks : Nat → Nat} {data : List Byte} {w : Loc × Byte} (h : w ∈ (windowLocs ks data.length).zip data) :
    ∃ j < data.length, w.1.key = ks j := by
  obtain ⟨j, hj, he⟩ := List.mem_map.mp (List.of_mem_zip h).1
  exact ⟨j, List.mem_range.mp hj, by rw [← he]⟩

theorem State.windowWrites_all {s : State} {vd : Fin 8} {ks : Nat → Nat} {data : List Byte} (h : ∀ j < data.length, s.inImage vd (ks j) = false) :
    s.windowWrites vd ks data = (windowLocs ks data.length).zip data :=
  List.filter_eq_self.mpr fun w hw => by
    obtain ⟨j, hj, e⟩ := mem_windowZip hw
    simp [e, h j hj]

theorem State.windowWrites_none {s : State} {vd : Fin 8} {ks : Nat → Nat} {data : List Byte} (h : ∀ j < data.length, s.inImage vd (ks j) = true) :
    s.windowWrites vd ks data = [] :=
  List.filter_eq_nil_iff.mpr fun w hw => by
    obtain ⟨j, hj, e⟩ := mem_windowZip hw
    simp [e, h j hj]

/-- A store to the window at once: the bytes that no running mould's image holds. -/
theorem exec_hostBar2Access_write {s : State} {vd : Fin 8} {ia : Word} {data : List Byte} {ks : Nat → Nat} (hf : (s.vd vd).formed = true)
    (hk : ∀ j < data.length, (s.vd vd).iaKey (ia.toNat + j) = some (ks j)) (hh : s.anyHeldW (windowLocs ks data.length) = false) :
    ∃ t, exec (.hostBar2Access vd ia true data) s = .next t ∧
      CachesOnly (s.storeLocs (s.windowWrites vd ks data)) t := by
  refine ⟨_, ?_, State.vatTouch_caches _ vd 0 true ((s.windowWrites vd ks data).map (·.1))⟩
  show execHostBar2Access vd ia true data s = _
  simp only [execHostBar2Access, hf, if_true, Vd.iaLocs_eq_window hk, List.filterMap_map, Function.id_comp, List.filterMap_some, hh]
  rw [filterMap_zip_some (fun x : Loc => s.inImage vd x.key)]
  rfl

/-- A load from the window at once. -/
theorem exec_hostBar2Access_read {s : State} {vd : Fin 8} {ia : Word} {data : List Byte} {ks : Nat → Nat} (hf : (s.vd vd).formed = true)
    (hk : ∀ j < data.length, (s.vd vd).iaKey (ia.toNat + j) = some (ks j)) (hh : s.anyHeldW (windowLocs ks data.length) = false) :
    ∃ t, exec (.hostBar2Access vd ia false data) s = .next t ∧
      CachesOnly { s with outbox := s.outbox ++ [.hostData ((List.range data.length).map (fun j => memRead s.dram (ks j)))] } t := by
  refine ⟨_, ?_, (s.vatTouch_caches vd 0 false (windowLocs ks data.length)).sends _⟩
  show execHostBar2Access vd ia false data s = _
  simp only [execHostBar2Access, hf, if_true, Vd.iaLocs_eq_window hk, List.filterMap_map, Function.id_comp, List.filterMap_some,
    State.anyHeld_of_anyHeldW hh]
  simp [windowLocs, State.readLoc, Function.comp_def]

/-- Bytes that no window has are not stored, and read zero. -/
theorem exec_hostBar2Access_unformed {s : State} {vd : Fin 8} (ia : Word) (data : List Byte) (hf : (s.vd vd).formed = false) :
    (∃ t, exec (.hostBar2Access vd ia false data) s = .next t ∧
      CachesOnly { s with outbox := s.outbox ++ [.hostData (List.replicate data.length 0)] } t) ∧
    ∃ t, exec (.hostBar2Access vd ia true data) s = .next t ∧ t.dram = s.dram ∧ t.spad = s.spad := by
  have hls : data.map (fun _ => (none : Option Loc)) = List.replicate data.length none := List.map_const'
  constructor
  · refine ⟨_, ?_, (s.vatTouch_caches vd 0 false []).sends _⟩
    show execHostBar2Access vd ia false data s = _
    simp only [execHostBar2Access, hf, hls, filterMap_id_none, State.anyHeld, List.any_nil, List.map_replicate, Bool.false_eq_true, if_false]
  · refine ⟨(s.storeLocs []).vatTouch vd 0 true [], ?_, ?_, ?_⟩
    · show execHostBar2Access vd ia true data s = _
      have hws := filterMap_zip_none (fun (x : Loc) (b : Byte) => if s.inImage vd x.key then none else some (x, b)) data.length data
      simp only [execHostBar2Access, hf, hls, hws, filterMap_id_none, State.anyHeldW, List.any_nil, List.map_nil, Bool.false_eq_true, if_true, if_false]
    · rw [(State.vatTouch_caches _ vd 0 true []).memories.2.2]; simp [State.putLocs]
    · rw [(State.vatTouch_caches _ vd 0 true []).memories.1]; simp [State.putLocs]

/-- BAR2 reaches the window's bytes, but not those of a running mould's image (19 R392, 03 R71). -/
theorem bar2_reaches_window (s : State) (vd : Fin 8) (ia : Word) (data : List Byte) (hf : (s.vd vd).formed = true) (ks : Nat → Nat)
    (hk : ∀ j < data.length, (s.vd vd).iaKey (ia.toNat + j) = some (ks j)) (hh : s.anyHeldW (windowLocs ks data.length) = false) :
    ((∀ j < data.length, s.inImage vd (ks j) = false) → ∃ t, exec (.hostBar2Access vd ia true data) s = .next t ∧
      ∀ l, t.readLoc l = (s.putLocs ((windowLocs ks data.length).zip data)).readLoc l) ∧
    ((∀ j < data.length, s.inImage vd (ks j) = true) → ∃ t, exec (.hostBar2Access vd ia true data) s = .next t ∧ t.dram = s.dram) ∧
    ∃ t, exec (.hostBar2Access vd ia false data) s = .next t ∧
      CachesOnly { s with outbox := s.outbox ++ [.hostData ((List.range data.length).map (fun j => memRead s.dram (ks j)))] } t := by
  obtain ⟨t, ht, hc⟩ := exec_hostBar2Access_write hf hk hh
  obtain ⟨hspad, -, hdram⟩ := hc.memories
  refine ⟨fun hi => ⟨t, ht, fun l => ?_⟩, fun hi => ⟨t, ht, ?_⟩, exec_hostBar2Access_read hf hk hh⟩
  · rw [State.windowWrites_all hi] at hspad hdram
    simp [State.readLoc, hspad, hdram]
  · rw [hdram, State.windowWrites_none hi]
    simp [State.putLocs]

end Sys2Proof.Machine
end

section
/-!
PROOFS. Machine checks leave all but their bank and their report alone (17 R381, R383), and with them bring-up, staged firmware, the Tvedten ports
and the package act as 19 R395 and R399 to R403 say.
-/
namespace Sys2Proof.Machine

/-! ## What a machine check leaves alone -/

/-- A state without what the record of an error may change: the banks, and what its report sends. -/
def State.unlogged (s : State) : State := { s with banks := [], agenda := [], fresh := 0, outbox := [] }

theorem State.setBank_unlogged (s : State) (i : Nat) (b : Bank) : (s.setBank i b).unlogged = s.unlogged := by
  unfold State.setBank
  split <;> rfl

theorem State.setBank_outbox (s : State) (i : Nat) (b : Bank) : (s.setBank i b).outbox = s.outbox := by
  unfold State.setBank
  split <;> rfl

/-- The record of an error (17 R383). -/
def State.errorRecord (s : State) (e : McEvent) : FaultRec :=
  ⟨7, e.vd.getD 0, ((e.misc.getD 0).extractLsb' 40 8).toNat, ((e.misc.getD 0).extractLsb' 28 12).toNat, 0, 0, 0, 0, s.clk, 0, 0, 0,
    BitVec.ofNat 64 (e.bank % 65536 + mcCode e.cls * 65536), 0, e.vd.isNone⟩

/-- A contained error: its bank, a record for the fault server and an interrupt, in that order. -/
theorem State.machineCheck_contained (s : State) {e : McEvent} (hc : e.cls = .contained) (hp : e.poison = []) :
    s.machineCheck e = ((s.setBank e.bank ((s.bank e.bank).log e)).sendRecord (s.errorRecord e)).msix 8 1 := by
  simp only [State.machineCheck, State.errorRecord, hc, hp]
  rfl

theorem State.machineCheck_corrected (s : State) {e : McEvent} (hc : e.cls = .corrected) :
    s.machineCheck e = s.setBank e.bank ((s.bank e.bank).log e) := by
  simp [State.machineCheck, hc]

theorem State.machineCheck_fatal (s : State) {e : McEvent} (hc : e.cls = .fatal) :
    s.machineCheck e = (((s.setBank e.bank ((s.bank e.bank).log e)).sendRecord (s.errorRecord e)).msix 8 1).fatal := by
  simp only [State.machineCheck, State.errorRecord, hc]
  rfl

/-- An error that poisons nothing and is not fatal changes the banks and what is sent alone. -/
theorem State.machineCheck_unlogged (s : State) {e : McEvent} (hc : e.cls = .contained) (hp : e.poison = []) :
    (s.machineCheck e).unlogged = s.unlogged := by
  rw [s.machineCheck_contained hc hp]
  exact s.setBank_unlogged e.bank _

/-- What every step of a fold keeps, the fold keeps. -/
theorem foldl_keeps {σ α β : Type} (g : σ → β) {f : σ → α → σ} (h : ∀ s a, g (f s a) = g s) (l : List α) (s : σ) :
    g (l.foldl f s) = g s := by
  induction l generalizing s with
  | nil => rfl
  | cons a l ih => exact (ih (f s a)).trans (h s a)

/-! ## Tvedten ports (19 R395) -/

/-- The error of a port whose link fails (17 R382). -/
def portError (p : Nat) : McEvent := ⟨0x4140 + p, 8, .contained, none, none, none, []⟩

/-- What no step of the agenda changes, a link that goes down leaves as its error does. -/
theorem State.linkDown_keeps {β : Type} (g : State → β) (hg : ∀ (s : State) (n : Nat) (i : Instr), g (s.dueWithin n i) = g s) (s : State) (p : Nat) :
    g (s.linkDown p) = g ((s.setPort p { s.port p with up := false, retries := 0 }).machineCheck (portError p)) :=
  foldl_keeps g (fun st _ => hg st _ _) _ _

/-- A link that goes down is down, and an interrupt says so. -/
theorem State.linkDown_down (s : State) (p : Nat) : ((s.linkDown p).port p).up = false ∧ Sent.msix 8 1 ∈ (s.linkDown p).outbox := by
  constructor
  · have hports : (s.linkDown p).ports = tabSet s.ports p { s.port p with up := false, retries := 0 } := by
      rw [s.linkDown_keeps State.ports (fun _ _ _ => rfl) p]
      exact congrArg State.ports (State.machineCheck_unlogged _ (e := portError p) rfl rfl)
    simp [State.port, hports]
  · rw [s.linkDown_keeps State.outbox (fun _ _ _ => rfl) p, State.machineCheck_contained _ (e := portError p) rfl rfl]
    simp [State.msix]

/-- A frame that fails its CRC is retried, eight times at most. -/
theorem exec_tvedtenFrame_bad {s : State} {p : Nat} {f : Frame} (hu : (s.port p).up = true) (hg : f.good = false) :
    exec (.tvedtenFrame p f) s = .next (if 8 ≤ (s.port p).retries then s.linkDown p
      else s.setPort p { s.port p with retries := (s.port p).retries + 1 }) := by
  show execTvedtenFrame p f s = _
  by_cases h : 8 ≤ (s.port p).retries <;> simp [execTvedtenFrame, hu, hg, h]

theorem exec_tvedtenFrame_good {s : State} {p : Nat} {f : Frame} (hu : (s.port p).up = true) (hg : f.good = true)
    (hr : (s.port p).retries = 0) : exec (.tvedtenFrame p f) s = .next (s.forward p f) := by
  show execTvedtenFrame p f s = _
  simp [execTvedtenFrame, hu, hg, hr]

/-- On an open lane a message leaves at once. -/
theorem State.depart_laneOpen {s : State} {dev lane q : Nat} (m : Sent) (hp : s.portTo dev = some q) (ho : s.laneOpen dev lane) :
    s.depart dev lane m = { s with outbox := s.outbox ++ [m.via q] } := by
  obtain ⟨p, h, hpause, hfirst⟩ := ho
  obtain rfl : p = q := Option.some.inj (h.symm.trans hp)
  have he : s.egress.any (fun e => e.2.1 == lane && s.portTo e.1 == some p) = false :=
    List.any_eq_false.mpr fun e hm => by simpa using hfirst e hm
  simp [State.depart, hp, hpause, he]

theorem State.forward_own {s : State} (p : Nat) {f : Frame} (h : f.dest = s.devid) : s.forward p f = s := if_pos h

theorem State.forward_laneOpen {s : State} (p : Nat) {f : Frame} {q : Nat} (h : f.dest ≠ s.devid) (hp : s.portTo f.dest = some q)
    (ho : s.laneOpen f.dest 3) : s.forward p f = { s with outbox := s.outbox ++ [.forward q f] } :=
  (if_neg h).trans (State.depart_laneOpen (.forward p f) hp ho)

/-- A port forwards good frames and retries bad ones. -/
theorem tvedtenFrame_acts (s : State) (p : Nat) (f : Frame) (hu : (s.port p).up = true) :
    (f.good = true → (s.port p).retries = 0 → f.dest = s.devid → exec (.tvedtenFrame p f) s = .next s) ∧
    (∀ q, f.good = true → (s.port p).retries = 0 → f.dest ≠ s.devid → s.portTo f.dest = some q → s.laneOpen f.dest 3 →
      exec (.tvedtenFrame p f) s = .next { s with outbox := s.outbox ++ [.forward q f] }) ∧
    (f.good = false → (s.port p).retries < 8 → exec (.tvedtenFrame p f) s =
      .next { s with ports := tabSet s.ports p { s.port p with retries := (s.port p).retries + 1 } }) ∧
    (f.good = false → 8 ≤ (s.port p).retries → ∃ t, exec (.tvedtenFrame p f) s = .next t ∧ (t.port p).up = false ∧
      Sent.msix 8 1 ∈ t.outbox) := by
  refine ⟨fun hg hr hd => ?_, fun q hg hr hd hp ho => ?_, fun hg hr => ?_, fun hg hr => ⟨s.linkDown p, ?_, s.linkDown_down p⟩⟩
  · rw [exec_tvedtenFrame_good hu hg hr, State.forward_own p hd]
  · rw [exec_tvedtenFrame_good hu hg hr, State.forward_laneOpen p hd hp ho]
  · rw [exec_tvedtenFrame_bad hu hg, if_neg (Nat.not_le.mpr hr)]
    rfl
  · rw [exec_tvedtenFrame_bad hu hg, if_pos hr]

theorem pauseFrame_acts (s : State) {p : Nat} (lane : Nat) (b : Bool) (hp : p < 96) (hl : lane < 4) :
    ∃ t, exec (.pauseFrame p lane b) s = .next t ∧ (t.port p).paused[lane]? = some b ∧
      (∀ l, l ≠ lane → (t.port p).paused[l]? = (s.port p).paused[l]?) ∧ (t.port p).up = (s.port p).up ∧ { t with ports := s.ports } = s := by
  refine ⟨_, if_pos hp, ?_⟩
  have hport : ∀ x : Port, (s.setPort p x).port p = x := fun x => by simp [State.port, State.setPort]
  rw [hport]
  refine ⟨?_, fun l hne => ?_, rfl, rfl⟩
  · simp [hl]
  · simp [hne.symm]

/-! ## Staged firmware (19 R401) -/

theorem State.dueWithin_soon (s : State) {bound : Nat} (i : Instr) (h : 0 < bound) : Soon s (s.dueWithin bound i) bound i := by
  refine ⟨s.later bound, ?_, ?_, ?_⟩
  · unfold State.later; omega
  · have := Nat.mod_lt (Config.freeNat s.fresh) h
    unfold State.later; omega
  · simp [State.dueWithin, State.due, State.drawn]

/-- GO starts the check of what is staged. -/
theorem State.fwGo_starts {s : State} (img table : List Byte) (h : s.fwstat ≠ 1) :
    (s.fwGo img table).fwgo = true ∧ (s.fwGo img table).fwstat = 1 ∧ (s.fwGo img table).staged = (img, table) ∧
      Soon s (s.fwGo img table) 1024 .firmwareCheckComplete ∧ (s.fwGo img table).flash = s.flash := by
  rw [State.fwGo, if_neg h]
  exact ⟨rfl, rfl, rfl, State.dueWithin_soon { s with fwgo := true, fwstat := 1, staged := (img, table) } _ (by omega), rfl⟩

theorem exec_firmwareCheckComplete {s : State} (h : s.fwstat = 1) {n : Nat} (hn : checkStaged s.fused s.staged.1 s.staged.2 = n) (h2 : n ≠ 2) :
    exec .firmwareCheckComplete s = .next { s with fwstat := n } := by
  show execFirmwareCheckComplete s = _
  simp [execFirmwareCheckComplete, h, hn, h2]

theorem exec_firmwareCheckComplete_passed {s : State} (h : s.fwstat = 1) (hn : checkStaged s.fused s.staged.1 s.staged.2 = 2) :
    exec .firmwareCheckComplete s =
      .next { s with fwstat := 2, flash := s.staged, devSt := if s.devSt = .recovery then .booting else s.devSt } := by
  show execFirmwareCheckComplete s = _
  simp [execFirmwareCheckComplete, h, hn]

theorem firmwareCheck_acts {s : State} (h : s.fwstat = 1) :
    ((Config.signatureOk s.staged.1 = false ∨ Config.signatureOk s.staged.2 = false) →
      exec .firmwareCheckComplete s = .next { s with fwstat := 3 }) ∧
    (Config.signatureOk s.staged.1 = true → Config.signatureOk s.staged.2 = true →
      (Config.imageRollback s.staged.1 < s.fused → exec .firmwareCheckComplete s = .next { s with fwstat := 4 }) ∧
      (s.fused ≤ Config.imageRollback s.staged.1 →
        (tableOk s.staged.2 = false → exec .firmwareCheckComplete s = .next { s with fwstat := 5 }) ∧
        (tableOk s.staged.2 = true → exec .firmwareCheckComplete s =
          .next { s with fwstat := 2, flash := s.staged, devSt := if s.devSt = .recovery then .booting else s.devSt }))) := by
  refine ⟨fun hs => ?_, fun h1 h2 => ⟨fun hr => ?_, fun hr => ⟨fun ht => ?_, fun ht => ?_⟩⟩⟩
  · exact exec_firmwareCheckComplete h (by rcases hs with hs | hs <;> simp [checkStaged, hs]) (by omega)
  · exact exec_firmwareCheckComplete h (by simp [checkStaged, h1, h2, hr]) (by omega)
  · exact exec_firmwareCheckComplete h (by simp [checkStaged, h1, h2, hr, ht]) (by omega)
  · exact exec_firmwareCheckComplete_passed h (by simp [checkStaged, h1, h2, hr, ht])

/-! ## Bring-up (19 R402) -/

/-- A table that gives the same entry to each of some indices. -/
theorem tabGet_map_const {α : Type} (l : List Nat) (v : α) (k : Nat) :
    tabGet (l.map (fun p => (p, v))) k = if k ∈ l then some v else none := by
  induction l with
  | nil => rfl
  | cons p l ih =>
    by_cases e : p = k
    · simp [tabGet, e]
    · simp [tabGet, e, ih, Ne.symm e]

theorem lockedFw_get {r : Nat} (h : r < 128) : tabGet lockedFw r = some ⟨0x38, true⟩ := by
  rw [lockedFw, tabGet_map_const, if_pos (List.mem_range.mpr h)]
  rfl

theorem exec_bringUp {s : State} (failed ports : List Nat) (hs : s.devSt = .booting) (hb : s.boot = none) :
    (checkStaged s.fused s.flash.1 s.flash.2 ≠ 2 → exec (.bringUp failed ports) s = .next { s with devSt := .recovery, devid := 0 }) ∧
    (checkStaged s.fused s.flash.1 s.flash.2 = 2 → ∃ t, exec (.bringUp failed ports) s = .next t ∧ (∀ r < 128, tabGet t.fw r = some ⟨0x38, true⟩) ∧
      t.devid = leNat ((s.flash.2.drop 2).take 2) ∧ t.boot = some (failed, ports) ∧ t.running = s.flash.1 ∧ t.devSt = .booting ∧
      Soon s t 48000000000 .bringUpComplete) := by
  constructor
  · intro hc
    show execBringUp failed ports s = _
    simp [execBringUp, hs, hb, hc]
  · intro hc
    have hx : ¬ (s.devSt ≠ .booting ∨ s.boot.isSome = true) := by simp [hs, hb]
    exact ⟨_, (if_neg hx).trans (if_neg (fun hne => hne hc)), fun r hr => lockedFw_get hr, rfl, rfl, rfl, hs,
      State.dueWithin_soon (bound := 48000000000) _ _ (by decide)⟩

/-- A state without what the marking of a failing core may change. -/
def State.unmarked (s : State) : State := { s.unlogged with failmap := [] }

theorem State.bootFail_unmarked (s : State) (c : Nat) : (s.bootFail c).unmarked = s.unmarked := by
  have h := congrArg (fun u : State => { u with failmap := [] })
    (s.machineCheck_unlogged (e := ⟨coreBank c, 10, .contained, none, none, none, []⟩) rfl rfl)
  unfold State.bootFail
  split
  · exact h
  · exact h

theorem mem_setInsert {l : List Nat} {j k : Nat} : j ∈ setInsert l k ↔ j = k ∨ j ∈ l := by
  induction l with
  | nil => simp [setInsert]
  | cons i l ih =>
    unfold setInsert
    split
    · simp
    · split
      · subst k; simp
      · rw [List.mem_cons, ih, List.mem_cons]
        exact or_left_comm

/-- The cores that a self-test of core c leaves marked. -/
theorem State.mem_failmap_bootFail {s : State} {c j : Nat} : j ∈ (s.bootFail c).failmap ↔ (c < 4096 ∧ j = c) ∨ j ∈ s.failmap := by
  have h : (s.machineCheck ⟨coreBank c, 10, .contained, none, none, none, []⟩).failmap = s.failmap :=
    (congrArg State.failmap (s.machineCheck_unlogged (e := ⟨coreBank c, 10, .contained, none, none, none, []⟩) rfl rfl) :)
  by_cases hc : c < 4096
  · have hb : (s.bootFail c).failmap = setInsert s.failmap c := by simp [State.bootFail, Config.cores, hc, h]
    simp [hb, mem_setInsert, hc]
  · have hb : (s.bootFail c).failmap = s.failmap := by simp [State.bootFail, Config.cores, hc, h]
    simp [hb, hc]

theorem State.mem_failmap_bootFails {s : State} {l : List Nat} {c : Nat} (hc : c < 4096) (h : c ∈ l ∨ c ∈ s.failmap) :
    c ∈ (l.foldl State.bootFail s).failmap := by
  induction l generalizing s with
  | nil => simpa using h
  | cons a l ih =>
    refine ih ?_
    rw [State.mem_failmap_bootFail]
    rcases h with h | h
    · rcases List.mem_cons.mp h with rfl | h
      · exact .inr (.inl ⟨hc, rfl⟩)
      · exact .inl h
    · exact .inr (.inr h)

theorem State.portFail_unlogged (s : State) (p : Nat) : (s.portFail p).unlogged = s.unlogged :=
  s.machineCheck_unlogged rfl rfl

/-- After the self-tests: zero memories, and the cores that failed. -/
def State.afterSelfTest (s : State) (failed : List Nat) : State := (failed.filter (· < 4224)).foldl State.bootFail s.zeroMemories

/-- And after the training of the Tvedten ports. -/
def State.afterTraining (s : State) (failed ports : List Nat) : State :=
  ((List.range 96).filter (fun p => !ports.contains p)).foldl State.portFail
    { s.afterSelfTest failed with ports := ((List.range 96).filter ports.contains).map (fun p => (p, { Port.reset with up := true })) }

theorem State.afterSelfTest_unmarked (s : State) (failed : List Nat) : (s.afterSelfTest failed).unmarked = s.zeroMemories.unmarked :=
  foldl_keeps State.unmarked State.bootFail_unmarked _ _

theorem State.afterTraining_unlogged (s : State) (failed ports : List Nat) : (s.afterTraining failed ports).unlogged =
    ({ s.afterSelfTest failed with ports := ((List.range 96).filter ports.contains).map (fun p => (p, { Port.reset with up := true })) } :
      State).unlogged :=
  foldl_keeps State.unlogged State.portFail_unlogged _ _

theorem exec_bringUpComplete {s : State} {failed ports : List Nat} (h : s.boot = some (failed, ports)) :
    exec .bringUpComplete s = .next (({ s.afterTraining failed ports with
      boot := none
      devSt := .ready
      devReady := true
      fwver := Config.imageVersion (s.afterTraining failed ports).running } : State).due (((s.afterTraining failed ports).clk / 64 + 1) * 64)
        .calenderFrame |>.due ((s.afterTraining failed ports).clk + 4096) .ddstatSample) := by
  show execBringUpComplete s = _
  rw [execBringUpComplete, h]
  rfl

/-- Bring-up ends: memories are zero, failing cores are marked, ports trained, and the device is READY. -/
theorem bringUpComplete_acts {s : State} (failed ports : List Nat) (h : s.boot = some (failed, ports)) :
    ∃ t, exec .bringUpComplete s = .next t ∧ t.devSt = .ready ∧ t.devReady = true ∧
      t.boot = none ∧ t.spad = [] ∧ t.ream = [] ∧ t.dram = [] ∧ t.poisonD = [] ∧ t.fwver = Config.imageVersion s.running ∧
      (∀ c ∈ failed, c < 4096 → c ∈ t.failmap) ∧ (∀ p < 96, (t.port p).up = decide (p ∈ ports)) ∧
      (s.clk + 4096, Instr.ddstatSample) ∈ t.agenda ∧ (∃ ck, s.clk < ck ∧ ck % 64 = 0 ∧ (ck, Instr.calenderFrame) ∈ t.agenda) := by
  have ht := s.afterSelfTest_unmarked failed
  have hw := s.afterTraining_unlogged failed ports
  have hclk : (s.afterTraining failed ports).clk = s.clk := (congrArg State.clk hw).trans (congrArg State.clk ht :)
  have hrun : (s.afterTraining failed ports).running = s.running := (congrArg State.running hw).trans (congrArg State.running ht :)
  refine ⟨_, exec_bringUpComplete h, rfl, rfl, rfl, (congrArg State.spad hw).trans (congrArg State.spad ht :),
    (congrArg State.ream hw).trans (congrArg State.ream ht :), (congrArg State.dram hw).trans (congrArg State.dram ht :),
    (congrArg State.poisonD hw).trans (congrArg State.poisonD ht :), congrArg Config.imageVersion hrun, fun c hf hc => ?_, fun p hp => ?_, ?_, ?_⟩
  · have hmark : c ∈ (s.afterSelfTest failed).failmap :=
      State.mem_failmap_bootFails hc (.inl (List.mem_filter.mpr ⟨hf, by simpa using Nat.lt_trans hc (by decide)⟩))
    have hkept : (s.afterTraining failed ports).failmap = (s.afterSelfTest failed).failmap := (congrArg State.failmap hw :)
    exact hkept ▸ hmark
  · have hports : (s.afterTraining failed ports).ports =
        ((List.range 96).filter ports.contains).map (fun p => (p, { Port.reset with up := true })) := congrArg State.ports hw
    by_cases hm : p ∈ ports
    · simp [State.port, hports, tabGet_map_const, hp, hm]
    · simp [State.port, hports, tabGet_map_const, hm, Port.reset]
  · simp [State.due, hclk]
  · refine ⟨(s.clk / 64 + 1) * 64, by omega, by omega, ?_⟩
    simp [State.due, hclk]

/-! ## The package (19 R403) -/

theorem State.bank_setBank_same (s : State) {i : Nat} (b : Bank) (h : bankListed i = true) : (s.setBank i b).bank i = b := by
  simp [State.bank, State.setBank, h]

theorem Bank.log_count (b : Bank) (e : McEvent) : (b.log e).count = b.counted e.cls := by
  unfold Bank.log
  dsimp only
  split <;> rfl

/-- COUNT of corrected errors rises by one, up to its largest value (17 R381). -/
theorem Bank.counted_corrected (b : Bank) : (b.counted .corrected).toNat % 65536 = min 65535 (b.count.toNat % 65536 + 1) := by
  have h : (b.counted .corrected).toNat = (b.count.toNat / 65536 % 65536 * 65536 + min 65535 (b.count.toNat % 65536 + 1)) % 2 ^ 64 := by
    simp [Bank.counted]
  omega

/-- The error of the host-link bank that tells of heat (19 R403). -/
def thermalError (n : Nat) (k : McClass) : McEvent := ⟨0x41A0, n % 256, k, none, none, none, []⟩

theorem State.thermal_corrected (s : State) : s.thermal .corrected =
    s.drawn.setBank 0x41A0 ((s.bank 0x41A0).log (thermalError (Config.freeNat s.fresh) .corrected)) :=
  s.drawn.machineCheck_corrected (e := thermalError (Config.freeNat s.fresh) .corrected) rfl

theorem thermalThrottle_acts (s : State) : ∃ t, exec (.thermalThrottle true) s = .next t ∧ t.throttled = true ∧ t.devSt = s.devSt ∧
    (t.bank 0x41A0).count.toNat % 65536 = min 65535 ((s.bank 0x41A0).count.toNat % 65536 + 1) := by
  have ht := State.thermal_corrected { s with throttled := true }
  have hk := State.setBank_unlogged ({ s with throttled := true } : State).drawn 0x41A0
    ((s.bank 0x41A0).log (thermalError (Config.freeNat s.fresh) .corrected))
  refine ⟨_, congrArg Host.Outcome.next ht, (congrArg State.throttled hk :), (congrArg State.devSt hk :), ?_⟩
  rw [State.bank_setBank_same _ _ (by decide : bankListed 0x41A0 = true), Bank.log_count]
  exact Bank.counted_corrected _

/-- A fatal error stops the device and reports it (17 R383). -/
theorem thermalTrip_stops (s : State) : ∃ t, exec .thermalTrip s = .next t ∧ t.devSt = .stopped ∧ Sent.fatalReport ∈ t.outbox := by
  refine ⟨_, congrArg Host.Outcome.next (s.drawn.machineCheck_fatal (e := ⟨0x41A0, _, .fatal, none, none, none, []⟩) rfl), rfl, ?_⟩
  simp [State.fatal, State.msix]

end Sys2Proof.Machine
end

section
/-!
PROOFS. Resets, and the registers of BAR0: what a write changes, by function and offset, and what a read answers (01 R33, 13 R296, R325, 16 R336,
19 R393, R401).
-/
namespace Sys2Proof.Machine

/-! ## Resets (17 R380, 19 R392) -/

theorem exec_resetVd_next (vd : Fin 8) (s : State) : ∃ t, exec (.resetVd vd) s = .next t := by
  show ∃ t, execResetVd vd s = .next t
  unfold execResetVd
  dsimp only
  split
  · exact ⟨_, rfl⟩
  · exact ⟨_, rfl⟩

/-- Function-level reset of a virtual function is the reset of its virtual device. -/
theorem exec_functionLevelReset_vf (vd : Fin 8) (s : State) : exec (.functionLevelReset vd.val) s = exec (.resetVd vd) s := dif_pos vd.isLt

/-! ## Fields (01 R33) -/

theorem fieldAt_eq_wordField (x : Word) (lo n : Nat) : fieldAt x lo n = wordField x lo n := by
  simp [fieldAt, wordField, Nat.shiftRight_eq_div_pow]

theorem keepUnless_eq_takes (f : Nat → Bool) (new old : Nat) : keepUnless (f new) new old = takes f new old := rfl

/-! ## Where a write goes -/

theorem exec_registerWrite_recovery {s : State} {fn off : Nat} (val : Word) (hr : s.devSt = .recovery) (h : fn ≠ 8 ∨ off ≠ 0x0F5000) :
    exec (.registerWrite fn off val) s = .next s := by
  show execRegisterWrite fn off val s = _
  rw [execRegisterWrite, if_pos hr, if_neg (by omega)]

theorem exec_registerWrite_pf {s : State} (off : Nat) (val : Word) (hr : s.devSt ≠ .recovery) :
    exec (.registerWrite 8 off val) s = s.writePf off val := if_neg hr

theorem exec_registerWrite_vf {s : State} (vd : Fin 8) (off : Nat) (val : Word) (hr : s.devSt ≠ .recovery) :
    exec (.registerWrite vd.val off val) s = s.writeVf vd off val := by
  have hvd : Fin.ofNat 8 vd.val = vd := Fin.ext (Nat.mod_eq_of_lt vd.isLt)
  show execRegisterWrite vd.val off val s = _
  rw [execRegisterWrite, if_neg hr, if_pos vd.isLt, hvd]

/-- An offset in a block of virtual device vd is of that block. -/
theorem Fin.ofNat_block {n : Nat} [NeZero n] {x size off base : Nat} (i : Fin n) (hx : x = base + size * i.val + off) (ho : off < size) :
    Fin.ofNat n ((x - base) / size) = i := by
  have h : (x - base) / size = i.val := by
    rw [hx, Nat.add_assoc, Nat.add_sub_cancel_left, Nat.mul_add_div (by omega), Nat.div_eq_of_lt ho, Nat.add_zero]
  rw [h]
  exact Fin.ext (Nat.mod_eq_of_lt i.isLt)

theorem State.writePf_block (s : State) (vd : Fin 8) {off : Nat} (val : Word) (h8 : off % 8 = 0) (ho : off < 0x1000) :
    s.writePf (0x100000 + 0x1000 * vd.val + off) val = s.writeConfig vd off val := by
  have := vd.isLt
  rw [State.writePf, if_neg (by omega), if_pos (by omega), Fin.ofNat_block vd rfl ho]
  congr 1
  omega

theorem State.writePf_timer (s : State) (vd : Fin 8) {off : Nat} (val : Word) (h8 : off % 8 = 0) (ho : off < 0x20) :
    s.writePf (0x0F3000 + 0x20 * vd.val + off) val = .next (s.modVd vd (fun v => v.writeTimer off val)) := by
  have := vd.isLt
  have hm : (0x0F3000 + 0x20 * vd.val + off) % 0x20 = off := by omega
  rw [State.writePf, if_neg (by omega), if_neg (by omega), if_neg (by omega), if_neg (by omega), if_neg (by omega), if_neg (by omega),
    if_neg (by omega), if_pos (by omega), Fin.ofNat_block vd rfl ho, hm]

theorem State.writeVf_queue {s : State} (vd : Fin 8) (q : Fin 64) {reg : Nat} (val : Word) (h8 : reg % 8 = 0) (hr : reg < 0x40) :
    s.writeVf vd (0x10000 + 0x40 * q.val + reg) val = s.writeQueue vd q reg val := by
  have := q.isLt
  have hm : (0x10000 + 0x40 * q.val + reg) % 0x40 = reg := by omega
  rw [State.writeVf, if_neg (by omega), if_neg (by omega), if_pos (by omega), Fin.ofNat_block q rfl hr, hm]

/-! ## FWSTAGE (19 R401) -/

/-- FWSTAGE takes a write in recovery too. -/
theorem exec_registerWrite_fwstage (s : State) (val : Word) : exec (.registerWrite 8 0x0F5000 val) s = .next (s.writeFwstage val) := by
  by_cases hr : s.devSt = .recovery
  · show execRegisterWrite 8 0x0F5000 val s = _
    rw [execRegisterWrite, if_pos hr]
    rfl
  · exact exec_registerWrite_pf _ val hr

theorem State.writeFwstage_ignored {s : State} {val : Word} (h : val[0] = false ∨ s.fwstat = 1) : s.writeFwstage val = s := by
  unfold State.writeFwstage State.fwGo
  rcases h with h | h
  · simp [h]
  · simp [h]

/-! ## Registers of the configuration block -/

theorem State.modVd_onlyVd (s : State) (vd : Fin 8) (f : Vd → Vd) : OnlyVd s (s.modVd vd f) vd :=
  ⟨rfl, fun _ h => s.vd_modVd_other f h⟩

/-- A register of the block has its offset, and the model's write to it leaves what 16 R336 says. -/
theorem Vd.writeBlock_of_mem {v : Vd} {val : Word} {e : Nat × Vd} (h : e ∈ v.afterBlock val) :
    v.writeBlock e.1 val = e.2 ∧ e.1 % 8 = 0 ∧ 0 < e.1 ∧ e.1 < 0x48 := by
  simp only [Vd.afterBlock, List.mem_cons, List.not_mem_nil, or_false] at h
  rcases h with rfl | rfl | rfl | rfl | rfl | rfl | rfl <;>
    simp [Vd.writeBlock, fieldAt_eq_wordField, keepUnless, takes]

theorem Vd.writeTimer_of_mem {v : Vd} {val : Word} {e : Nat × Vd} (h : e ∈ v.afterTimer val) :
    v.writeTimer e.1 val = e.2 ∧ e.1 % 8 = 0 ∧ e.1 < 0x20 := by
  simp only [Vd.afterTimer, List.mem_cons, List.not_mem_nil, or_false] at h
  rcases h with rfl | rfl | rfl <;> simp [Vd.writeTimer, fieldAt_eq_wordField, keepUnless, takes]

/-- Registers that EN protects: a write is ignored while it is set. -/
theorem State.writeConfig_protected {s : State} {vd : Fin 8} {off : Nat} (val : Word) (h0 : 0 < off) (h1 : off < 0x48) :
    s.writeConfig vd off val = .next (if (s.vd vd).en then s else s.modVd vd (fun v => v.writeBlock off val)) := by
  rw [State.writeConfig, if_neg (by omega), if_neg (by omega), if_neg (by omega)]
  split
  · rfl
  · rfl

theorem registerWrite_block {s : State} {vd : Fin 8} {val : Word} {e : Nat × Vd} (hr : s.devSt ≠ .recovery) (he : e ∈ (s.vd vd).afterBlock val) :
    ((s.vd vd).en = false → ∃ t, exec (.registerWrite 8 (0x100000 + 0x1000 * vd.val + e.1) val) s = .next t ∧ OnlyVd s t vd ∧ t.vd vd = e.2) ∧
    ((s.vd vd).en = true → exec (.registerWrite 8 (0x100000 + 0x1000 * vd.val + e.1) val) s = .next s) := by
  obtain ⟨hw, h8, h0, h1⟩ := Vd.writeBlock_of_mem he
  have hx := (exec_registerWrite_pf (0x100000 + 0x1000 * vd.val + e.1) val hr).trans
    ((s.writePf_block vd val h8 (by omega)).trans (State.writeConfig_protected val h0 h1))
  refine ⟨fun hen => ⟨_, hx.trans (congrArg Host.Outcome.next (if_neg (by simp [hen]))), s.modVd_onlyVd vd _, ?_⟩,
    fun hen => hx.trans (congrArg Host.Outcome.next (if_pos hen))⟩
  rw [State.vd_modVd_same, hw]

theorem registerWrite_timer {s : State} {vd : Fin 8} {val : Word} {e : Nat × Vd} (hr : s.devSt ≠ .recovery) (he : e ∈ (s.vd vd).afterTimer val) :
    ∃ t, exec (.registerWrite 8 (0x0F3000 + 0x20 * vd.val + e.1) val) s = .next t ∧ OnlyVd s t vd ∧ t.vd vd = e.2 := by
  obtain ⟨hw, h8, h1⟩ := Vd.writeTimer_of_mem he
  refine ⟨_, (exec_registerWrite_pf _ val hr).trans (s.writePf_timer vd val h8 h1), s.modVd_onlyVd vd _, ?_⟩
  rw [State.vd_modVd_same, hw]

theorem registerWrite_msglim {s : State} (val : Word) (hr : s.devSt ≠ .recovery) :
    ∃ t, exec (.registerWrite 8 0x0F4000 val) s = .next t ∧ { t with msglim := s.msglim } = s ∧
      t.msglim = takes (fun n => decide (1 ≤ n ∧ n ≤ 16)) (wordField val 0 5) s.msglim := by
  refine ⟨_, exec_registerWrite_pf _ val hr, rfl, ?_⟩
  rw [← fieldAt_eq_wordField]
  rfl

/-! ## Registers of a queue (13 R296) -/

theorem Queue.writeCtl_eq_afterCtl (x : Queue) (val : Word) : x.writeCtl val = x.afterCtl val := by
  simp [Queue.writeCtl, Queue.afterCtl, fieldAt_eq_wordField, keepUnless, takes]

theorem State.modQueue_onlyQueue (s : State) (vd : Fin 8) (q : Fin 64) (f : Queue → Queue) :
    OnlyQueue s (s.modQueue vd q f) vd q (f (s.queue vd q)) := by
  refine ⟨s.modVd_onlyVd vd _, ?_, fun j hj => ?_, ?_⟩
  · simp [State.queue, Vd.queue, State.modQueue]
  · simp only [State.queue, Vd.queue, State.modQueue, State.vd_modVd_same, Fin.getElem_fin]
    exact Vector.getElem_set_ne (by omega) (by omega) (fun h => hj (Fin.ext h.symm))
  · rw [State.modQueue, State.vd_modVd_same]

theorem exec_doorbell_next (vd : Fin 8) (q : Fin 64) (val : Word) (s : State) : ∃ t, exec (.doorbell vd q val) s = .next t := by
  show ∃ t, execDoorbell vd q val s = .next t
  unfold execDoorbell
  split
  · exact ⟨_, rfl⟩
  · exact ⟨_, rfl⟩

theorem exec_tlbinv_next (vd : Fin 8) (val : Word) (s : State) : ∃ t, exec (.tlbinv vd val) s = .next t := by
  show ∃ t, execTlbinv vd val s = .next t
  unfold execTlbinv
  split
  · exact ⟨_, rfl⟩
  · exact ⟨_, rfl⟩

theorem exec_registerWrite_queue {s : State} (vd : Fin 8) (q : Fin 64) {reg : Nat} (val : Word) (hr : s.devSt ≠ .recovery)
    (h8 : reg % 8 = 0) (h : reg < 0x40) :
    exec (.registerWrite vd.val (0x10000 + 0x40 * q.val + reg) val) s = s.writeQueue vd q reg val :=
  (exec_registerWrite_vf vd _ val hr).trans (State.writeVf_queue vd q val h8 h)

theorem State.writeQueue_wptr {s : State} {vd : Fin 8} (q : Fin 64) (val : Word) (hf : (s.vd vd).formed = true) :
    s.writeQueue vd q 0x18 val = exec (.doorbell vd q val) s := by
  simp only [State.writeQueue, hf]
  rfl

theorem State.writeQueue_ctl {s : State} {vd : Fin 8} (q : Fin 64) (val : Word) (hf : (s.vd vd).formed = true) :
    s.writeQueue vd q 0x08 val = .next (s.modQueue vd q (fun x => x.afterCtl val)) := by
  simp only [State.writeQueue, hf, ← Queue.writeCtl_eq_afterCtl]
  rfl

/-- A formed virtual device's QWPTR is its doorbell, and QCTL changes its queue alone. -/
theorem registerWrite_queue {s : State} {vd : Fin 8} (q : Fin 64) (val : Word) (hr : s.devSt ≠ .recovery) (hf : (s.vd vd).formed = true) :
    ∃ t u, exec (.registerWrite vd.val (0x10018 + 0x40 * q.val) val) s = .next t ∧
      exec (.doorbell vd q val) s = .next t ∧ exec (.registerWrite vd.val (0x10008 + 0x40 * q.val) val) s = .next u ∧
      OnlyQueue s u vd q ((s.queue vd q).afterCtl val) := by
  obtain ⟨t, ht⟩ := exec_doorbell_next vd q val s
  have hbell := exec_registerWrite_queue (s := s) vd q (reg := 0x18) val hr (by decide) (by decide)
  have hctl := exec_registerWrite_queue (s := s) vd q (reg := 0x08) val hr (by decide) (by decide)
  rw [Nat.add_right_comm] at hbell hctl
  exact ⟨t, s.modQueue vd q (fun x => x.afterCtl val), hbell.trans ((State.writeQueue_wptr q val hf).trans ht), ht,
    hctl.trans (State.writeQueue_ctl q val hf), s.modQueue_onlyQueue vd q _⟩

theorem registerWrite_tlbinv {s : State} (vd : Fin 8) (val : Word) (hr : s.devSt ≠ .recovery) :
    ∃ t, exec (.registerWrite vd.val 0x80C8 val) s = .next t ∧ exec (.tlbinv vd val) s = .next t := by
  obtain ⟨t, ht⟩ := exec_tlbinv_next vd val s
  exact ⟨t, (exec_registerWrite_vf vd _ val hr).trans ht, ht⟩

/-! ## What a read answers (16 R336, R356) -/

theorem State.readPf_block {s : State} (vd : Fin 8) {off : Nat} (hr : s.devSt ≠ .recovery) (h8 : off % 8 = 0) (ho : off < 0x1000) :
    s.readPf (0x100000 + 0x1000 * vd.val + off) = (s.vd vd).readBlock off := by
  have := vd.isLt
  have hm : (0x100000 + 0x1000 * vd.val + off) % 0x1000 = off := by omega
  rw [State.readPf, if_neg (by omega), if_neg (by omega), if_neg (by simp only [hr, false_or]; omega), if_pos (by omega),
    Fin.ofNat_block vd rfl ho, hm]

theorem State.readVf_block {s : State} (vd : Fin 8) {off : Nat} (hr : s.devSt ≠ .recovery) (h8 : off % 8 = 0) (ho : off < 0x1000) :
    s.readVf vd (0x8000 + off) = (s.vd vd).readBlock off := by
  rw [State.readVf, if_neg (by simp only [hr, false_or]; omega), if_pos (by omega), Nat.add_sub_cancel_left]

theorem State.readVf_unformed {s : State} {vd : Fin 8} {off : Nat} (hf : (s.vd vd).formed = false) (ho : 0x9000 ≤ off) : s.readVf vd off = 0 := by
  rw [State.readVf, if_neg (by omega : ¬ (0x8000 ≤ off ∧ off < 0x9000))]
  simp [hf]

theorem State.readPf_qbase {s : State} (vd : Fin 8) (hr : s.devSt ≠ .recovery) :
    s.readPf (0x100008 + 0x1000 * vd.val) = BitVec.ofNat 64 (s.vd vd).qbase := by
  have h := State.readPf_block vd hr (off := 8) (by decide) (by decide)
  rw [Nat.add_right_comm] at h
  exact h

theorem State.readPf_fwstage (s : State) : s.readPf 0x0F5000 = BitVec.ofNat 64 (256 * s.fwstat + s.fwgo.toNat) := by
  rw [Nat.mul_comm 256]
  rfl

theorem State.configRequest_retry {s : State} (hd : s.devReady = false) (hr : s.devSt ≠ .recovery) : s.configRequest = .retryStatus := by
  simp [State.configRequest, hd, hr]

end Sys2Proof.Machine
end

section
/-!
PROOFS. The platform acts as its statement says.
-/
namespace Sys2Proof.Machine

/-- FWSTAGE: setting GO starts the check of what is staged, unless one runs (19 R401). -/
theorem registerWrite_fwstage (s : State) (val : Word) :
    (val[0] = true → s.fwstat ≠ 1 → ∃ t, exec (.registerWrite 8 0x0F5000 val) s = .next t ∧ t.fwgo = true ∧ t.fwstat = 1 ∧ t.staged = s.staged ∧
      Soon s t 1024 .firmwareCheckComplete) ∧
    (val[0] = false ∨ s.fwstat = 1 → exec (.registerWrite 8 0x0F5000 val) s = .next s) := by
  refine ⟨fun hv hs => ?_, fun h => ?_⟩
  · obtain ⟨hgo, hstat, hstaged, hsoon, -⟩ := State.fwGo_starts s.staged.1 s.staged.2 hs
    refine ⟨_, (exec_registerWrite_fwstage s val).trans ?_, hgo, hstat, hstaged, hsoon⟩
    rw [State.writeFwstage, if_pos hv]
  · rw [exec_registerWrite_fwstage, State.writeFwstage_ignored h]

/-- A virtual function's block is the physical function's block of its virtual device (16 R336, R356). -/
theorem reads_of_block (s : State) (vd : Fin 8) {off : Nat} (h8 : off % 8 = 0) (hr : s.devSt ≠ .recovery) :
    (off < 0x1000 → s.readVf vd (0x8000 + off) = s.readPf (0x100000 + 0x1000 * vd.val + off)) ∧
    ((s.vd vd).formed = false → 0x9000 ≤ off → s.readVf vd off = 0) ∧
    s.readPf (0x100008 + 0x1000 * vd.val) = BitVec.ofNat 64 (s.vd vd).qbase :=
  ⟨fun ho => (State.readVf_block vd hr h8 ho).trans (State.readPf_block vd hr h8 ho).symm, State.readVf_unformed, State.readPf_qbase vd hr⟩

/-- What register writes of a device that is not in recovery change. -/
theorem registerWrites_act {s : State} (hr : s.devSt ≠ .recovery) (vd : Fin 8) (q : Fin 64) (val : Word) :
    (∀ e ∈ (s.vd vd).afterBlock val,
      ((s.vd vd).en = false → ∃ t, exec (.registerWrite 8 (0x100000 + 0x1000 * vd.val + e.1) val) s = .next t ∧ OnlyVd s t vd ∧ t.vd vd = e.2) ∧
      ((s.vd vd).en = true → exec (.registerWrite 8 (0x100000 + 0x1000 * vd.val + e.1) val) s = .next s)) ∧
    (∀ e ∈ (s.vd vd).afterTimer val,
      ∃ t, exec (.registerWrite 8 (0x0F3000 + 0x20 * vd.val + e.1) val) s = .next t ∧ OnlyVd s t vd ∧ t.vd vd = e.2) ∧
    (∃ t, exec (.registerWrite 8 0x0F4000 val) s = .next t ∧ { t with msglim := s.msglim } = s ∧
      t.msglim = takes (fun n => decide (1 ≤ n ∧ n ≤ 16)) (wordField val 0 5) s.msglim) ∧
    ((s.vd vd).formed = true → ∃ t u, exec (.registerWrite vd.val (0x10018 + 0x40 * q.val) val) s = .next t ∧
      exec (.doorbell vd q val) s = .next t ∧ exec (.registerWrite vd.val (0x10008 + 0x40 * q.val) val) s = .next u ∧
      OnlyQueue s u vd q ((s.queue vd q).afterCtl val)) ∧
    (∃ t, exec (.registerWrite vd.val 0x80C8 val) s = .next t ∧ exec (.tlbinv vd val) s = .next t) :=
  ⟨fun _ => registerWrite_block hr, fun _ => registerWrite_timer hr, registerWrite_msglim val hr, registerWrite_queue q val hr,
    registerWrite_tlbinv vd val hr⟩

/-- Settles O60, clause by clause. -/
theorem platformActs : Obligations.PlatformActs := by
  unfold Obligations.PlatformActs
  intro s
  refine ⟨fun vd ia data => ⟨bar2_reaches_window s vd ia data, exec_hostBar2Access_unformed ia data⟩, rfl, fun vd => ?_, tvedtenFrame_acts s,
    fun p lane b => pauseFrame_acts s lane b, fun img table hs => ⟨_, rfl, State.fwGo_starts img table hs⟩, firmwareCheck_acts, exec_bringUp,
    bringUpComplete_acts, thermalThrottle_acts s, rfl, thermalTrip_stops s, fun _ => rfl, fun _ _ val => exec_registerWrite_recovery val,
    registerWrite_fwstage s, fun vd _ => reads_of_block s vd, s.readPf_fwstage, State.configRequest_retry, registerWrites_act⟩
  obtain ⟨t, ht⟩ := exec_resetVd_next vd s
  exact ⟨t, (exec_functionLevelReset_vf vd s).trans ht, ht⟩

end Sys2Proof.Machine
end

section
/-!
PROOFS. Decoding reads back what was encoded (03 R69 to R104): of words each instruction's own law, of bytes the words that they spell.
-/
namespace Sys2Proof

/-- One law for each constructor, in the constructors' order. -/
theorem decodeWords_encode (i : Instr) : Laws.Encoding.Statement i := by
  open Laws in
  refine Instr.casesOn (motive := Encoding.Statement) i
    Encoding.spawnThreadReady Encoding.gangForm Encoding.remoteAccessPerformed Encoding.remoteReply Encoding.globalAccessComplete Encoding.parkWake
    Encoding.pressOpStart Encoding.pressOpComplete Encoding.watermarkAccept Encoding.watermarkComplete Encoding.copyRegistration Encoding.copyChunk
    Encoding.copyComplete Encoding.collectiveDelivery Encoding.fabricRequest Encoding.fabricAck Encoding.doorbell Encoding.qstatErrClear
    Encoding.write Encoding.signal Encoding.waitValue Encoding.waitValueComplete Encoding.writeSignal Encoding.indirect Encoding.pull
    Encoding.reamLoad Encoding.reamLoadComplete Encoding.selftest Encoding.selftestComplete Encoding.timestamp Encoding.fencePacket
    Encoding.fencePacketComplete Encoding.v2Packet Encoding.mload Encoding.mfree Encoding.pullWrite Encoding.nodeDispatch Encoding.launchComplete
    Encoding.displace Encoding.restore Encoding.restoreComplete Encoding.headboxRequest Encoding.headboxTokenRefill Encoding.deckleFetch
    Encoding.coreArrival Encoding.deckleFire Encoding.deckleRelease Encoding.feltProbePass Encoding.idleTreeReport Encoding.deadlockTrap
    Encoding.calenderFrame Encoding.softRequest Encoding.graceExpiry Encoding.saveComplete Encoding.killtExpiry Encoding.faultRecord Encoding.resume
    Encoding.hold Encoding.killNode Encoding.killContext Encoding.resetVd Encoding.memberResetNotice Encoding.machineCheck Encoding.mcStatusClear
    Encoding.patrolScrub Encoding.form Encoding.formationComplete Encoding.teardown Encoding.teardownComplete Encoding.tlbinv Encoding.tlbinvDone
    Encoding.ddstatSample Encoding.hostBar2Access Encoding.functionLevelReset Encoding.tvedtenFrame Encoding.pauseFrame Encoding.fwstageGo
    Encoding.firmwareCheckComplete Encoding.bringUp Encoding.bringUpComplete Encoding.thermalThrottle Encoding.thermalTrip Encoding.registerWrite
    Encoding.refreshWindowEnd Encoding.saving Encoding.add Encoding.sub Encoding.mul Encoding.mulh Encoding.mulhu Encoding.div Encoding.divu
    Encoding.rem Encoding.remu Encoding.and Encoding.or Encoding.xor Encoding.andn Encoding.shl Encoding.shr Encoding.sar Encoding.rol Encoding.min
    Encoding.max Encoding.minu Encoding.maxu Encoding.clz Encoding.ctz Encoding.cpop Encoding.mov Encoding.sel Encoding.lea1 Encoding.lea2
    Encoding.lea4 Encoding.lea8 Encoding.setc Encoding.addImm Encoding.addLit Encoding.subImm Encoding.subLit Encoding.andImm Encoding.andLit
    Encoding.orImm Encoding.orLit Encoding.xorImm Encoding.xorLit Encoding.movi Encoding.moviLit Encoding.shlImm Encoding.shrImm Encoding.sarImm
    Encoding.rolImm Encoding.sext Encoding.zext Encoding.bfx Encoding.bfi Encoding.bc Encoding.loop Encoding.b Encoding.j Encoding.call Encoding.ret
    Encoding.jmpt Encoding.yield Encoding.trap Encoding.spawn Encoding.exit Encoding.gang Encoding.ungang Encoding.rdsr Encoding.wrsr Encoding.ld
    Encoding.ldX Encoding.ldImm Encoding.st Encoding.stX Encoding.stImm Encoding.ldq Encoding.ldqX Encoding.stq Encoding.stqX Encoding.vld
    Encoding.vldX Encoding.vst Encoding.vstX Encoding.ldw Encoding.ldwX Encoding.ldg Encoding.ldgX Encoding.ldgImm Encoding.stg Encoding.stgX
    Encoding.stgImm Encoding.vldg Encoding.vldgX Encoding.vstg Encoding.vstgX Encoding.pref Encoding.prefX Encoding.flsh Encoding.flshX Encoding.amadd
    Encoding.amaddX Encoding.amswp Encoding.amswpX Encoding.amcas Encoding.amcasX Encoding.ammin Encoding.amminX Encoding.ammax Encoding.ammaxX
    Encoding.amminu Encoding.amminuX Encoding.ammaxu Encoding.ammaxuX Encoding.amand Encoding.amandX Encoding.amor Encoding.amorX Encoding.amxor
    Encoding.amxorX Encoding.amadd32 Encoding.amadd32X Encoding.amswp32 Encoding.amswp32X Encoding.amcas32 Encoding.amcas32X Encoding.ammin32
    Encoding.ammin32X Encoding.ammax32 Encoding.ammax32X Encoding.amminu32 Encoding.amminu32X Encoding.ammaxu32 Encoding.ammaxu32X Encoding.amand32
    Encoding.amand32X Encoding.amor32 Encoding.amor32X Encoding.amxor32 Encoding.amxor32X Encoding.fence Encoding.park Encoding.wait Encoding.cpy
    Encoding.exch Encoding.waitc Encoding.ared Encoding.rsct Encoding.agth Encoding.atoa Encoding.bcst Encoding.ored Encoding.puts Encoding.get
    Encoding.radd Encoding.apnd Encoding.fadd Encoding.faddX Encoding.fsub Encoding.fsubX Encoding.fmul Encoding.fmulX Encoding.ffma Encoding.fdiv
    Encoding.fdivX Encoding.fsqrt Encoding.fsqrtX Encoding.fmin Encoding.fminX Encoding.fmax Encoding.fmaxX Encoding.fcmp Encoding.fcmpX Encoding.fcvt
    Encoding.fcls Encoding.fclsX Encoding.vadd Encoding.vaddX Encoding.vaddLit Encoding.vsub Encoding.vsubX Encoding.vsubLit Encoding.vmul
    Encoding.vmulX Encoding.vmulLit Encoding.vfma Encoding.vfmaLit Encoding.vmin Encoding.vminX Encoding.vminLit Encoding.vmax Encoding.vmaxX
    Encoding.vmaxLit Encoding.vabs Encoding.vabsX Encoding.vneg Encoding.vnegX Encoding.vand Encoding.vandX Encoding.vandLit Encoding.vor
    Encoding.vorX Encoding.vorLit Encoding.vxor Encoding.vxorX Encoding.vxorLit Encoding.vshl Encoding.vshlX Encoding.vshlLit Encoding.vshr
    Encoding.vshrX Encoding.vshrLit Encoding.vsar Encoding.vsarX Encoding.vsarLit Encoding.vscl Encoding.vsclX Encoding.vsclLit Encoding.vrcp
    Encoding.vrcpX Encoding.vrsq Encoding.vrsqX Encoding.vex2 Encoding.vex2X Encoding.vlg2 Encoding.vlg2X Encoding.vcvt Encoding.vcmp Encoding.vcmpX
    Encoding.vcmpLit Encoding.vsel Encoding.vselLit Encoding.mand Encoding.mor Encoding.mnot Encoding.vred Encoding.vredX Encoding.vredSat
    Encoding.vredSatX Encoding.vrmx Encoding.vrmxX Encoding.vrmn Encoding.vrmnX Encoding.vprm Encoding.vprmX Encoding.vprmLit Encoding.vbrd
    Encoding.vbrdX Encoding.viot Encoding.viotX Encoding.vpck Encoding.vupk Encoding.vmv Encoding.vmvX Encoding.vins Encoding.vinsX Encoding.vext
    Encoding.vextX Encoding.pshp Encoding.pmm Encoding.pmmg Encoding.plda Encoding.psta Encoding.pz Encoding.pcvt Encoding.wmcf Encoding.wmz
    Encoding.wmst Encoding.wmsn Encoding.wmjn Encoding.wmlg Encoding.wmrd Encoding.eret Encoding.halt Encoding.nop Encoding.lpad Encoding.hint

/-! ## The words that bytes spell -/

/-- The four bytes of a word spell it, whatever follows them. -/
theorem wordAt_wordBytes (w : Word32) (bs : List Byte) : wordAt (wordBytes w ++ bs) 0 = w := by
  change w.extractLsb' 24 8 ++ w.extractLsb' 16 8 ++ w.extractLsb' 8 8 ++ w.extractLsb' 0 8 = w
  rw [BitVec.extractLsb'_append_extractLsb'_eq_extractLsb' (show 24 = 16 + 8 from rfl),
    BitVec.extractLsb'_append_extractLsb'_eq_extractLsb' (show 16 = 8 + 8 from rfl),
    BitVec.extractLsb'_append_extractLsb'_eq_extractLsb' (show 8 = 0 + 8 from rfl), extract_all]

theorem wordAt_skip (w : Word32) (bs : List Byte) (n : Nat) : wordAt (wordBytes w ++ bs) (n + 4) = wordAt bs n := rfl

/-- The first n words of a byte string. -/
def spelt (bs : List Byte) (n : Nat) : List Word32 := (List.range n).map (fun k => wordAt bs (4 * k))

theorem spelt_getD (bs : List Byte) {n k : Nat} (h : k < n) : (spelt bs n).getD k 0 = wordAt bs (4 * k) := by
  simp [spelt, List.getD_eq_getElem?_getD, h]

theorem wordAt_flatMap (ws : List Word32) (bs : List Byte) {n k : Nat} (h : k < n) :
    wordAt (ws.flatMap wordBytes ++ bs) (4 * k) = (ws ++ spelt bs n).getD k 0 := by
  induction ws generalizing k with
  | nil => exact (spelt_getD bs h).symm
  | cons w ws ih =>
    rw [List.flatMap_cons, List.append_assoc]
    cases k with
    | zero => exact wordAt_wordBytes w _
    | succ k => exact (wordAt_skip w _ (4 * k)).trans (ih (by omega))

/-- The decoder looks at five words of a byte string. -/
theorem decodeBytes_words (ws : List Word32) (bs : List Byte) :
    decodeBytes (ws.flatMap wordBytes ++ bs) = decodeWords (ws ++ spelt bs 5) := by
  have h := fun (k : Nat) (hk : k < 5) => wordAt_flatMap ws bs hk
  rw [decodeBytes, decodeWords, ← h 0 (by omega), ← h 1 (by omega), ← h 2 (by omega), ← h 3 (by omega), ← h 4 (by omega)]

/-- Settles O2: the bytes spell the encoded words first, and those decode to the instruction by its law. -/
theorem decodeReadsBackEncode : Obligations.DecodeReadsBackEncode := fun i rest h =>
  (decodeBytes_words (encode i) rest).trans (decodeWords_encode i h (spelt rest 5))

/-- Settles O1: the decoder computes each of them. -/
theorem wordsOfTheSpecDecode : Obligations.WordsOfTheSpecDecode := by
  unfold Obligations.WordsOfTheSpecDecode
  and_intros <;> rfl

/-! ## The length of an encoding -/

/-- The number of words that the first one announces (03 R69). -/
def announcedWords : List Word32 → Nat
  | [] => 0
  | w :: _ => lenWords (lenOf w)

theorem lenOf_hintw (v : BitVec 16) (kind : BitVec 8) : lenOf (hintw v kind) = 0 := lenOf_jw (v ++ kind) 0x3D

theorem hintWords_length (body : BitVec 24) (len : BitVec 2) (x1 x2 x3 x4 : Word32) :
    (hintWords body len x1 x2 x3 x4).length = announcedWords (hintWords body len x1 x2 x3 x4) := by
  unfold hintWords
  simp only
  split
  case isTrue h0 => rw [announcedWords, lenOf_hint, lenWords, if_pos h0]; rfl
  case isFalse h0 =>
    split
    case isTrue h3 => rw [announcedWords, lenOf_hint, lenWords, if_neg h0, if_pos h3]; rfl
    case isFalse h3 => rw [announcedWords, lenOf_hint, lenWords, if_neg h0, if_neg h3]; rfl

/-- But for hints, an instruction's layout holds a fixed LEN. -/
theorem encode_length (i : Instr) : (encode i).length = announcedWords (encode i) := by
  cases i
  case hint => exact hintWords_length _ _ _ _ _ _
  all_goals
    unfold encode
    simp [announcedWords, lenWords, lenOf_hintw]

/-- No words at all would read as zeros, which are an ADD; but an ADD has its word. -/
theorem encode_ne_nil {i : Instr} (h : i.wf = true) : encode i ≠ [] := by
  intro he
  have hi := decodeWords_encode i h []
  have h0 : decodeWords [] = .ok (.add 0 0 0) := rfl
  rw [he, List.append_nil, h0] at hi
  cases hi
  cases he

end Sys2Proof

namespace Sys2Proof.Machine

/-! ## Fetching -/

/-- The thread's code holds these words from an offset on. -/
def State.CodeAt (s : State) (th : Thread) (x : Word) (ws : List Word32) : Prop :=
  ∀ k w, ws[k]? = some w → s.fetchWord th (x + BitVec.ofNat 64 (4 * k)) = .ok w

theorem State.CodeAt.head {s : State} {th : Thread} {x : Word} {w : Word32} {ws : List Word32} (h : s.CodeAt th x (w :: ws)) :
    s.fetchWord th x = .ok w := by
  simpa using h 0 w rfl

theorem State.CodeAt.tail {s : State} {th : Thread} {x : Word} {w : Word32} {ws : List Word32} (h : s.CodeAt th x (w :: ws)) :
    s.CodeAt th (x + 4) ws := fun k v hv => by
  have := h (k + 1) v hv
  rwa [show 4 * (k + 1) = 4 + 4 * k by omega, BitVec.ofNat_add, ← BitVec.add_assoc] at this

theorem State.fetchRest_of_codeAt {s : State} {th : Thread} {x : Word} {ws : List Word32} (h : s.CodeAt th x ws) :
    s.fetchRest th x ws.length = .ok ws := by
  induction ws generalizing x with
  | nil => rfl
  | cons w ws ih => simp only [List.length_cons, State.fetchRest, h.head, ih h.tail]

/-- A fetch at an aligned pc decodes the words that the base word announces. -/
theorem State.fetch_of_codeAt {s : State} {th : Thread} {w : Word32} {ws : List Word32} {i : Instr} (hpc : th.pc.toNat % 4 = 0)
    (h : s.CodeAt th th.pc (w :: ws)) (hl : ws.length = lenWords (lenOf w) - 1) (hd : decodeWords (w :: ws) = .ok i) : s.fetch th = .ok i := by
  have hws := State.fetchRest_of_codeAt h.tail
  have hi : decode w (ws.getD 0 0) (ws.getD 1 0) (ws.getD 2 0) (ws.getD 3 0) = .ok i := hd
  simp only [State.fetch, hpc, ne_eq, not_true_eq_false, if_false, h.head, ← hl, hws, hi]

/-- Settles O4: an encoding is as long as its base word announces, and decodes to its instruction. -/
theorem fetchReadsTheInstructionAtThePc : Obligations.FetchReadsTheInstructionAtThePc := by
  intro s th i hwf hpc hw
  have hl := encode_length i
  have hd := decodeWords_encode i hwf []
  cases he : encode i with
  | nil => exact absurd he (encode_ne_nil hwf)
  | cons w ws =>
    rw [he] at hl hd hw
    refine State.fetch_of_codeAt hpc hw ?_ (List.append_nil (w :: ws) ▸ hd)
    rw [announcedWords, List.length_cons] at hl
    omega

end Sys2Proof.Machine
end

section
/-!
PROOFS. The decoder gives well-formed instructions alone (03 R70, R74, R86, R91): for each family of extended words and each table of a major, what it
requires of the fields is what the instruction requires.
-/
namespace Sys2Proof

/-- An answer of the decoder is no instruction but a well-formed one. -/
def GivesWf (e : Except Reject Instr) : Prop := ∀ i, e = .ok i → i.wf = true

namespace GivesWf

theorem error (r : Reject) : GivesWf (.error r) := fun _ e => by cases e

theorem ok {i : Instr} (h : i.wf = true) : GivesWf (.ok i) := fun _ e => by cases e; exact h

/-- What comes after a requirement of the encoding may use it. -/
theorem reqOf {c : Bool} {r : Reject} {k : Except Reject Instr} (h : c = true → GivesWf k) : GivesWf (Sys2Proof.req c r k) := by
  cases c with
  | false => exact error r
  | true => exact h rfl

/-- What comes after a requirement need not use it. -/
theorem req {c : Bool} {r : Reject} {k : Except Reject Instr} (h : GivesWf k) : GivesWf (Sys2Proof.req c r k) := reqOf fun _ => h

/-! ## Families of extended words -/

theorem mForm {ok : OX → Bool} {mask : Bool} {y1 y2 : Word32} {k : BitVec 12 → OX → Bool → BitVec 3 → Instr}
    (h : ∀ off ox me msk, ok ox = true → (me || msk == 0) = true → (k off ox me msk).wf = true) : GivesWf (mForm ok mask y1 y2 k) := by
  unfold Sys2Proof.mForm
  simp only
  split
  · exact error _
  · refine reqOf fun hc => .ok ?_
    simp only [Bool.and_eq_true] at hc
    obtain ⟨⟨⟨-, hok⟩, hme⟩, -⟩ := hc
    exact h _ _ _ _ hok hme

theorem xForm {r : MaskRule} {okF : Nat → Bool} {useC : Bool} {okD : Nat → Nat → Bool} {y1 y2 : Word32} {k : VX → Code → BitVec 5 → Instr}
    (h : ∀ v c fd, r.holds v = true → (v.fmto == 0 || okF v.fmto.toNat) = true → okD v.fmto.toNat fd.toNat = true → (k v c fd).wf = true) :
    GivesWf (xForm r okF useC okD y1 y2 k) := by
  refine reqOf fun hc => .ok ?_
  simp only [Bool.and_eq_true] at hc
  obtain ⟨⟨⟨⟨-, hr⟩, hf⟩, -⟩, hd⟩ := hc
  exact h _ _ _ hr hf hd

theorem cForm {ok : Nat → Nat → Bool} {root : Bool} {y1 y2 : Word32} {k : BitVec 5 → Nat → BitVec 8 → BitVec 12 → Except Reject Instr}
    (h : ∀ (f : BitVec 5) md g rt, ok f.toNat md = true → GivesWf (k f md g rt)) : GivesWf (cForm ok root y1 y2 k) := by
  refine reqOf fun hc => ?_
  simp only [Bool.and_eq_true] at hc
  exact h _ _ _ _ hc.2

theorem pForm {okF : Nat → Bool} {y1 y2 : Word32} {k : PX → Except Reject Instr}
    (h : ∀ x : PX, (x.fmto == 0 || okF x.fmto.toNat) = true → GivesWf (k x)) : GivesWf (pForm okF y1 y2 k) := by
  refine reqOf fun hc => ?_
  simp only [Bool.and_eq_true] at hc
  exact h _ hc.2

/-! ## The lengths that an entry allows (03 R89) -/

section
variable {len : BitVec 2} {x y z : Except Reject Instr}

theorem lengths02 (hx : GivesWf x) (hy : GivesWf y) : GivesWf (match len.toNat with
    | 0 => x
    | 2 => y
    | _ => .error .badLen) := by
  split
  · exact hx
  · exact hy
  · exact error _

theorem lengths023 (hx : GivesWf x) (hy : GivesWf y) (hz : GivesWf z) : GivesWf (match len.toNat with
    | 0 => x
    | 2 => y
    | 3 => z
    | _ => .error .badLen) := by
  split
  · exact hx
  · exact hy
  · exact hz
  · exact error _

theorem lengths23 (hy : GivesWf y) (hz : GivesWf z) : GivesWf (match len.toNat with
    | 2 => y
    | 3 => z
    | _ => .error .badLen) := by
  split
  · exact hy
  · exact hz
  · exact error _

theorem length2 (hy : GivesWf y) : GivesWf (match len.toNat with
    | 2 => y
    | _ => .error .badLen) := by
  split
  · exact hy
  · exact error _

theorem length0 (hx : GivesWf x) : GivesWf (match len.toNat with
    | 0 => x
    | _ => .error .badLen) := by
  split
  · exact hx
  · exact error _

end

end GivesWf

/-! ## The tables of the majors

Each is split into its minors, in their order; consecutive entries of one form are settled together. -/

section
variable (fn b a d : BitVec 6) (len : BitVec 2) (y1 y2 : Word32) (lit : Word)

theorem decodeInt_wf : GivesWf (decodeInt fn b a d) := by
  unfold decodeInt
  split
  iterate 21 exact .ok rfl
  iterate 4 exact .req (.ok rfl)
  iterate 17 exact .ok rfl
  · exact .error _

theorem decodeCtl_wf : GivesWf (decodeCtl fn b a d) := by
  unfold decodeCtl
  split
  iterate 4 exact .req (.ok rfl)
  · exact .ok rfl
  iterate 3 exact .req (.ok rfl)
  · exact .error _

theorem decodeSpm_wf : GivesWf (decodeSpm fn b a d) := by
  unfold decodeSpm
  split
  iterate 25 exact .ok rfl
  · exact .error _

/-- The scratchpad's vector accesses take a mask, the others none. -/
theorem decodeSpmX_wf : GivesWf (decodeSpmX fn b a d y1 y2) := by
  unfold decodeSpmX
  split
  iterate 22 exact .mForm fun _ _ _ _ _ _ => rfl
  iterate 2 exact .mForm fun _ _ _ _ _ hm => hm
  · exact .mForm fun _ _ _ _ _ _ => rfl
  · exact .error _

theorem decodeGlb_wf : GivesWf (decodeGlb fn b a d) := by
  unfold decodeGlb
  split
  iterate 13 exact .ok rfl
  iterate 2 exact .req (.ok rfl)
  iterate 20 exact .ok rfl
  · exact .error _

theorem decodeGlbX_wf : GivesWf (decodeGlbX fn b a d y1 y2) := by
  unfold decodeGlbX
  split
  iterate 11 exact .mForm fun _ _ _ _ ho _ => ho
  iterate 2 exact .mForm fun _ _ _ _ ho hm => Bool.and_eq_true_iff.mpr ⟨ho, hm⟩
  iterate 2 exact .req (.mForm fun _ _ _ _ _ _ => rfl)
  iterate 20 exact .mForm fun _ _ _ _ ho _ => ho
  · exact .error _

theorem decodeSync_wf : GivesWf (decodeSync fn b a d) := by
  unfold decodeSync
  split
  · refine .req ?_
    split
    · exact .ok rfl
    · exact .error _
  iterate 4 exact .req (.ok rfl)
  · exact .error _

theorem toNat_beq_zero (f : BitVec 5) : (f.toNat == 0) = (f == 0) := by
  rw [Bool.eq_iff_iff, beq_iff_eq, beq_iff_eq]
  exact ⟨fun h => BitVec.eq_of_toNat_eq h, fun h => congrArg BitVec.toNat h⟩

/-- A collective that combines: a format that its mode combines, or none (11 R282). -/
theorem combining_wf {root : Bool} {k : CollMode → BitVec 5 → BitVec 8 → Instr}
    (hk : ∀ m (f : BitVec 5) g, (k m f g).wf = (f == 0 || combFmtOk m f.toNat)) :
    GivesWf (cForm (fun f md => f == 0 || (match CollMode.ofCode md with | some m => combFmtOk m f | none => false)) root y1 y2
      (fun f md g _ => match CollMode.ofCode md with
        | some m => .ok (k m f g)
        | none => .error .badExtended)) := by
  refine .cForm fun f md g _ hok => ?_
  cases hm : CollMode.ofCode md with
  | some m => exact .ok ((hk m f g).trans (by simpa only [hm, toNat_beq_zero] using hok))
  | none => exact .error _

/-- A collective that moves: mode 0 and a wide format, or none (11 R284). -/
theorem moving_wf {root : Bool} {k : BitVec 5 → BitVec 8 → BitVec 12 → Instr}
    (hk : ∀ (f : BitVec 5) g rt, (k f g rt).wf = (f == 0 || wideFmtOk f.toNat)) :
    GivesWf (cForm (fun f md => md == 0 && (f == 0 || wideFmtOk f)) root y1 y2 (fun f _ g rt => .ok (k f g rt))) := by
  refine .cForm fun f md g rt hok => .ok ((hk f g rt).trans ?_)
  rw [← toNat_beq_zero]
  exact (Bool.and_eq_true_iff.mp hok).2

theorem decodeColl_wf : GivesWf (decodeColl fn a d y1 y2) := by
  unfold decodeColl
  split
  iterate 2 exact combining_wf y1 y2 fun _ _ _ => rfl
  iterate 3 exact moving_wf y1 y2 fun _ _ _ => rfl
  · exact .cForm fun _ _ _ _ _ => .ok rfl
  · exact .error _

theorem decodeFab_wf (c : Code) : GivesWf (decodeFab fn b a d c) := by
  unfold decodeFab
  split
  · exact .ok rfl
  iterate 2 exact .req (.ok rfl)
  · exact .ok rfl
  · exact .error _

/-- Scalar floating point: the format alone is free (03 R100). -/
theorem decodeFps_wf : GivesWf (decodeFps fn b a d len y1 y2) := by
  unfold decodeFps
  split
  iterate 3 exact .lengths02 (.ok rfl) (.xForm fun _ _ _ _ hf _ => hf)
  · exact .length2 (.xForm fun _ _ _ _ hf _ => hf)
  · exact .lengths02 (.ok rfl) (.xForm fun _ _ _ _ hf _ => hf)
  · exact .req (.lengths02 (.ok rfl) (.xForm fun _ _ _ _ hf _ => hf))
  iterate 6 exact .lengths02 (.ok rfl) (.xForm fun _ _ _ _ hf _ => hf)
  · exact .req (.length2 (.xForm fun _ _ _ _ _ hd => hd))
  · exact .req (.lengths02 (.ok rfl) (.xForm fun _ _ _ _ hf _ => hf))
  · exact .error _

/-- An entry whose mask obeys its rule and whose format is one that it accepts (03 R83). -/
theorem masked_wf {r : MaskRule} {okF : Nat → Bool} {useC : Bool} {okD : Nat → Nat → Bool} {k : VX → Code → BitVec 5 → Instr}
    (hk : ∀ v c fd, (k v c fd).wf = (r.holds v && (v.fmto == 0 || okF v.fmto.toNat))) : GivesWf (xForm r okF useC okD y1 y2 k) :=
  .xForm fun v c fd hr hf _ => (hk v c fd).trans (Bool.and_eq_true_iff.mpr ⟨hr, hf⟩)

/-- The same with a destination format. -/
theorem maskedTo_wf {r : MaskRule} {okF : Nat → Bool} {useC : Bool} {okD : Nat → Nat → Bool} {k : VX → Code → BitVec 5 → Instr}
    (hk : ∀ v c fd, (k v c fd).wf = (r.holds v && (v.fmto == 0 || okF v.fmto.toNat) && okD v.fmto.toNat fd.toNat)) :
    GivesWf (xForm r okF useC okD y1 y2 k) :=
  .xForm fun v c fd hr hf hd => (hk v c fd).trans (Bool.and_eq_true_iff.mpr ⟨Bool.and_eq_true_iff.mpr ⟨hr, hf⟩, hd⟩)

/-- An entry that takes no format (06 R179, VMV of R189). -/
theorem unformatted_wf {r : MaskRule} {k : VX → Code → BitVec 5 → Instr} (hk : ∀ v c fd, (k v c fd).wf = (r.holds v && v.fmto == 0)) :
    GivesWf (xForm r (fun _ => false) false noDest y1 y2 k) :=
  masked_wf y1 y2 fun v c fd => by rw [hk, Bool.or_false]

theorem decodeVar_wf : GivesWf (decodeVar fn b a d len y1 y2 lit) := by
  unfold decodeVar
  split
  iterate 3 exact .lengths023 (.ok rfl) (masked_wf _ _ fun _ _ _ => rfl) (.req (masked_wf _ _ fun _ _ _ => rfl))
  · exact .lengths23 (masked_wf _ _ fun _ _ _ => rfl) (.req (masked_wf _ _ fun _ _ _ => rfl))
  iterate 2 exact .lengths023 (.ok rfl) (masked_wf _ _ fun _ _ _ => rfl) (.req (masked_wf _ _ fun _ _ _ => rfl))
  iterate 2 exact .req (.lengths02 (.ok rfl) (masked_wf _ _ fun _ _ _ => rfl))
  iterate 3 exact .lengths023 (.ok rfl) (unformatted_wf _ _ fun _ _ _ => rfl) (.req (unformatted_wf _ _ fun _ _ _ => rfl))
  iterate 4 exact .lengths023 (.ok rfl) (masked_wf _ _ fun _ _ _ => rfl) (.req (masked_wf _ _ fun _ _ _ => rfl))
  iterate 4 exact .req (.lengths02 (.ok rfl) (masked_wf _ _ fun _ _ _ => rfl))
  · exact .req (.length2 (maskedTo_wf _ _ fun _ _ _ => rfl))
  · exact .error _

theorem decodeVcm_wf : GivesWf (decodeVcm fn b a d len y1 y2 lit) := by
  unfold decodeVcm
  split
  iterate 5 exact .lengths023 (.ok rfl) (masked_wf _ _ fun _ _ _ => rfl) (.req (masked_wf _ _ fun _ _ _ => rfl))
  · exact .lengths23 (masked_wf _ _ fun _ _ _ => rfl) (.req (masked_wf _ _ fun _ _ _ => rfl))
  iterate 2 exact .length0 (.ok rfl)
  · exact .req (.length0 (.ok rfl))
  · exact .error _

theorem decodeVrd_wf : GivesWf (decodeVrd fn b a d len y1 y2) := by
  unfold decodeVrd
  split
  iterate 4 exact .req (.lengths02 (.ok rfl) (masked_wf _ _ fun _ _ _ => rfl))
  · exact .error _

theorem decodeVpm_wf : GivesWf (decodeVpm fn b a d len y1 y2 lit) := by
  unfold decodeVpm
  split
  · exact .lengths023 (.ok rfl) (masked_wf _ _ fun _ _ _ => rfl) (.req (masked_wf _ _ fun _ _ _ => rfl))
  iterate 2 exact .req (.lengths02 (.ok rfl) (masked_wf _ _ fun _ _ _ => rfl))
  iterate 2 exact .length2 (maskedTo_wf _ _ fun _ _ _ => rfl)
  · exact .req (.lengths02 (.ok rfl) (unformatted_wf _ _ fun _ _ _ => rfl))
  iterate 2 exact .lengths02 (.ok rfl) (.xForm fun _ _ _ _ hf _ => hf)
  · exact .error _

theorem tileFormat_of_code : ∀ f : BitVec 5, (f == 0 || (f.toNat == 11 || f.toNat == 18)) = true → (f == 0 || f == 11 || f == 18) = true := by
  decide

/-- PCVT names FP32, INT32X or no format (07 R208). -/
theorem decodePrs_wf : GivesWf (decodePrs fn b a d len y1 y2) := by
  unfold decodePrs
  split
  · exact .req (.req (.ok rfl))
  · exact .req (.req (.pForm fun _ hf => .req (.ok hf)))
  · exact .req (.req (.pForm fun _ hf => .ok hf))
  iterate 2 exact .req (.req (.pForm fun _ hf => .req (.ok hf)))
  · exact .req (.req (.ok rfl))
  · exact .req (.req (.pForm fun x hf => .req (.ok (tileFormat_of_code x.fmto hf))))
  · exact .error _

theorem decodeWmk_wf : GivesWf (decodeWmk fn b a d) := by
  unfold decodeWmk
  split
  · exact .ok rfl
  iterate 6 exact .req (.ok rfl)
  · exact .error _

theorem decodePrv_wf : GivesWf (decodePrv fn b a d) := by
  unfold decodePrv
  split
  iterate 2 exact .req (.ok rfl)
  · exact .error _

theorem decodeImm_wf {imm : BitVec 12} {short : BitVec 12 → Instr} {long : Word → Instr} (hs : (short imm).wf = true)
    (hl : (long lit).wf = true) : GivesWf (decodeImm len imm lit short long) := by
  unfold decodeImm
  split
  · exact .ok hs
  · exact .req (.ok hl)
  · exact .error _

theorem decodeShi_wf (imm : BitVec 12) : GivesWf (decodeShi imm a d) := by
  refine .req ?_
  split
  iterate 4 exact .req (.ok rfl)
  iterate 2 exact .reqOf fun hn => .ok hn
  · exact .error _

theorem decodeBf_wf {imm : BitVec 12} {k : BitVec 6 → BitVec 6 → Instr} (hk : ∀ pos l, (k pos l).wf = decide (pos.toNat + l.toNat + 1 ≤ 64)) :
    GivesWf (decodeBf imm k) := .reqOf fun h => .ok ((hk _ _).trans h)

theorem decodeBc_wf (disp : BitVec 8) (cond : BitVec 4) : GivesWf (decodeBc len disp cond b a y1 y2) := by
  unfold decodeBc
  split
  · split
    · exact .req (.ok rfl)
    split
    · exact .ok rfl
    · exact .error _
  · split
    · exact .req (.ok rfl)
    · exact .error _
  · exact .error _

theorem decodeWaitc_wf (body : BitVec 24) : GivesWf (decodeWaitc body) := .reqOf fun h => .ok h

/-- A hint of one word is neither NOP nor LPAD (03 R103). -/
theorem hintOk_short {body : BitVec 24} (h : 2 ≤ (body.extractLsb' 0 8 : BitVec 8).toNat) : hintOk body 0 0 0 0 0 = true := by
  rw [hintOk, if_pos rfl, decide_eq_true h]
  rfl

theorem decodeHint_wf (w y3 y4 : Word32) : (decodeHint w y1 y2 y3 y4).wf = true := by
  unfold decodeHint
  simp only
  split
  · split
    · rfl
    · rfl
    case h_3 h0 h1 =>
      have hk : 2 ≤ (((bodyOf w).extractLsb' 0 8 : BitVec 8)).toNat := by
        have h0 : ((bodyOf w).extractLsb' 0 8 : BitVec 8).toNat ≠ 0 := h0
        have h1 : ((bodyOf w).extractLsb' 0 8 : BitVec 8).toNat ≠ 1 := h1
        omega
      exact hintOk_short hk
  · rfl
  · rfl
  · rfl

theorem decodeFields_wf (maj : BitVec 6) (w y3 y4 : Word32) : GivesWf (decodeFields maj fn b a d len w y1 y2 y3 y4) := by
  unfold decodeFields
  simp only
  split
  · exact .req (decodeInt_wf fn b a d)
  iterate 5 exact decodeImm_wf _ _ rfl rfl
  · exact .req (decodeShi_wf a d _)
  iterate 2 exact .req (decodeBf_wf fun _ _ => rfl)
  · exact .req (decodeImm_wf _ _ rfl rfl)
  · exact decodeBc_wf _ _ _ _ _ _ _
  iterate 2 exact .req (.ok rfl)
  · exact .req (decodeCtl_wf fn b a d)
  iterate 2 exact .req (.req (.ok rfl))
  · exact .lengths02 (decodeSpm_wf fn b a d) (decodeSpmX_wf fn b a d y1 y2)
  iterate 4 exact .req (.ok rfl)
  · exact .lengths02 (decodeGlb_wf fn b a d) (decodeGlbX_wf fn b a d y1 y2)
  · exact .req (decodeSync_wf fn b a d)
  · exact .req (decodeWaitc_wf _)
  · exact .req (.req (decodeColl_wf fn a d y1 y2))
  · exact .req (.req (decodeFab_wf fn b a d _))
  · exact decodeFps_wf fn b a d len y1 y2
  · exact decodeVar_wf fn b a d len y1 y2 _
  · exact decodeVcm_wf fn b a d len y1 y2 _
  · exact decodeVrd_wf fn b a d len y1 y2
  · exact decodeVpm_wf fn b a d len y1 y2 _
  · exact decodePrs_wf fn b a d len y1 y2
  · exact .req (decodeWmk_wf fn b a d)
  · exact .req (decodePrv_wf fn b a d)
  · exact .ok (decodeHint_wf y1 y2 w y3 y4)
  · exact .error _

end

/-- Settles O3: the tables hold well-formed instructions alone, whatever the fields of the base word. -/
theorem decodedInstructionsAreWellFormed : Obligations.DecodedInstructionsAreWellFormed := fun w y1 y2 y3 y4 =>
  decodeFields_wf (fnOf w) (bOf w) (aOf w) (dOf w) (lenOf w) y1 y2 (majOf w) w y3 y4

end Sys2Proof
end

section
/-!
PROOFS. Frames of the vector instructions (06 R178 to R191): for each shape that they share, a next state is a wait, a trap, or a retirement after one
write.
-/
namespace Sys2Proof.Machine

/-! ## Writes to vector and mask registers -/

/-- Everything that a write to a vector code can do: a v register, sixteen entries of a store-data queue, or nothing at all (03 R77). -/
theorem State.writeVec_some {s t : State} {d : Code} {v : Vec} (h : s.writeVec d v = some t) : ∃ th, s.cur = some th ∧
    ((d.toNat < 16 ∧ t = s.setV d.toNat v) ∨
      (16 ≤ d.toNat ∧ d.toNat < 42 ∧ t = s.setCur (th.sqAppend (d.toNat - 40) (vecWords v))) ∨
      (42 ≤ d.toNat ∧ t = s)) := by
  unfold State.writeVec at h
  cases hc : s.cur with
  | none => simp [hc] at h
  | some th =>
    refine ⟨th, rfl, ?_⟩
    simp only [hc] at h
    split at h
    case isTrue h1 =>
      split at h
      · cases h
      · exact .inl ⟨h1, (Option.some.inj h).symm⟩
    case isFalse h1 =>
      split at h
      case isTrue h2 =>
        split at h
        · exact .inr (.inl ⟨by omega, h2, (Option.some.inj h).symm⟩)
        · cases h
      case isFalse h2 => exact .inr (.inr ⟨by omega, (Option.some.inj h).symm⟩)

/-- A code that is not that of store-data queue k names the other queue (03 R77). -/
theorem queue_ne_of_code_ne {d : Code} {k : Nat} (hd : 40 ≤ d.toNat) (hk : k < 2) (h : d ≠ BitVec.ofNat 6 (40 + k)) :
    k ≠ d.toNat - 40 := fun e => h (BitVec.eq_of_toNat_eq (by rw [BitVec.toNat_ofNat]; omega))

theorem RetiredVector.refl {s : State} {th : Thread} (h : s.cur = some th) (d : Code) : RetiredVector s s d :=
  ⟨th, th, h, h, .refl s _, rfl, .refl th, fun _ => rfl, fun _ => rfl⟩

/-- A write to a vector destination changes that register, that queue, or nothing. -/
theorem RetiredVector.of_write {s u : State} {d : Code} {v : Vec} (hd : d.toNat < 16 ∨ 40 ≤ d.toNat) (hw : s.writeVec d v = some u) :
    RetiredVector s u d := by
  obtain ⟨th, hc, ⟨hlt, rfl⟩ | ⟨hge, hlt, rfl⟩ | ⟨-, rfl⟩⟩ := State.writeVec_some hw
  · exact ⟨th, th, hc, hc, (Framed.wsWrite hc _ _ _).mono fun k hk => ⟨hlt, hk⟩, rfl, .refl th, fun _ => rfl, fun _ => rfl⟩
  · have hge : 40 ≤ d.toNat := by omega
    exact ⟨th, _, hc, State.cur_setCur hc _, .setCur hc _ _, rfl, .refl _,
      fun h0 => Thread.sqOf_sqAppend_other th (queue_ne_of_code_ne (k := 0) hge (by omega) h0) _,
      fun h1 => Thread.sqOf_sqAppend_other th (queue_ne_of_code_ne (k := 1) hge (by omega) h1) _⟩
  · exact .refl hc d

/-- A change of the current thread that pops load-data queues, moves the pc, ends a wait and steps the generator is one of those that
retirement may make. -/
theorem RetiredVector.modCur {s t : State} {d : Code} (h : RetiredVector s t d) {f : Thread → Thread}
    (hf : ∀ b, { f b with pc := b.pc, run := b.run, lq := b.lq, seed := b.seed } = b) (hq : ∀ b, PopsOnly b (f b)) :
    RetiredVector s (t.modCur f) d := by
  obtain ⟨a, b, ha, hb, hfr, hrest, hpops, h0, h1⟩ := h
  have hf := hf b
  have esq := congrArg Thread.sq hf
  simp only at esq
  refine ⟨a, f b, ha, State.cur_modCur hb f, hfr.modCur f, ?_, hpops.trans (hq b), ?_, ?_⟩
  · have e := congrArg (fun c : Thread => { c with pc := a.pc, run := a.run, lq := a.lq, sq := a.sq, seed := a.seed }) hf
    exact Eq.trans e hrest
  · simpa only [Thread.sqOf, esq] using h0
  · simpa only [Thread.sqOf, esq] using h1

theorem RetiredVector.retire {s t : State} {d : Code} (h : RetiredVector s t d) (p : Pend) (n : Nat) : RetiredVector s (t.retire p n) d :=
  h.modCur (fun _ => rfl) fun b => .retire b p n

theorem RetiredVector.setSeed {s t : State} {d : Code} (h : RetiredVector s t d) (r : Rnd) : RetiredVector s (t.setSeed r) d :=
  RetiredVector.modCur (f := fun th => { th with seed := r.seed }) h (fun _ => rfl) fun b => .refl b

/-- A mask register written and the retirement. -/
theorem RetiredMask.setM_retire {s : State} {th : Thread} (hc : s.cur = some th) (d : Code) (x : BitVec 128) (p : Pend) (n : Nat) :
    RetiredMask s ((s.setM d.toNat x).retire p n) d :=
  have hm : (s.setM d.toNat x).cur = some th := hc
  ⟨th, th.retire p n, hc, State.cur_retire hm p n, (Framed.wsWrite hc _ _ _).modCur _, rfl, .retire th p n⟩

/-! ## Shapes -/

/-- An instruction of an effective format ends as its continuation does, or in a trap (06 R168). -/
theorem Ends.of_withFmt {ok : Bool} {fmto : BitVec 5} {okF : Nat → Bool} {s t : State} {P : Prop} {k : Thread → Fmt → Out}
    (h : withFmt ok fmto okF s k = .next t) (hk : ∀ th f, s.cur = some th → ok = true → k th f = .next t → Ends s t P) : Ends s t P :=
  .of_checked h fun th hc hok h => by
    split at h
    · split at h
      · exact hk th _ hc hok h
      · exact .of_trap h
    · exact .of_trap h

/-- A check that holds of two codes holds of the first. -/
theorem left_of_and {x y : Bool} (h : (x && y) = true) : x = true := (Bool.and_eq_true_iff.mp h).1

/-- A vector code that a write may name: none of the load-data queues. -/
theorem writable_of_legalVDst {d : Code} (h : legalVDst d = true) : d.toNat < 16 ∨ 40 ≤ d.toNat := by
  simp only [legalVDst, Bool.or_eq_true, decide_eq_true_eq, beq_iff_eq] at h
  omega

theorem writable_of_legalVBoth {d : Code} (h : legalVBoth d = true) : d.toNat < 16 ∨ 40 ≤ d.toNat := by
  simp only [legalVBoth, Bool.or_eq_true, decide_eq_true_eq, beq_iff_eq] at h
  omega

section
variable {s t : State} {d a b c : Code}

theorem writingVec_ends {v : Vec} {p : Pend} {n : Nat} (hd : d.toNat < 16 ∨ 40 ≤ d.toNat) (h : writing (s.writeVec d v) p n s = .next t) :
    Ends s t (RetiredVector s t d) := by
  obtain ⟨u, hu, rfl⟩ | ⟨-, e⟩ := writing_next.mp h
  · exact .of_effect ((RetiredVector.of_write hd hu).retire p n)
  · exact .of_wait e

theorem writingSeedVec_ends {v : Vec} {r : Rnd} {p : Pend} {n : Nat} (hd : d.toNat < 16 ∨ 40 ≤ d.toNat)
    (h : writingSeed (s.writeVec d v) r p n s = .next t) : Ends s t (RetiredVector s t d) := by
  cases hw : s.writeVec d v with
  | none => exact .of_block (w := .retry) (by simpa [writingSeed, hw] using h)
  | some u =>
    simp only [writingSeed, hw, Host.Outcome.next.injEq] at h
    exact .of_effect (h ▸ ((RetiredVector.of_write hd hw).setSeed r).retire p n)

theorem vec1_ends {n : Nat} {okF : Nat → Bool} {v : VX} {f : Fmt → Rnd → Nat → Nat × Rnd} (h : vec1 n okF d a v s f = .next t) :
    Ends s t (RetiredVector s t d) :=
  .of_withFmt h fun _ _ _ ok h => .of_reading h fun _ _ h =>
    writingSeedVec_ends (writable_of_legalVDst (left_of_and ok)) h

theorem vec2_ends {n : Nat} {okF : Nat → Bool} {y : BSrc} {v : VX} {f : Fmt → Rnd → Nat → Nat → Nat × Rnd}
    (h : vec2 n okF d a y v s f = .next t) : Ends s t (RetiredVector s t d) :=
  .of_withFmt h fun _ _ _ ok h => .of_reading h fun _ _ h => .of_reading h fun _ _ h =>
    writingSeedVec_ends (writable_of_legalVDst (left_of_and (left_of_and ok))) h

theorem vec3_ends {n : Nat} {okF : Nat → Bool} {y : BSrc} {v : VX} {f : Fmt → Rnd → Nat → Nat → Nat → Nat × Rnd}
    (h : vec3 n okF d a y c v s f = .next t) : Ends s t (RetiredVector s t d) :=
  .of_withFmt h fun _ _ _ ok h => .of_reading h fun _ _ h => .of_reading h fun _ _ h => .of_reading h fun _ _ h =>
    writingSeedVec_ends (writable_of_legalVDst (left_of_and (left_of_and (left_of_and ok)))) h

theorem vecReduce_ends {n : Nat} {okF : Nat → Bool} {v : VX} {f : Fmt → Rnd → List (Option Nat) → Nat × Rnd}
    (h : vecReduce n okF d a v s f = .next t) : Ends s t (RetiredVector s t d) :=
  .of_withFmt h fun _ _ _ ok h => .of_reading h fun _ _ h =>
    writingSeedVec_ends (writable_of_legalVDst (left_of_and ok)) h

theorem vecBits_ends {n : Nat} {y : BSrc} {v : VX} {f : Vec → Vec → Vec} (h : vecBits n d a y v s f = .next t) : Ends s t (RetiredVector s t d) :=
  .of_checked h fun _ _ ok h => .of_reading h fun _ _ h => .of_reading h fun _ _ h =>
    writingVec_ends (writable_of_legalVDst (left_of_and (left_of_and ok))) h

theorem vecScale_ends {n : Nat} (y : BSrc) (v : VX) (h : vecScale n d a y v s = .next t) : Ends s t (RetiredVector s t d) :=
  .of_withFmt h fun _ _ _ ok h => .of_reading h fun _ _ h => .of_reading h fun _ _ h =>
    writingSeedVec_ends (writable_of_legalVDst (left_of_and (left_of_and ok))) h

theorem execVcvt_ends {v : VX} {fd : BitVec 5} (h : execVcvt d a v fd s = .next t) : Ends s t (RetiredVector s t d) :=
  .of_withFmt h fun _ _ _ ok h => .of_reading h fun _ _ h =>
    writingSeedVec_ends (writable_of_legalVDst (left_of_and ok)) h

theorem vecSelect_ends {n : Nat} {y : BSrc} {v : VX} (h : vecSelect n d a y v s = .next t) : Ends s t (RetiredVector s t d) :=
  .of_withFmt h fun _ _ _ ok h => .of_reading h fun _ _ h => .of_reading h fun _ _ h =>
    writingVec_ends (writable_of_legalVDst (left_of_and (left_of_and ok))) h

theorem vecPermute_ends {n : Nat} {y : BSrc} {v : VX} (h : vecPermute n d a y v s = .next t) : Ends s t (RetiredVector s t d) :=
  .of_withFmt h fun _ _ _ ok h => .of_reading h fun _ _ h => .of_reading h fun _ _ h =>
    writingVec_ends (writable_of_legalVDst (left_of_and (left_of_and ok))) h

theorem vecBroadcast_ends {n : Nat} {v : VX} (h : vecBroadcast n d a v s = .next t) : Ends s t (RetiredVector s t d) :=
  .of_withFmt h fun _ _ _ ok h => .of_reading h fun _ _ h =>
    writingVec_ends (writable_of_legalVDst (left_of_and ok)) h

theorem vecIota_ends {n : Nat} {v : VX} (h : vecIota n d v s = .next t) : Ends s t (RetiredVector s t d) :=
  .of_withFmt h fun _ _ _ ok h => writingSeedVec_ends (writable_of_legalVDst ok) h

theorem execVpck_ends {v : VX} {fd : BitVec 5} (h : execVpck d a b v fd s = .next t) : Ends s t (RetiredVector s t d) :=
  .of_withFmt h fun _ _ _ ok h => .of_reading h fun _ _ h => .of_reading h fun _ _ h =>
    writingSeedVec_ends (writable_of_legalVDst (left_of_and (left_of_and ok))) h

theorem execVupk_ends {v : VX} {fd : BitVec 5} (h : execVupk d a b v fd s = .next t) : Ends s t (RetiredVector s t d) :=
  .of_withFmt h fun _ _ _ ok h => .of_reading h fun _ _ h => .of_reading h fun _ _ h =>
    writingSeedVec_ends (writable_of_legalVDst (left_of_and (left_of_and ok))) h

theorem vecMove_ends {n : Nat} {v : VX} (h : vecMove n d a v s = .next t) : Ends s t (RetiredVector s t d) :=
  .of_checked h fun _ _ ok h => .of_reading h fun _ _ h =>
    writingVec_ends (writable_of_legalVDst (left_of_and ok)) h

theorem vecInsert_ends {n : Nat} {fmto : BitVec 5} (h : vecInsert n d a b fmto s = .next t) : Ends s t (RetiredVector s t d) :=
  .of_withFmt h fun _ _ _ ok h => .of_reading h fun _ _ h => .of_reading h fun _ _ h => .of_reading h fun _ _ h =>
    writingVec_ends (writable_of_legalVBoth (left_of_and (left_of_and ok))) h

theorem vecExtract_ends {n : Nat} {fmto : BitVec 5} (h : vecExtract n d a b fmto s = .next t) : Ends s t (RetiredScalar false s t d) :=
  .of_withFmt h fun _ _ _ ok h => .of_reading h fun _ _ h => .of_reading h fun _ _ h =>
    writing_ends (writable_of_legalDst (left_of_and (left_of_and ok))) h

theorem vecCompare_ends {n : Nat} {pr : VPred} {y : BSrc} {v : VX} (h : vecCompare n pr d a y v s = .next t) : Ends s t (RetiredMask s t d) :=
  .of_withFmt h fun _ _ hc _ h => .of_reading h fun _ _ h => .of_reading h fun _ q h => by
    cases h
    exact .of_effect (.setM_retire hc d _ q n)

theorem maskOp_ends {ok : Bool} {x : BitVec 128} (h : maskOp ok d x s = .next t) : Ends s t (RetiredMask s t d) :=
  .of_checked h fun _ hc _ h => by
    cases h
    exact .of_effect (.setM_retire hc d x noPend 1)

end

/-! ## The shape of each vector instruction -/

section
variable (d a b : Code) (lit : Word) (vx : VX)

theorem exec_vectorUnary : ∀ e ∈ vectorUnaries, ∀ s,
    exec (e.1 d a) s = vec1 1 e.2.2.1 d a .none s e.2.2.2 ∧ exec (e.2.1 d a vx) s = vec1 3 e.2.2.1 d a vx s e.2.2.2 := by
  simp only [vectorUnaries, List.forall_mem_cons, List.not_mem_nil, false_imp_iff, implies_true, and_true]
  and_intros <;> exact fun _ => ⟨rfl, rfl⟩

theorem exec_vectorReduction : ∀ e ∈ vectorReductions, ∀ s,
    exec (e.1 d a) s = vecReduce 1 e.2.2.1 d a .none s e.2.2.2 ∧ exec (e.2.1 d a vx) s = vecReduce 3 e.2.2.1 d a vx s e.2.2.2 := by
  simp only [vectorReductions, List.forall_mem_cons, List.not_mem_nil, false_imp_iff, implies_true, and_true]
  and_intros <;> exact fun _ => ⟨rfl, rfl⟩

theorem exec_vectorBinary : ∀ e ∈ vectorBinaries, ∀ s,
    exec (e.1 d a b) s = vec2 1 e.2.2.2.1 d a (.code b) .none s e.2.2.2.2 ∧
    exec (e.2.1 d a b vx) s = vec2 3 e.2.2.2.1 d a (.code b) vx s e.2.2.2.2 ∧
    exec (e.2.2.1 d a lit vx) s = vec2 5 e.2.2.2.1 d a (.lit lit) vx s e.2.2.2.2 := by
  simp only [vectorBinaries, List.forall_mem_cons, List.not_mem_nil, false_imp_iff, implies_true, and_true]
  and_intros <;> exact fun _ => ⟨rfl, rfl, rfl⟩

theorem exec_vectorBitwise : ∀ e ∈ vectorBitwise, ∀ s,
    exec (e.1 d a b) s = vecBits 1 d a (.code b) .none s e.2.2.2 ∧
    exec (e.2.1 d a b vx) s = vecBits 3 d a (.code b) vx s e.2.2.2 ∧
    exec (e.2.2.1 d a lit vx) s = vecBits 5 d a (.lit lit) vx s e.2.2.2 := by
  simp only [vectorBitwise, List.forall_mem_cons, List.not_mem_nil, false_imp_iff, implies_true, and_true]
  and_intros <;> exact fun _ => ⟨rfl, rfl, rfl⟩

end

/-- Settles O48: each instruction has one of the shapes above. -/
theorem vectorFrame : Obligations.VectorFrame := by
  intro s t d a b c lit vx pr fd
  refine ⟨?_, ?_, ?_⟩
  · simp only [List.forall_mem_append, List.forall_mem_flatMap, List.forall_mem_cons, List.not_mem_nil, false_imp_iff, implies_true, and_true]
    refine ⟨⟨⟨⟨fun e he => ?_, fun e he => ?_⟩, fun e he => ?_⟩, fun e he => ?_⟩, ?_⟩
    · obtain ⟨h1, h3⟩ := exec_vectorUnary d a vx e he s
      exact ⟨fun h => vec1_ends (h1 ▸ h), fun h => vec1_ends (h3 ▸ h)⟩
    · obtain ⟨h1, h3⟩ := exec_vectorReduction d a vx e he s
      exact ⟨fun h => vecReduce_ends (h1 ▸ h), fun h => vecReduce_ends (h3 ▸ h)⟩
    · obtain ⟨h1, h3, h5⟩ := exec_vectorBinary d a b lit vx e he s
      exact ⟨fun h => vec2_ends (h1 ▸ h), fun h => vec2_ends (h3 ▸ h), fun h => vec2_ends (h5 ▸ h)⟩
    · obtain ⟨h1, h3, h5⟩ := exec_vectorBitwise d a b lit vx e he s
      exact ⟨fun h => vecBits_ends (h1 ▸ h), fun h => vecBits_ends (h3 ▸ h), fun h => vecBits_ends (h5 ▸ h)⟩
    · exact ⟨vec3_ends, vec3_ends, vecScale_ends (.code b) .none, vecScale_ends (.code b) vx, vecScale_ends (.lit lit) vx,
        execVcvt_ends, vecSelect_ends, vecSelect_ends, vecPermute_ends, vecPermute_ends, vecPermute_ends, vecBroadcast_ends, vecBroadcast_ends,
        vecIota_ends, vecIota_ends, execVpck_ends, execVupk_ends, vecMove_ends, vecMove_ends, vecInsert_ends, vecInsert_ends⟩
  · simp only [List.forall_mem_cons, List.not_mem_nil, false_imp_iff, implies_true, and_true]
    exact ⟨vecCompare_ends, vecCompare_ends, vecCompare_ends, maskOp_ends, maskOp_ends, maskOp_ends⟩
  · simp only [List.forall_mem_cons, List.not_mem_nil, false_imp_iff, implies_true, and_true]
    exact ⟨vecExtract_ends, vecExtract_ends⟩

end Sys2Proof.Machine
end

section
/-!
PROOFS. Hints and YIELD (03 R103, 05 R144).
-/
namespace Sys2Proof.Machine

theorem Core.order_of_one_yield {k : Core} {y : Nat} {done : List Nat} (h : k.yielded = [(y, done)]) :
    k.order = k.rotation.filter (fun t => t != y && !done.contains t) ++
      k.rotation.filter (fun t => !(k.rotation.filter (fun t => t != y && !done.contains t)).contains t) := by
  rw [Core.order, h]
  rfl

/-- With the members of a list that pass a test put before its other members, one that passes comes before one that does not. -/
theorem lt_of_filter_first {α : Type} [BEq α] [LawfulBEq α] {l : List α} {p : α → Bool} {x y : α} {i j : Nat}
    (hx : p x = true) (hy : p y = false)
    (hi : (l.filter p ++ l.filter (fun t => !(l.filter p).contains t))[i]? = some x)
    (hj : (l.filter p ++ l.filter (fun t => !(l.filter p).contains t))[j]? = some y) : i < j := by
  have hin : i < (l.filter p).length := by
    refine Nat.lt_of_not_le fun hge => ?_
    rw [List.getElem?_append_right hge] at hi
    have hm := List.mem_of_getElem? hi
    simp only [List.mem_filter, Bool.not_eq_true', List.contains_eq_mem, decide_eq_false_iff_not] at hm
    exact hm.2 ⟨hm.1, hx⟩
  have hout : (l.filter p).length ≤ j := by
    refine Nat.le_of_not_lt fun hlt => ?_
    rw [List.getElem?_append_left hlt] at hj
    have hm := (List.mem_filter.mp (List.mem_of_getElem? hj)).2
    simp [hy] at hm
  omega

/-- Settles O16: each of them only retires, and a slot that has not issued since the one YIELD stands in the part of the order that is put first. -/
theorem hintsAndYieldPass : Obligations.HintsAndYieldPass := by
  intro s th v body len x1 x2 x3 x4 hc
  refine ⟨withThread_cur hc _, withThread_cur hc _, withThread_cur hc _, withThread_cur hc _, ?_, ?_⟩
  · intro k y t i j done hk hy ht hi hj
    rw [Core.order_of_one_yield hk] at hi hj
    exact lt_of_filter_first (by simp [hy, ht]) (by simp) hi hj
  · intro k y t done hk hy e he
    simp only [Core.issued, hk, List.map_cons, List.map_nil, List.mem_filter, List.mem_singleton] at he
    obtain ⟨rfl, -⟩ := he
    refine ⟨rfl, ?_⟩
    by_cases hd : t ∈ done <;> simp [hy, hd]

end Sys2Proof.Machine
end
